-- ==== Sys2Proof/Word.lean ====
section
/-!
DEFINITION. The plainest types of the model: a byte, and a sparse map from numbers to data.

Quantities the spec counts, adds or compares (times, addresses, indices, counters) are `Nat`, cut to the
width the spec gives where it wraps. Bytes that travel in letters or lie in memory are bit vectors.
-/

namespace Sys2Proof

/-- One byte of a letter, a packet, a chart image or memory. -/
abbrev Byte := BitVec 8

/-- A string of bytes, lowest address or first byte sent at the head. -/
abbrev Bytes := List Byte

/-- A sparse map: pairs of a key and its data, keys strictly rising, with no pair whose data is the default
(`Machine/Maps.lean` reads and writes it and keeps that form). -/
abbrev Map (α : Type) := List (Nat × α)

end Sys2Proof
end

