-- ==== Sys2Proof/Syntax.lean ====
section
/-!
DEFINITION. The commands of the node: one constructor of `Instr` per row of spec/opcode_table.json, and the data that
arrives from outside with them.

Every time-dependent command carries `t`, the Meridian time (MER_NS) at which it happens; every boundary is taken at
the time the tick generator gives it. A unit (port, core, quad, sheet, post box, queue pair) is named by its global
number (R4, R13).
-/

namespace Sys2Proof

/-- An Opward packet: the Opward header of R251 and its payload, after franking, decryption and payload checks. -/
structure Packet where
  dst      : Nat
  src      : Nat
  deadline : Nat
  ptype    : Nat
  cls      : Nat
  entropy  : Nat
  hops     : Nat
  ce       : Bool
  payload  : Bytes
  deriving DecidableEq, Repr, Inhabited

/-- A frame as the lanes deliver it: whether its error correction succeeded, the Ethernet, IPv6 and UDP headers it came in on a
switched port (R258), and the bytes of the frame (table Frame layout). -/
structure RxFrame where
  fecOk : Bool
  ip    : Bytes
  bytes : Bytes
  deriving DecidableEq, Repr, Inhabited

/-- What a port measured of a lane over 1 ms (R246): loss of block lock, symbol errors before correction among the symbols
received, codewords that could not be corrected. -/
structure LaneErr where
  lane          : Nat
  lockLost      : Bool
  errors        : Nat
  symbols       : Nat
  uncorrectable : Nat
  deriving DecidableEq, Repr, Inhabited

/-- A FINISH of R267 as decoded from its KEYX frame: its signature and the frame's deadline. -/
structure FinishMsg where
  signature : Bytes
  deadline  : Nat
  deriving DecidableEq, Repr, Inhabited

/-- A posted host command: its 64 B slot, and the bytes that stand in host memory at the address it names (descriptor
and list, letter, overlay image, source data), which only the host knows. -/
structure HostCmd where
  bytes : Bytes
  data  : Bytes
  deriving DecidableEq, Repr, Inhabited

/-- A table walk as a translation unit makes it: the slot translated, and whether a cached entry failed its parity
(R178, R187). -/
structure SlotWalk where
  slot   : Nat
  parity : Bool
  deriving DecidableEq, Repr, Inhabited

/-- What a fetch into staging has brought: the page's key and the granules that have arrived (R125). -/
structure StagedPart where
  key      : Nat
  granules : Nat
  deriving DecidableEq, Repr, Inhabited

/-- An error in one residue comparison of a pass (R111): the array (0 score, 1 value), the query row, the tile within the
pass, the block, the group of 64 output columns (value array), the column at fault (64 for the checksum column), and what
the error adds to that column's residue modulo 2^24. -/
structure Upset where
  array  : Nat
  row    : Nat
  tile   : Nat
  block  : Nat
  group  : Nat
  column : Nat
  error  : Nat
  deriving DecidableEq, Repr, Inhabited

/-- A symbol of a codeword in error (R217): its place (0 to 31 data, 32 tag byte, 33 to 35 check bytes) and the value added
to it in GF(2^8). -/
structure SymErr where
  symbol : Nat
  value  : Nat
  deriving DecidableEq, Repr, Inhabited

/-- What a controller gets when it reads a burst (R217): the codeword of the burst it reached, with errors in it. -/
structure BurstRead where
  reached : Nat
  errors  : List SymErr
  deriving DecidableEq, Repr, Inhabited

/-- The margins of a channel as training leaves them: read and write, setup and hold (R214). -/
structure ChMargins where
  quad    : Nat
  channel : Nat
  margins : List Nat
  deriving DecidableEq, Repr, Inhabited

/-- The end of HBM training: its time in ms and every channel's margins. -/
structure Trained where
  ms       : Nat
  channels : List ChMargins
  deriving DecidableEq, Repr, Inhabited

/-- A received time-exchange message with the four timestamps of R30 in units of 1/65,536 ns: sent and received at
the neighbour's side, sent and received at this node's. -/
structure TimeMsg where
  sentHere  : Nat
  recvThere : Nat
  sentThere : Nat
  recvHere  : Nat
  period    : Nat
  origin    : Nat
  epoch     : Nat
  hops      : Nat               -- the neighbour's depth in the time tree
  deadline  : Nat               -- of its frame (R253)
  deriving DecidableEq, Repr, Inhabited

/-- The PTP messages of R32. -/
inductive PtpKind where
  | sync | syncTwoStep | followUp | delayReq | delayResp | pdelayReq | pdelayResp | pdelayRespFollowUp | announce
  | management
  deriving DecidableEq, Repr, Inhabited

/-- A received PTP message: the origin or receive timestamp it carries and its own arrival, in units of 1/65,536 ns. -/
structure PtpMsg where
  kind    : PtpKind
  domain  : Nat
  seqId   : Nat
  stamp   : Nat
  corr    : Int
  arrival : Nat
  deriving DecidableEq, Repr, Inhabited

/-- A HELLO of R267 as decoded from its KEYX frame. -/
structure HelloMsg where
  chain    : Bytes              -- device identity certificate chain
  pubkey   : Bytes              -- P-384 public key, 96 B
  nonce    : Bytes              -- 32 random bytes
  postcode : Nat
  mode     : Nat
  order    : Nat                -- stacking order
  franked  : Bool               -- its KEYX frame was franked under the key in force: part of a rekey
  deadline : Nat                -- of its frame (R253)
  deriving DecidableEq, Repr, Inhabited

/-- An SPDM request: the version it is sent under, whether it came inside a secured session, and its bytes. -/
structure SpdmReq where
  version : Nat
  session : Option Nat
  bytes   : Bytes
  deriving DecidableEq, Repr, Inhabited

/-- The commands and events of the node, in the order of spec/opcode_table.json. -/
inductive Instr where
  /-- TICK_BOUNDARY (R50). At each tick boundary the node applies the boundary actions in order, ending with admission
  of the new tick's pigeonholes. -/
  | tickBoundary
  /-- COLLECTION_CUTOFF (R46). Collection for the next tick closes 20 ns before the boundary so that pigeonholes can
  be formed. -/
  | collectionCutoff (t : Nat)
  /-- TIME_EXCHANGE_SEND (R30). At each exchange interval the node sends a time-exchange message on each native port. -/
  | timeExchangeSend (t : Nat)
  /-- TIME_EXCHANGE (R30). A received time-exchange message yields timestamps, offset and delay for the servo. -/
  | timeExchange (t port : Nat) (m : TimeMsg)
  /-- EXCHANGE_MISSED (R39). Eight missed exchanges mean the upstream is lost and the node enters HOLDOVER. -/
  | exchangeMissed (t port : Nat)
  /-- PTP_MESSAGE (R32). A received PTP event or general message feeds the time servo on a switched port. -/
  | ptpMessage (t port : Nat) (m : PtpMsg)
  /-- PTP_SYNC_SEND (R32). A source node sends two-step Sync at its sync interval as time transmitter. -/
  | ptpSyncSend (t port : Nat)
  /-- PPS_IN_EDGE (R34). A rising edge on TIME_PPS_IN marks the PPS instant and locks a SOURCE_PPS node. -/
  | ppsInEdge (t : Nat)
  /-- PPS_MISSING (R34). A pulse not arriving within 1 s ± 1 µs counts as missing; two in a row enter HOLDOVER. -/
  | ppsMissing (t : Nat)
  /-- PPS_OUT_PULSE (R35). TIME_PPS_OUT rises at each second of MER_NS and stays high for 10 µs. -/
  | ppsOutPulse (t : Nat)
  /-- UPSTREAM_ATTEMPT_TIMEOUT (R39). An attempt on an alternate port that has not succeeded within 0.5 s fails and
  the next port is tried. -/
  | upstreamAttemptTimeout (t : Nat)
  /-- HOLDOVER_LIMIT_EXCEEDED (R40). MER_ERR_EST passing the holdover limit makes the node UNLOCKED and raises an
  ALARM. -/
  | holdoverLimitExceeded (t : Nat)
  /-- D2D_REPLAY_TIMEOUT (R19). A die-to-die link that fails to replay within 1 µs is retrained once, and a failed
  retrain is FATAL. -/
  | d2dReplayTimeout (t sheet link : Nat) (trained : Bool)
  /-- ATTEND (R63). A received ATTEND letter is checked, translated, split into shares and collected, or anchored. -/
  | attend (t port : Nat) (p : Packet)
  /-- APPEND (R67). A received APPEND letter is checked and collected for application at the next boundary. -/
  | append (t port : Nat) (p : Packet)
  /-- ATTEND_FWD (R80). A received anchor copy is checked and collected like an unanchored letter. -/
  | attendFwd (t port : Nat) (p : Packet)
  /-- LETTER_SHARE (R122). A share sent from the lead sheet is collected by its own sorting office. -/
  | letterShare (t ctx sheet : Nat)
  /-- ROUTE_CACHE_WALK (R178). A route cache miss completes its table walk and the waiting translation proceeds. -/
  | routeCacheWalk (t sheet seq : Nat) (walk : SlotWalk)
  /-- PARTIAL (R81). A received PARTIAL frame is merged into its anchor or ticket context, or discarded on a
  tombstone. -/
  | partialFrame (t port : Nat) (p : Packet)
  /-- REPLY (R316). A REPLY frame for this node is written to the reply ring of its mailbox or discarded. -/
  | replyFrame (t port : Nat) (p : Packet)
  /-- MERGE_CUTOFF (R81). At DEADLINE − RETURN_NS uncovered ordinals receive LATE records and the merging node
  replies. -/
  | mergeCutoff (t : Nat)
  /-- TOMBSTONE_EXPIRY (R84). A context tombstone is removed at its letter's DEADLINE. -/
  | tombstoneExpiry (t : Nat)
  /-- REFUSAL_ENTRY_EXPIRY (R85). A refusal-table entry is removed at its DEADLINE. -/
  | refusalEntryExpiry (t : Nat)
  /-- RUN_AHEAD_FETCH (R125). A page waiting in the fetch queue starts its run-ahead fetch once staging credits are
  freed. -/
  | runAheadFetch (t sheet : Nat)
  /-- PAGE_STAGED (R125). A page's granules land in staging and the page becomes admissible. -/
  | pageStaged (t sheet : Nat) (part : StagedPart)
  /-- STAGE_FROM_LOWER_TIER (R196). A SWAPPED page read from T2 or T3 has its CONTENT_HASH checked before it counts as
  staged. -/
  | stageFromLowerTier (t sheet key : Nat) (data : Bytes) (bad : Bool)
  /-- PASS_START (R134). A core takes the next pass from its queue, loads query forms and starts tiles as they land. -/
  | passStart (t core : Nat)
  /-- PASS_COMPLETE (R104). A pass completes and hands its page or subtree partials to the lead sheet's merge unit. -/
  | passComplete (t core : Nat) (upsets : List Upset)
  /-- SPAD_ERROR (R116). A scratchpad SECDED error is corrected or, by area, poisons a page, fails a pass or cancels
  the core's tick. -/
  | spadError (t core offset bit : Nat) (uncorrected : Bool)
  /-- STAGING_ERROR (R127). A SECDED error in staging, the collection store or the merge buffer is corrected or fails
  the affected work. -/
  | stagingError (t sheet kind which : Nat) (uncorrected : Bool)
  /-- SEAL_HASH_DONE (R171). The hash engine finishes CONTENT_HASH and the page's SEAL becomes 2. -/
  | sealHashDone (t seq slot : Nat)
  /-- CORE_HANG (R413). A core without a completion report two ticks after a boundary is hung and may be reset at
  level 2. -/
  | coreHang (t core : Nat)
  /-- CORE_RESET_TIMEOUT (R413). A core not ready 10 µs after a level-2 reset stays HUNG and is fenced. -/
  | coreResetTimeout (t core : Nat)
  /-- SEQ_OPEN (R172). Command opening a sequence with its descriptor and placement list. -/
  | seqOpen (t box : Nat) (c : HostCmd)
  /-- SEQ_CLOSE (R179). Command closing a sequence and releasing its pages. -/
  | seqClose (t box : Nat) (c : HostCmd)
  /-- PAGE_ALLOC (R180). Command allocating frames for a range of page slots. -/
  | pageAlloc (t box : Nat) (c : HostCmd)
  /-- PAGE_FREE (R179). Command freeing a range of pages. -/
  | pageFree (t box : Nat) (c : HostCmd)
  /-- PIN (R179). Command setting PINNED on a range of pages. -/
  | pin (t box : Nat) (c : HostCmd)
  /-- UNPIN (R179). Command clearing PINNED on a range of pages. -/
  | unpin (t box : Nat) (c : HostCmd)
  /-- HINT_HOT (R198). HINT command that sets HOT and may request a swap-in. -/
  | hintHot (t box : Nat) (c : HostCmd)
  /-- HINT_COLD (R198). HINT command that clears HOT and zeroes COUNT. -/
  | hintCold (t box : Nat) (c : HostCmd)
  /-- HINT_SHARE (R234). HINT command that pre-verifies a Gazetteer content hit and shares the sealed page at a
  boundary. -/
  | hintShare (t box : Nat) (c : HostCmd)
  /-- MIGRATE (R204). Command moving a range of sealed pages to another node or quad. -/
  | migrate (t box : Nat) (c : HostCmd)
  /-- OFFER (R205). A received OFFER is checked and the destination allocates a frame at its next boundary. -/
  | offer (t port : Nat) (p : Packet)
  /-- ACCEPT (R205). A received ACCEPT lets the source start writing tiles under the write key. -/
  | accept (t port : Nat) (p : Packet)
  /-- MIGRATION_TILE (R203). The migration engine reads or writes page tiles in HBM slots left spare by admission. -/
  | migrationTile (t move : Nat) (data : Bytes)
  /-- MOVE_HASH_VERIFIED (R205). The destination finishes recomputing CONTENT_HASH and sends VERIFIED or REJECT. -/
  | moveHashVerified (t move : Nat)
  /-- VERIFIED (R206). A received VERIFIED makes the source name the switch tick and send COMMIT. -/
  | verified (t port : Nat) (p : Packet)
  /-- COMMIT (R205). A received COMMIT is answered COMMITTED or REJECT with LATE. -/
  | commit (t port : Nat) (p : Packet)
  /-- COMMITTED (R206). A received COMMITTED lets the source switch at B(S) if it arrived before B(S − 1). -/
  | committed (t port : Nat) (p : Packet)
  /-- CANCEL (R206). A received CANCEL makes the destination redirect to the source and free its frame. -/
  | cancel (t port : Nat) (p : Packet)
  /-- REJECT (R205). A received REJECT ends the move with its status or triggers one resend of the tiles. -/
  | reject (t port : Nat) (p : Packet)
  /-- MOVE_SWITCH (R206). At B(S) the source becomes a REDIRECT and the destination's leaf becomes SEALED. -/
  | moveSwitch (t move : Nat)
  /-- MIG_TIMEOUT (R208). A peer that does not answer within MIG_TIMEOUT ends the move with INTERNAL. -/
  | migTimeout (t move : Nat)
  /-- SWAP_OUT_COMPLETE (R211). After the last write of a swap-out the leaf becomes SWAPPED and the T1 frame is freed. -/
  | swapOutComplete (t move : Nat)
  /-- SWAP_IN_COMPLETE (R202). A swap-in's tiles are copied back and verified, and at its switch the page is SEALED in
  T1. -/
  | swapInComplete (t move : Nat)
  /-- HEAT_DECAY (R197). Every 2^HEAT_DECAY_LOG2 ticks every heat COUNT is halved. -/
  | heatDecay (t : Nat)
  /-- T0_IDLE_DROP (R139). Copies of a page without admitted rows for 2^PROMOTE_IDLE_LOG2 ticks are dropped. -/
  | t0IdleDrop (t : Nat)
  /-- HBM_TRAIN_FAIL (R214). A channel failing training takes its quad OFFLINE at the next boundary. -/
  | hbmTrainFail (t quad channel : Nat)
  /-- HBM_RECENTRE (R214). Once per second each channel's timing is re-centred during refresh windows. -/
  | hbmRecentre (t quad channel : Nat) (margins : List Nat)
  /-- HBM_CORRECTED (R217). A single-symbol error is corrected, the burst rewritten and the granule's count checked
  for retirement. -/
  | hbmCorrected (t burst : Nat) (e : SymErr)
  /-- HBM_UNCORRECTED (R217). An uncorrected burst or tag mismatch is poisoned and its granule retired. -/
  | hbmUncorrected (t burst : Nat) (read : BurstRead) (what record : Nat)
  /-- PATROL_START (R217). A patrol read of every allocatable granule starts once per PATROL_HOURS. -/
  | patrolStart (t quad : Nat)
  /-- HBM_REFRESH (R218). Per-bank refresh is issued at the JESD238A rate, doubled at 85 °C. -/
  | hbmRefresh (t quad channel bank : Nat)
  /-- HBM_RFM (R218). An activation count reaching the stack's threshold issues an RFM command. -/
  | hbmRfm (t quad channel bank : Nat)
  /-- THERMAL_SAMPLE (R219). Every 1 ms stack and die temperatures are read and the thermal rules applied. -/
  | thermalSample (t : Nat) (die stack : List Nat) (hub : Nat)
  /-- STACK_SELF_REFRESH_IDLE (R388). A parked stack goes back into self-refresh after 10 µs without access. -/
  | stackSelfRefreshIdle (t quad : Nat)
  /-- NME_FILL (R223). Command filling an HBM range with a 64-bit pattern. -/
  | nmeFill (t box : Nat) (c : HostCmd)
  /-- NME_COPY (R223). Command copying an HBM range locally or to and from a remote node. -/
  | nmeCopy (t box : Nat) (c : HostCmd)
  /-- NME_COMPARE (R223). Command comparing two HBM ranges byte by byte. -/
  | nmeCompare (t box : Nat) (c : HostCmd)
  /-- NME_REDUCE (R223). Command reducing vectors by SUM, MAX or MIN. -/
  | nmeReduce (t box : Nat) (c : HostCmd)
  /-- NME_OP_START (R221). The engine takes a queued operation when one of its four places frees. -/
  | nmeOpStart (t quad : Nat)
  /-- NME_OP_COMPLETE (R224). An engine operation finishes or stops on a fault and writes its completion. -/
  | nmeOpComplete (t op : Nat)
  /-- GZ_RULE_INSERT (R238). GZ_RULE_CMD GO with OP INSERT moves rules towards a free index and writes the new rule. -/
  | gzRuleInsert (t sheet : Nat)
  /-- GZ_RULE_REMOVE (R238). GZ_RULE_CMD GO with OP REMOVE clears the lowest matching rule. -/
  | gzRuleRemove (t sheet : Nat)
  /-- GZ_RESPREAD (R238). With the update queue empty the node moves rules until every stride holds a free index. -/
  | gzRespread (t sheet : Nat)
  /-- RESPREAD_NOW (R244). GZ_CTL write that starts a respread even while updates are queued. -/
  | respreadNow (t sheet : Nat)
  /-- GZ_ENTRY_ERROR (R243). A parity or SECDED error in a Gazetteer entry is corrected, invalidated or rewritten from
  HBM. -/
  | gzEntryError (t sheet part index : Nat) (uncorrected : Bool)
  /-- FRAME_RECEIVED (R260). A received DATA frame is authenticated, decrypted, deadline-checked and delivered or
  queued for forwarding. -/
  | frameReceived (t port : Nat) (f : RxFrame)
  /-- EGRESS_FRAME_SEND (R257). At each frame boundary the egress chooses its next frame by class, credits and
  deadline, and franks it. -/
  | egressFrameSend (t port : Nat)
  /-- LINK_FRAME_SEND (R255). A LINK frame with ACK and credits is sent on change and at least every 1 µs. -/
  | linkFrameSend (t port : Nat)
  /-- LINK_FRAME (R255). A received LINK frame acknowledges frames, returns credits or triggers a resend on NAK. -/
  | linkFrame (t port : Nat) (f : RxFrame)
  /-- RETRY_TIMEOUT (R254). No acknowledgement within RETRY_TIMEOUT makes the port resend from the first
  unacknowledged frame. -/
  | retryTimeout (t port : Nat)
  /-- LINK_IDLE_TIMEOUT (R255). A port receiving no valid frame for 100 µs retrains. -/
  | linkIdleTimeout (t port : Nat)
  /-- LANE_FAULT (R246). A lane losing lock or exceeding its error limits makes the port retrain at a narrower width. -/
  | laneFault (t port : Nat) (e : LaneErr)
  /-- PORT_TRAINED (R246). A port completes training or retraining at an agreed width, or becomes FAILED after three
  failures at width 1. -/
  | portTrained (t port mask peerMask : Nat) (ok : Bool)
  /-- LOCK_GAP_TIMEOUT (R248). A lock sequence gap open for 2 µs is skipped and counted. -/
  | lockGapTimeout (t lock : Nat)
  /-- HELLO (R267). A received HELLO in a KEYX frame starts or restarts key establishment on the port. -/
  | hello (t port peer : Nat) (m : HelloMsg)
  /-- FINISH (R267). A received FINISH signature is verified and the direction keys are derived. -/
  | finish (t port peer : Nat) (m : FinishMsg)
  /-- KEY_EXCHANGE_TIMEOUT (R267). A key exchange not finished within 20 ms fails, writes a FAULT record and is
  retried every 1 s. -/
  | keyExchangeTimeout (t port peer : Nat)
  /-- REKEY_TRIGGER (R268). A transmit FCTR of 2^47 or a 9-minute-old key starts a rekey. -/
  | rekeyTrigger (t port peer : Nat)
  /-- KEY_AGE_LIMIT (R268). A port reaching the FCTR or 10-minute key limit without a new key goes to KEYING. -/
  | keyAgeLimit (t port peer : Nat)
  /-- OLD_KEY_ERASE (R268). 100 µs after the first frame of a new epoch the old key is erased. -/
  | oldKeyErase (t port peer : Nat)
  /-- NEIGHBOR_SOLICITATION (R258). A switched port answers a Neighbor Solicitation for its own address. -/
  | neighborSolicitation (t port : Nat) (target source : Bytes)
  /-- DEAD_LETTER (R316). A received dead-letter notice is written to the host's notice ring. -/
  | deadLetter (t port : Nat) (p : Packet)
  /-- QP_CREATE (R273). Command making a queue-pair context with its receive ring. -/
  | qpCreate (t box : Nat) (c : HostCmd)
  /-- QP_CONNECT (R273). Command fixing a queue pair's peer and paths and making it READY. -/
  | qpConnect (t box : Nat) (c : HostCmd)
  /-- QP_RESET (R273). Command aborting a queue pair's operations and resetting it after PKT_LIFETIME. -/
  | qpReset (t box : Nat) (c : HostCmd)
  /-- QP_DESTROY (R273). Command resetting and releasing a queue pair. -/
  | qpDestroy (t box : Nat) (c : HostCmd)
  /-- QP_LIFETIME_WAIT_END (R274). After PKT_LIFETIME a resetting queue pair clears its PSNs and counters and
  completes. -/
  | qpLifetimeWaitEnd (t qpn : Nat)
  /-- CR_WRITE (R275). Courier operation writing local bytes to a remote key's region. -/
  | crWrite (t box : Nat) (c : HostCmd)
  /-- CR_READ (R275). Courier operation reading a remote key's region. -/
  | crRead (t box : Nat) (c : HostCmd)
  /-- CR_SEND (R278). Courier operation sending a message into the peer's receive ring. -/
  | crSend (t box : Nat) (c : HostCmd)
  /-- CR_FETCH_ADD (R290). Courier atomic fetch-and-add on a remote 64-bit word. -/
  | crFetchAdd (t box : Nat) (c : HostCmd)
  /-- CR_COMPARE_SWAP (R290). Courier atomic compare-and-swap on a remote 64-bit word. -/
  | crCompareSwap (t box : Nat) (c : HostCmd)
  /-- CR_WAIT (R277). Courier operation holding later operations until a watched counter reaches a target. -/
  | crWait (t box : Nat) (c : HostCmd)
  /-- WAIT_TIMEOUT (R277). A WAIT whose TIMEOUT_US elapses completes with EXPIRED and the queue pair goes to ERROR. -/
  | waitTimeout (t qpn : Nat)
  /-- WRITE (R281). A received WRITE packet is checked and placed by its own address. -/
  | write (t port : Nat) (p : Packet)
  /-- READ_REQ (R281). A received READ_REQ is checked and answered with READ_RESP packets. -/
  | readReq (t port : Nat) (p : Packet)
  /-- READ_RESP (R288). A received READ_RESP is placed at the requester's local address. -/
  | readResp (t port : Nat) (p : Packet)
  /-- SEND (R278). A received SEND lands in a receive ring slot and RECV_CNT advances. -/
  | send (t port : Nat) (p : Packet)
  /-- FETCH_ADD (R290). A received FETCH_ADD is performed once and answered with the old value. -/
  | fetchAdd (t port : Nat) (p : Packet)
  /-- COMPARE_SWAP (R290). A received COMPARE_SWAP is performed once and answered with the old value. -/
  | compareSwap (t port : Nat) (p : Packet)
  /-- ATOMIC_RESP (R290). A received ATOMIC_RESP delivers an atomic's old value and completes it. -/
  | atomicResp (t port : Nat) (p : Packet)
  /-- ACK (R288). A received ACK advances the send window, completes operations and ends congestion windows. -/
  | ack (t port : Nat) (p : Packet)
  /-- NAK (R289). A received NAK ends its operation or schedules an RNR resend. -/
  | nak (t port : Nat) (p : Packet)
  /-- CLOSE (R294). A received CLOSE moves the queue pair to ERROR and is answered with CLOSE_ACK. -/
  | close (t port : Nat) (p : Packet)
  /-- CLOSE_ACK (R294). A received CLOSE_ACK completes the failing ORDERED operation with the last placed PSN. -/
  | closeAck (t port : Nat) (p : Packet)
  /-- ORDERED_CLOSE_SEND (R294). After PKT_LIFETIME plus guard an ORDERED queue pair in ERROR sends CLOSE. -/
  | orderedCloseSend (t qpn : Nat)
  /-- CLOSE_ACK_TIMEOUT (R294). Without CLOSE_ACK within 100 µs the operation completes with the last acknowledged
  PSN. -/
  | closeAckTimeout (t qpn : Nat)
  /-- ACK_DELAY_TIMEOUT (R288). 500 ns after the oldest unacknowledged placement the receiver sends an ACK. -/
  | ackDelayTimeout (t qpn : Nat)
  /-- COURIER_RTO (R289). A packet unacknowledged for RTO_US is resent, or its operation fails at RETRY_LIMIT. -/
  | courierRto (t qpn psn : Nat)
  /-- RNR_RETRY (R297). After RETRY_US a packet NAKed RNR_CONTEXT is resent. -/
  | rnrRetry (t qpn psn : Nat)
  /-- COURIER_PACE (R295). A queue pair's next paced packet leaves once b ÷ r has passed. -/
  | courierPace (t qpn : Nat)
  /-- PATH_RESUME (R287). A suspended path is used again after 1 ms. -/
  | pathResume (t qpn path : Nat)
  /-- CONTEXT_FETCHED (R296). A context fetch completes and packets held in poste restante proceed to their checks. -/
  | contextFetched (t qpn : Nat)
  /-- CONTEXT_UE (R296). An uncorrected error in a backing context moves its queue pair to ERROR. -/
  | contextUe (t qpn : Nat)
  /-- NODE_QP_IDLE (R298). A node-owned queue pair unused for 1 s is destroyed. -/
  | nodeQpIdle (t qpn : Nat)
  /-- KEY_REGISTER (R280). Command registering a memory key at a boundary. -/
  | keyRegister (t box : Nat) (c : HostCmd)
  /-- KEY_REVOKE (R284). Command revoking a memory key at a boundary and completing once passed placements finish. -/
  | keyRevoke (t box : Nat) (c : HostCmd)
  /-- CR_QP_FREED_WRITE (R278). Write of the consumed-message count that frees receive ring slots. -/
  | crQpFreedWrite (t qpn value : Nat)
  /-- UCIE_LINK_UP (R300). The UCIe link comes up with at least one active module. -/
  | ucieLinkUp (t modules rate : Nat)
  /-- UCIE_MODULE_DOWN (R300). A module failing training is left out, or a lane is repaired or degraded. -/
  | ucieModuleDown (t ucie kind : Nat)
  /-- UCIE_LINK_DOWN (R300). No active module for 1 ms takes the link down and may declare the host failed. -/
  | ucieLinkDown (t : Nat)
  /-- IDE_FAILURE (R376). An IDE integrity failure takes the host link down. -/
  | ideFailure (t : Nat)
  /-- HDM_READ (R302). A host CXL.mem read returns the line, or poison for holes and poisoned lines. -/
  | hdmRead (t addr : Nat) (exclusive : Bool)
  /-- HDM_WRITE (R302). A host CXL.mem write is made to HOST granules or an unsealed bias area, or dropped. -/
  | hdmWrite (t addr mask : Nat) (data : Bytes) (poison : Bool) (held : Nat)
  /-- BISNP_RESPONSE (R320). The host's answer to a back-invalidate snoop releases the waiting node access. -/
  | bisnpResponse (t line : Nat) (data : Option Bytes) (keeps : Bool)
  /-- RECALL_TIMEOUT (R321). A snoop unanswered within DIR_RECALL_TIMEOUT poisons an EM line or drops a Shared one. -/
  | recallTimeout (t line : Nat)
  /-- REGISTER_WRITE (R304). A control-window write to a register without its own row sets its fields or is ignored. -/
  | registerWrite (t addr width value : Nat)
  /-- DOORBELL (R307). A PB_TAIL write records TAIL, starts fetching or moves the post box to ERROR. -/
  | doorbell (t box tail : Nat) (slots : List HostCmd)
  /-- CPL_FREE_WRITE (R307). A PB_CPL_FREE write releases completion slots within the bound. -/
  | cplFreeWrite (t box value : Nat)
  /-- RR_FREE_WRITE (R316). A write of RR_FREE releases reply ring slots within the bound. -/
  | rrFreeWrite (t box value : Nat)
  /-- PB_ENABLE (R317). PB_CTL ENABLE checks the configuration and enables the post box. -/
  | pbEnable (t box : Nat)
  /-- PB_DISABLE (R317). PB_CTL DISABLE stops fetching and drains the post box. -/
  | pbDisable (t box : Nat)
  /-- PB_RESET (R317). PB_CTL RESET aborts unapplied commands and clears the post box's indices. -/
  | pbReset (t box : Nat)
  /-- NOP (R313). Command that completes with DONE. -/
  | nop (t box : Nat) (c : HostCmd)
  /-- HOST_APPEND (R315). Command sending an APPEND letter from the host. -/
  | hostAppend (t box : Nat) (c : HostCmd)
  /-- HOST_ATTEND (R315). Command sending an ATTEND letter from the host. -/
  | hostAttend (t box : Nat) (c : HostCmd)
  /-- IRQ_HOLDOFF_END (R318). At the end of the interrupt hold-off a pending event raises one interrupt. -/
  | irqHoldoffEnd (t box : Nat)
  /-- HP_HEARTBEAT (R322). A write of HP_HEARTBEAT counts as a heartbeat and may start monitoring. -/
  | hpHeartbeat (t value : Nat)
  /-- HEARTBEAT_CHECK (R322). At the end of each heartbeat period the node checks for a write and may declare the host
  failed. -/
  | heartbeatCheck (t : Nat)
  /-- ADOPT (R324). HP_CTL ADOPT ends ORPHAN, disables every post box and restarts monitoring. -/
  | adopt (t : Nat)
  /-- T3_WINDOW_ENABLE (R194). A write of HP_T3_SIZE.EN gives the T3 window or, when cleared, withdraws it. -/
  | t3WindowEnable (t value : Nat)
  /-- EXTENT_GRANT (R331). Command granting an extent of the host area under a key and lease. -/
  | extentGrant (t box : Nat) (c : HostCmd)
  /-- EXTENT_RENEW (R333). Command sending a RENEW to the server and completing with its answer. -/
  | extentRenew (t box : Nat) (c : HostCmd)
  /-- EXTENT_WITHDRAW (R336). Command withdrawing an extent, fencing its keys and scrubbing it. -/
  | extentWithdraw (t box : Nat) (c : HostCmd)
  /-- RENEW (R334). A received RENEW is checked and answered RENEWED with a later EXPIRY, or REFUSED. -/
  | renew (t port : Nat) (p : Packet)
  /-- RENEWED (R333). A received RENEWED completes EXTENT_RENEW with the new EXPIRY. -/
  | renewed (t port : Nat) (p : Packet)
  /-- REFUSED (R333). A received REFUSED completes EXTENT_RENEW with its status. -/
  | refusedAnswer (t port : Nat) (p : Packet)
  /-- RENEW_TIMEOUT (R333). No answer to RENEW within 1 ms completes EXTENT_RENEW with INTERNAL. -/
  | renewTimeout (t reqId : Nat)
  /-- LEASE_EXPIRY (R335). At the first boundary at or after EXPIRY the extent is withdrawn. -/
  | leaseExpiry (t ext : Nat)
  /-- EXTENT_DRAINED (R336). When passed placements finish the extent becomes SCRUBBING and its FILL is started. -/
  | extentDrained (t ext : Nat)
  /-- CHART_LOAD (R344). CHART_CTL LOAD starts verification of a chart image. -/
  | chartLoad (t : Nat) (image : Bytes)
  /-- CHART_VERIFY_DONE (R343). Chart verification ends and the chart takes effect or is rejected. -/
  | chartVerifyDone (t : Nat)
  /-- OVERLAY_APPLY (R345). Command reading, checking and staging an overlay for its named tick. -/
  | overlayApply (t box : Nat) (c : HostCmd)
  /-- OVERLAY_STAGED (R353). An overlay's staged copies are built in every sheet and STAGED is raised. -/
  | overlayStaged (t index : Nat)
  /-- OVERLAY_SWITCH (R348). At B(NAMED_TICK) every structure switches to its staged copy and the epoch advances. -/
  | overlaySwitch (t : Nat)
  /-- REDIRECT_RETIREMENT (R351). At B(S + RETENTION_TICKS) old-epoch redirects pointing at the placement's node
  become NONE. -/
  | redirectRetirement (t : Nat)
  /-- PARTITION_CREATE (R356). Command creating a partition on UNASSIGNED quads. -/
  | partitionCreate (t box : Nat) (c : HostCmd)
  /-- PARTITION_DESTROY (R358). Command destroying a partition and starting its tenant switch. -/
  | partitionDestroy (t box : Nat) (c : HostCmd)
  /-- PARTITION_SCRUB (R361). Command filling the FREE and optionally HOST granules of a partition's quads. -/
  | partitionScrub (t box : Nat) (c : HostCmd)
  /-- QUAD_CLEAR_DONE (R359). On-die clearing of a quad finishes and it becomes SCRUBBING. -/
  | quadClearDone (t quad : Nat)
  /-- OWN (R377). SEC_CMD OWN takes the node to OWNED with the owner's key hashes. -/
  | own (t : Nat) (object : Bytes)
  /-- RETURN (R378). SEC_CMD RETURN revokes keys, scrubs HBM, erases the owner area and enters RETURNED. -/
  | secReturn (t : Nat) (object : Bytes)
  /-- REPROVISION (R377). SEC_CMD REPROVISION returns the node to BLANK. -/
  | reprovision (t : Nat) (object : Bytes)
  /-- DEBUG_TOKEN (R382). SEC_CMD DEBUG_TOKEN verifies a token and raises or extends the debug level. -/
  | debugToken (t : Nat) (object : Bytes)
  /-- DEBUG_LOWER (R385). SEC_CMD DEBUG_LOWER lowers the debug level. -/
  | debugLower (t arg : Nat)
  /-- ADVANCE (R371). SEC_CMD ADVANCE raises a rollback counter to the version in force. -/
  | advance (t arg : Nat)
  /-- TOKEN_EXPIRY (R385). At the first boundary at or after NOT_AFTER the level falls to the free level. -/
  | tokenExpiry (t : Nat)
  /-- GET_VERSION (R372). SPDM request for the supported versions. -/
  | getVersion (t conn : Nat)
  /-- GET_CAPABILITIES (R372). SPDM request for the responder's capabilities. -/
  | getCapabilities (t conn : Nat) (m : SpdmReq)
  /-- NEGOTIATE_ALGORITHMS (R372). SPDM request fixing the algorithms. -/
  | negotiateAlgorithms (t conn : Nat) (m : SpdmReq)
  /-- GET_DIGESTS (R372). SPDM request for certificate chain digests. -/
  | getDigests (t conn : Nat) (m : SpdmReq)
  /-- GET_CERTIFICATE (R372). SPDM request for the slot 0 certificate chain. -/
  | getCertificate (t conn slot offset length : Nat) (m : SpdmReq)
  /-- CHALLENGE (R374). SPDM request answered with a dual-signed CHALLENGE_AUTH. -/
  | challenge (t conn slot measType : Nat) (m : SpdmReq)
  /-- GET_MEASUREMENTS (R373). SPDM request returning the measurement blocks. -/
  | getMeasurements (t conn index slot : Nat) (signed : Bool) (m : SpdmReq)
  /-- KEY_EXCHANGE (R372). SPDM request opening a secured session. -/
  | keyExchange (t conn slot measType : Nat) (m : SpdmReq)
  /-- SPDM_FINISH (R372). SPDM FINISH request completing a secured session handshake. -/
  | spdmFinish (t conn session : Nat) (hmacOk : Bool) (m : SpdmReq)
  /-- HEARTBEAT (R372). SPDM HEARTBEAT request on a session. -/
  | spdmHeartbeat (t conn session : Nat) (m : SpdmReq)
  /-- KEY_UPDATE (R372). SPDM request updating session keys. -/
  | keyUpdate (t conn session op tag : Nat) (m : SpdmReq)
  /-- END_SESSION (R372). SPDM request ending a session. -/
  | endSession (t conn session : Nat) (m : SpdmReq)
  /-- VENDOR_DEFINED_REQUEST (R374). SPDM vendor request returning the HSS signature or carrying CXL IDE_KM. -/
  | vendorDefinedRequest (t conn session vendor code : Nat) (m : SpdmReq)
  /-- PARK (R388). A PWR_CTL PARK write parks or unparks sheets at the next boundary. -/
  | park (t mask : Nat)
  /-- STANDBY (R389). A PWR_CTL STANDBY write enters or leaves Standby. -/
  | standby (t : Nat) (on : Bool)
  /-- OP_LIMIT (R391). A PWR_CFG OP_LIMIT write sets the fastest operating point allowed. -/
  | opLimit (t point : Nat)
  /-- SHEET_DOZE (R387). A sheet with no pass and empty queues dozes for the rest of the tick. -/
  | sheetDoze (t sheet : Nat)
  /-- SHEET_WAKE_DONE (R388). A sheet's cores power up after Park and it admits from the next boundary, or
  WAKE_TIMEOUT is set. -/
  | sheetWakeDone (t sheet : Nat) (inTime : Bool)
  /-- RAIL_SETTLED (R391). Every rail reports settled and the faster clock is switched at the next boundary. -/
  | railSettled (t : Nat)
  /-- RAIL_SETTLE_TIMEOUT (R391). A rail not settled within 1 ms leaves the point unchanged and sets AVS_FAIL. -/
  | railSettleTimeout (t rail : Nat)
  /-- POWER_SAMPLE (R24). Every 1 ms package power is averaged and the power cap lowers or releases the operating
  point. -/
  | powerSample (t watts : Nat)
  /-- EXTEST (R397). TAP instruction selecting the boundary register for external test. -/
  | extest (t : Nat)
  /-- SAMPLE_PRELOAD (R397). TAP instruction sampling or preloading the boundary register. -/
  | samplePreload (t : Nat)
  /-- IDCODE (R398). TAP instruction selecting the identification register. -/
  | idcode (t : Nat)
  /-- CLAMP (R397). TAP instruction holding outputs and selecting bypass. -/
  | clamp (t : Nat)
  /-- HIGHZ (R397). TAP instruction floating outputs and selecting bypass. -/
  | highz (t : Nat)
  /-- DBG_ACCESS (R400). TAP instruction selecting the debug-bus register. -/
  | dbgAccess (t : Nat)
  /-- BYPASS (R397). TAP instruction selecting the bypass register. -/
  | bypass (t : Nat)
  /-- DBG_READ (R401). Debug-bus READ of one word in a space, loading the address counter. -/
  | dbgRead (t space addr : Nat)
  /-- DBG_WRITE (R401). Debug-bus WRITE of one word in a space, loading the address counter. -/
  | dbgWrite (t space addr data : Nat)
  /-- READ_INC (R400). Debug-bus read at the address counter, which then advances by 8. -/
  | readInc (t space : Nat)
  /-- WRITE_INC (R400). Debug-bus write at the address counter, which then advances by 8. -/
  | writeInc (t space data : Nat)
  /-- HALT (R403). DBG_CMD HALT halts the scope at the next boundary. -/
  | halt (t : Nat)
  /-- RESUME (R403). DBG_CMD RESUME ends the halt at the next boundary. -/
  | resume (t : Nat)
  /-- STEP (R403). DBG_CMD STEP runs exactly one tick of admitted work and halts again. -/
  | stepTick (t : Nat)
  /-- HOLD (R406). A received HOLD frame is checked and scheduled for B(TICK), or counted as ignored. -/
  | hold (t port : Nat) (p : Packet)
  /-- RELEASE (R406). A received RELEASE frame schedules the end of a halt at B(TICK). -/
  | release (t port : Nat) (p : Packet)
  /-- HOLD_STEP (R406). A received STEP hold frame schedules a one-tick step at B(TICK). -/
  | holdStep (t port : Nat) (p : Packet)
  /-- HOLD_TICK (R406). At B(TICK) a scheduled hold, release or step is applied to the scope. -/
  | holdTick (t : Nat)
  /-- BREAKPOINT_TIME (R407). A TIME breakpoint halts the scope at the first boundary at or after its MER_NS. -/
  | breakpointTime (t : Nat)
  /-- RESET_LEVEL_1 (R420). RESET_LEVEL 1 resets one queue pair, post box or merge context. -/
  | resetLevel1 (t box : Nat) (c : HostCmd)
  /-- RESET_LEVEL_2 (R420). RESET_LEVEL 2 samples and resets one core. -/
  | resetLevel2 (t box : Nat) (c : HostCmd)
  /-- RESET_LEVEL_3 (R421). RESET_LEVEL 3 resets the work and state of one partition. -/
  | resetLevel3 (t box : Nat) (c : HostCmd)
  /-- RESET_LEVEL_4 (R422). RESET_LEVEL 4 resets node compute and warm-restarts. -/
  | resetLevel4 (t box : Nat) (c : HostCmd)
  /-- RESET_LEVEL_5 (R423). RESET_LEVEL 5 requests a power cycle of the whole node. -/
  | resetLevel5 (t box : Nat) (c : HostCmd)
  /-- RST_CTL_GO (R432). RST_CTL GO starts a level-4 or level-5 reset at the next boundary. -/
  | rstCtlGo (t level : Nat)
  /-- NODE_RESET (R423). NODE_RESET_N low resets the node as level 5 with power applied. -/
  | nodeReset (t : Nat) (low : Bool)
  /-- FATAL_ERROR (R412). A FATAL error stops admission, alerts the tray and sends automatic ABORTs. -/
  | fatalError (t source sheet link : Nat)
  /-- FATAL_RESET_DELAY (R412). After FATAL_DELAY_MS the node starts its automatic level-4 or level-5 reset. -/
  | fatalResetDelay (t : Nat)
  /-- SHEET_HANG (R414). A sheet missing two consecutive boundary reports is a FATAL hang. -/
  | sheetHang (t sheet : Nat)
  /-- HUB_WATCHDOG (R414). A lapse of the 100 ms hub watchdog is a hub FATAL error. -/
  | hubWatchdog (t : Nat)
  /-- RESET_ESCALATION (R424). A level 4 not complete within 2 s or hit by another FATAL escalates to level 5. -/
  | resetEscalation (t : Nat)
  /-- WARM_RESTART_DONE (R461). The warm restart completes and the first admitting boundary follows. -/
  | warmRestartDone (t quads : Nat)
  /-- ABORT_SEND (R426). ERR_ABORT_CTL SEND sends an ABORT to the distribution list and applies it locally. -/
  | abortSend (t : Nat)
  /-- ABORT (R427). A received ABORT opens an abort window and aborts matching shares at the next boundary. -/
  | abort (t port : Nat) (p : Packet)
  /-- ABORT_WINDOW_END (R427). At UNTIL an abort window stops refusing matching letters. -/
  | abortWindowEnd (t : Nat)
  /-- RELEASE_ALL (R431). ERR_DUMP_CTL write emptying every crash dump slot. -/
  | releaseAll (t : Nat)
  /-- RELEASE_ONE (R431). ERR_DUMP_CTL write emptying the crash dump slot of one core. -/
  | releaseOne (t : Nat)
  /-- EYE_MONITOR_SAMPLE (R433). Every 1 s each UP lane's eye height and width are measured. -/
  | eyeMonitorSample (t port lane height width : Nat)
  /-- UCIE_MARGIN_SAMPLE (R433). Every 10 s each UCIe lane's margin is measured. -/
  | ucieMarginSample (t ucie lane margin : Nat)
  /-- GUARD_BAND_SAMPLE (R433). Each 1 ms the lowest voltage guard band of each quad is kept and checked. -/
  | guardBandSample (t quad lowest : Nat)
  /-- SURVEY_RECORD (R436). A record formed at its source reaches the hub, takes a SEQ and goes to its destinations. -/
  | surveyRecord (t : Nat)
  /-- BUCKET_REFILL (R439). Each Meridian millisecond every class bucket refills and a pending drop summary is
  written. -/
  | bucketRefill (t : Nat)
  /-- ALARM_FRAME (R440). A received ALARM frame from the alarm list is written to the ring or dropped. -/
  | alarmFrame (t port : Nat) (p : Packet)
  /-- ALERT_CLEAR (R440). Writing 1 to SVY_STATUS ALERT releases TRAY_ALERT_N. -/
  | alertClear (t : Nat)
  /-- RING_READ_ADVANCE (R441). A write of SVY_RING_IDX READ consumes log ring records within the bound. -/
  | ringReadAdvance (t value : Nat)
  /-- KAT_DUE (R442). At its due tick a core pair's known-answer test is scheduled. -/
  | katDue (t core : Nat)
  /-- KAT_COMPLETE (R443). A known-answer test's digest is compared with ROM, with failures counted and fencing. -/
  | katComplete (t core digest : Nat)
  /-- HISTOGRAM_FLUSH (R445). Every 10 minutes the hub writes the lifetime histograms to MRAM. -/
  | histogramFlush (t : Nat)
  /-- FLUSH (R445). SVY_CTL FLUSH writes the histograms to MRAM. -/
  | flush (t : Nat)
  /-- SURVEY_READ (R446). Command copying histogram or log entries to a host buffer. -/
  | surveyRead (t box : Nat) (c : HostCmd)
  /-- SURVEY_READ_DONE (R446). The 200 MB/s copy of SURVEY_READ finishes and the command completes. -/
  | surveyReadDone (t : Nat)
  /-- GETTID (R448). PLDM GetTID request. -/
  | getTid (t : Nat)
  /-- GETPLDMVERSION (R448). PLDM GetPLDMVersion request. -/
  | getPldmVersion (t pldmType : Nat)
  /-- GETPLDMTYPES (R448). PLDM GetPLDMTypes request. -/
  | getPldmTypes (t : Nat)
  /-- GETPLDMCOMMANDS (R448). PLDM GetPLDMCommands request. -/
  | getPldmCommands (t pldmType : Nat)
  /-- GETPDR (R448). PLDM GetPDR request. -/
  | getPdr (t handle : Nat)
  /-- GETSENSORREADING (R448). PLDM numeric sensor reading request. -/
  | getSensorReading (t sensor : Nat)
  /-- GETSTATESENSORREADINGS (R448). PLDM state sensor reading request. -/
  | getStateSensorReadings (t sensor : Nat)
  /-- SETEVENTRECEIVER (R448). PLDM request naming the receiver of ALARM events. -/
  | setEventReceiver (t eid : Nat)
  /-- SETNUMERICEFFECTERVALUE (R448). PLDM request setting a granted numeric effecter at the next boundary. -/
  | setNumericEffecterValue (t effecter value : Nat)
  /-- SETSTATEEFFECTERSTATES (R448). PLDM request setting a granted state effecter at the next boundary. -/
  | setStateEffecterStates (t effecter value : Nat)
  /-- POWER_GOOD_RISE (R453). PWR_GOOD rising starts the cold start with the hub ROM reading slot A. -/
  | powerGoodRise (t : Nat)
  /-- FIRMWARE_VERIFIED (R452). The ROM finishes verifying a firmware slot and runs it, tries slot B, or stays in ROM. -/
  | firmwareVerified (t ms : Nat) (image : Option Bytes)
  /-- UNSEAL_DONE (R454). The device secret is reconstructed, MRAM unsealed and rollback checked, and firmware runs. -/
  | unsealDone (t ms : Nat) (pufOk ownerOk stateOk : Bool)
  /-- SHEET_POWER_UP (R455). Sheets are powered 10 ms apart and each sheet's rails settle or stop the start-up. -/
  | sheetPowerUp (t ms sheet : Nat) (railsOk linksOk : Bool)
  /-- HBM_TRAINED (R453). Every HBM channel finishes training and each stack is ONLINE or OFFLINE. -/
  | hbmTrained (t : Nat) (x : Trained)
  /-- HBM_INIT_DONE (R456). The initialisation FILL completes and the granule maps are rebuilt. -/
  | hbmInitDone (t ms : Nat) (failed : List Nat)
  /-- SYSTEM_LAYOUT_DONE (R457). The system structures sized by the chart are laid out. -/
  | systemLayoutDone (t ms : Nat)
  /-- READY_TIMEOUT (R459). READY not reached 5 s after PWR_GOOD writes a FAULT record. -/
  | readyTimeout (t : Nat)
  /-- POWER_OFF (R469). PWR_GOOD falling drives every AVS_EN low and the node is Off. -/
  | powerOff (t : Nat)
  /-- THERMTRIP (R476). A quad, hub or stack reaching its trip temperature drives THERMTRIP_N low. -/
  | thermtrip (t sensor celsius : Nat)
  /-- CORE_FENCE (R114). CORE_CTL FENCE fences a core at the next boundary. -/
  | coreFence (t core : Nat)
  /-- UNFENCE (R114). CORE_CTL UNFENCE clears a core's fence and ABFT_RUN at the next boundary. -/
  | unfence (t core : Nat)
  /-- CORE_CLEAR_CNT (R118). CORE_CTL CLEAR_CNT clears every CORE_ counter. -/
  | coreClearCnt (t core : Nat)
  /-- SO_CLEAR_CNT (R140). SO_CTL CLEAR_CNT clears every SO_ counter. -/
  | soClearCnt (t sheet : Nat)
  /-- DEMOTE_ALL (R139). SO_CTL DEMOTE_ALL drops every tier-0 copy on the sheet. -/
  | demoteAll (t sheet : Nat)
  /-- XL_CLEAR_CNT (R187). XL_CTL CLEAR_CNT clears every XL_ counter. -/
  | xlClearCnt (t sheet : Nat)
  /-- FLUSH_RC (R187). XL_CTL FLUSH_RC invalidates the sheet's route and walk caches. -/
  | flushRc (t sheet : Nat)
  /-- MIG_CLEAR_CNT (R212). MIG_CTL CLEAR_CNT clears every MIG_ counter. -/
  | migClearCnt (t quad : Nat)
  /-- PAUSE (R212). A MIG_CTL PAUSE write stops or resumes policy swap-outs and drops on the quad. -/
  | pause (t quad : Nat) (on : Bool)
  /-- HBM_CLEAR_CNT (R226). HBM_CTL CLEAR_CNT clears HBM_ERR_CNT and HBM_RFM_CNT. -/
  | hbmClearCnt (t quad : Nat)
  /-- PATROL_NOW (R226). HBM_CTL PATROL_NOW starts a patrol pass. -/
  | patrolNow (t quad : Nat)
  /-- NME_CLEAR_CNT (R226). NME_CTL CLEAR_CNT clears every NME_ counter. -/
  | nmeClearCnt (t quad : Nat)
  /-- GZ_CLEAR_CNT (R244). GZ_CTL CLEAR_CNT clears every GZ_ counter. -/
  | gzClearCnt (t sheet : Nat)
  /-- PORT_CLEAR_CNT (R271). PORT_CTL CLEAR_CNT clears every counter of a port. -/
  | portClearCnt (t port : Nat)
  /-- RETRAIN (R247). PORT_CTL RETRAIN retrains a port at the widest width its lanes allow. -/
  | retrain (t port : Nat)
  /-- REKEY (R268). PORT_CTL REKEY starts a rekey at once. -/
  | rekey (t port : Nat)
  /-- CR_CLEAR_CNT (R299). CR_CTL CLEAR_CNT clears every CR_ counter. -/
  | crClearCnt (t sheet : Nat)
  /-- POOL_CLEAR_CNT (R339). POOL_CTL CLEAR_CNT clears every POOL_ counter. -/
  | poolClearCnt (t : Nat)
  /-- SVY_CLEAR_CNT (R449). SVY_CTL CLEAR_CNT clears every SVY_ counter. -/
  | svyClearCnt (t : Nat)
  /-- KEY_EXCHANGE_RETRY (R267). One second after a failed key exchange the port sends a new HELLO and tries again. -/
  | keyExchangeRetry (t port peer : Nat)
  /-- DELAY_REQUEST_SEND (R32). On a switched port the node sends its end-to-end delay request or peer-to-peer delay
  request for the chosen delay mechanism. -/
  | delayRequestSend (t port : Nat)
  /-- THERMTRIP_RELEASE (R476). THERMTRIP_N is released once PWR_GOOD is low and every sensor reads below 95 °C. -/
  | thermtripRelease (t : Nat)
  /-- LOWER_TREE_GENERATED (R375). Generation of the next lower HSS tree, started while the present tree still has at
  least 256 leaves, completes within 20 ms. -/
  | lowerTreeGenerated (t : Nat)
  /-- CORE_PATH_SCRUB_DONE (R225). On a part without the engine, the zero fill over the core write path completes and
  the quad or extent moves on, to UNASSIGNED or FREE for example. -/
  | corePathScrubDone (t op : Nat)
  /-- LOW_HALF_READ (R56). A 32-bit read of the low half of TICK_NOW or MER_NOW latches the high half, and for MER_NOW
  also MER_NOW_FRAC, until the next low-half read. -/
  | lowHalfRead (t addr : Nat)
  deriving DecidableEq, Repr, Inhabited

end Sys2Proof
end

