-- ==== Sys2Proof/Decode.lean ====
section
/-!
DEFINITION. The table of commands gives no row bits: commands arrive as operations of the host port, the fabric, the
debug port and the node's own timers, not as words. No word spells one.
-/

namespace Sys2Proof

/-- The command a word of the table's bits spells: none, since the table gives no row bits (log entry 3). -/
def decodeTableWord (_nbits _w : Nat) : Option Instr := none

end Sys2Proof
end

