-- ==== Sys2Proof/Config.lean ====
section
/-!
DEFINITION. What the spec leaves open or fixes outside the node, as constants without a body: nothing can be proved of
their values, so a statement that holds here holds for every value (log entries 5 and 6).
-/

namespace Sys2Proof.Config

/-- A value the spec leaves undefined, unspecified or random, applied to the model's counter of such values. -/
opaque freeValue : Nat → BitVec 64

/-- The value SEC_NONCE takes at its n-th change: random (R377). -/
opaque secNonce : Nat → BitVec 64

/-- SHA-384 of the vendor's ECDSA public key and of its LMS public key, in the hub ROM (R370). -/
opaque vendorEcdsa : Nat
opaque vendorLms : Nat

/-- ECDSA P-384 with SHA-384: does a signature verify under a public key over a message (R369, R370)? -/
opaque ecdsaVerify : (pubkey signature message : Bytes) → Bool

/-- LMS: does a signature verify under a public key over a message (R369, R370)? -/
opaque lmsVerify : (pubkey signature message : Bytes) → Bool

/-- SHA-384 of the hub ROM, measurement 1 (R373). -/
opaque romDigest : Bytes

/-- The device identity certificate chain of SPDM slot 0 and of HELLO: its last certificate is the alias certificate, whose
key changes with the measurement of the hub firmware (R267, R367). -/
opaque certChain : (firmware : Bytes) → Bytes

/-- Does a certificate chain lead to the trust anchor with this SHA-384 (R267, R347)? -/
opaque chainTrusted : (anchor chain : Bytes) → Bool

/-- The bytes of a HELLO with the given contents, which the spec names without a layout: certificate chain, public key,
32 random bytes; postcode, mode, stacking order (R267). -/
opaque helloBody : (chain pubkey random : Bytes) → (postcode mode order : Nat) → Bytes

/-- Does a FINISH signature verify under the key of a chain's last certificate, over H (R267)? -/
opaque finishVerify : (chain signature hash : Bytes) → Bool

/-- The node's own fresh P-384 public key and 32 random bytes of its n-th HELLO (R267). -/
opaque helloKey : Nat → Bytes
opaque helloRandom : Nat → Bytes

/-- The alias key's ECDSA signature over a hash, under the measurement of the hub firmware in force: SPDM responses and
FINISH (R267, R367, R374). -/
opaque aliasSign : (firmware hash : Bytes) → Bytes

/-- The ECDH shared secret of the node's n-th ephemeral key and a peer's public key (R267). -/
opaque ecdh : Nat → Bytes → Bytes

/-- The attestation key's HSS signature with an index over a message hash (R374, R375). -/
opaque hssSign : Nat → Bytes → Bytes

/-- The body of an SPDM answer as DSP0274 lays it out; the spec names the messages and their contents, not their
bytes (R372). -/
opaque spdmBody : (code version : Nat) → Bytes → Bytes

/-- Do the algorithms an SPDM requester offers hold the set of R372? -/
opaque spdmAlgorithmsOk : Bytes → Bool

/-- The body of a time-exchange or PTP message with the given contents: the spec names what such a message carries, not
its bytes (R30 to R32). -/
opaque timeBody : List Nat → Bytes

/-- The fields read from the body of a received time-exchange message, in the order `timeBody` takes them (R30, R31). -/
opaque timeFields : Bytes → List Nat

/-- The PTYPE in the Opward header of a KEYX frame, which the table Payload types does not give (R250, R253). -/
opaque keyxType : Nat

/-- The record of the sequence directory that the search for a handle starts at (R174 gives an open-addressed table and no
hash function). -/
opaque dirSlot : (seq : Nat) → Nat

/-- The route cache set that a partition's slot falls in (R178 gives eight ways and no index function). -/
opaque routeSet : (partition leafKey : Nat) → Nat

end Sys2Proof.Config
end

