-- ==== Sys2Proof/Machine/Maps.lean ====
section
/-!
DEFINITION. Reading and writing sparse maps, and the list helpers every layer shares.

A map lists only what differs from the default, keys strictly rising, so two maps that read alike are equal
data. Memory, the register file and every indexed piece of state are such maps.
-/

namespace Sys2Proof.Machine

variable {α : Type}

/-- The entry stored under a key, if the map lists one. -/
def mapFind? : Map α → Nat → Option α
  | [], _ => none
  | (k', v) :: m, k => if k = k' then some v else mapFind? m k

/-- What the map reads under a key: the listed entry, else the given default. -/
def mapGetD (d : α) (m : Map α) (k : Nat) : α := (mapFind? m k).getD d

/-- What the map reads under a key: the listed entry, else the type's default. -/
def mapGet [Inhabited α] (m : Map α) (k : Nat) : α := mapGetD default m k

/-- Remove a key. -/
def mapErase : Map α → Nat → Map α
  | [], _ => []
  | (k', v) :: m, k => if k = k' then mapErase m k else (k', v) :: mapErase m k

/-- List an entry in key order, replacing one already there. -/
def mapInsert : Map α → Nat → α → Map α
  | [], k, v => [(k, v)]
  | (k', v') :: m, k, v =>
    if k < k' then (k, v) :: (k', v') :: m
    else if k = k' then (k, v) :: m
    else (k', v') :: mapInsert m k v

/-- Write under a key, keeping the canonical form for the given default. -/
def mapSetD [DecidableEq α] (d : α) (m : Map α) (k : Nat) (v : α) : Map α :=
  if v = d then mapErase m k else mapInsert m k v

/-- Write under a key, keeping the canonical form. -/
def mapSet [Inhabited α] [DecidableEq α] (m : Map α) (k : Nat) (v : α) : Map α := mapSetD default m k v

/-- Change what stands under a key. -/
def mapMod [Inhabited α] [DecidableEq α] (m : Map α) (k : Nat) (f : α → α) : Map α :=
  mapSet m k (f (mapGet m k))

/-- The keys listed. -/
def mapKeys (m : Map α) : List Nat := m.map Prod.fst

/-- Change every listed entry by a rule that may look at the key, dropping what becomes the default. -/
def mapAll [Inhabited α] [DecidableEq α] (f : Nat → α → α) (m : Map α) : Map α :=
  (m.map fun p => (p.1, f p.1 p.2)).filter fun p => p.2 ≠ default

/-- Keep only the entries a test accepts. -/
def mapKeep (t : Nat → α → Bool) (m : Map α) : Map α := m.filter fun p => t p.1 p.2

/-- The keys of a map rise strictly. -/
def keysRise : Map α → Bool
  | [] => true
  | [_] => true
  | (k, _) :: (k', v') :: m => decide (k < k') && keysRise ((k', v') :: m)

/-- The canonical form of a map: keys strictly rising and no entry equal to the default. -/
def mapWf [DecidableEq α] (d : α) (m : Map α) : Bool :=
  keysRise m && m.all fun p => decide (p.2 ≠ d)

/-- Run a state change over a list, left to right. -/
def forEach {σ β : Type} (l : List β) (s : σ) (f : σ → β → σ) : σ := l.foldl f s

/-- A list of numbers filled up with zeros to a length. -/
def padNat (k : Nat) (l : List Nat) : List Nat := l ++ List.replicate (k - l.length) 0

/-- The sum of a list. -/
def listSum (l : List Nat) : Nat := l.foldl (· + ·) 0

/-- The bits `lo .. lo+w-1` of a number. -/
def bits (n lo w : Nat) : Nat := n / 2 ^ lo % 2 ^ w

/-- One bit of a number. -/
def bitAt (n i : Nat) : Bool := n / 2 ^ i % 2 == 1

/-- A number with its bits `lo .. lo+w-1` replaced. -/
def putBits (n lo w v : Nat) : Nat :=
  n - bits n lo w * 2 ^ lo + v % 2 ^ w * 2 ^ lo

/-- 1 for true. -/
def b2n (b : Bool) : Nat := if b then 1 else 0

/-- Quotient rounded up. -/
def ceilDiv (a b : Nat) : Nat := if b = 0 then 0 else (a + b - 1) / b

/-- The number a little-endian byte string spells (every field of the spec is little-endian). -/
def leNat : Bytes → Nat
  | [] => 0
  | b :: bs => b.toNat + 256 * leNat bs

/-- The `n` bytes of a number, least significant first. -/
def leBytes : Nat → Nat → Bytes
  | 0, _ => []
  | n + 1, v => BitVec.ofNat 8 v :: leBytes n (v / 256)

/-- The little-endian field of `n` bytes at an offset; bytes past the end read as zero. -/
def leAt (bs : Bytes) (off n : Nat) : Nat := leNat ((bs.drop off).take n)

/-- A byte string cut to a length, or filled with zeros up to it. -/
def padTo (n : Nat) (bs : Bytes) : Bytes := bs.take n ++ List.replicate (n - bs.length) 0

/-- The indices below `n`. -/
def upTo (n : Nat) : List Nat := List.range n

/-- The `n` indices from `a`. -/
def span (a n : Nat) : List Nat := (List.range n).map (a + ·)

/-- A list cut into pieces of `n` (the last may be short), at most `fuel` pieces. -/
def chunks {β : Type} (n : Nat) : Nat → List β → List (List β)
  | 0, _ => []
  | _, [] => []
  | fuel + 1, l => l.take n :: chunks n fuel (l.drop n)

/-- Signed difference of two numbers of `w` bits as an integer (the spec compares wrapping counters so). -/
def sdiff (w a b : Nat) : Int :=
  let d := (a % 2 ^ w + 2 ^ w - b % 2 ^ w) % 2 ^ w
  if d < 2 ^ (w - 1) then (d : Int) else (d : Int) - (2 ^ w : Nat)

/-- A two's complement number of `w` bits read as an integer. -/
def asSigned (w v : Nat) : Int :=
  let v := v % 2 ^ w
  if v < 2 ^ (w - 1) then (v : Int) else (v : Int) - (2 ^ w : Nat)

/-- An integer cut to `w` bits of two's complement. -/
def toUnsigned (w : Nat) (i : Int) : Nat := (i % (2 ^ w : Nat)).toNat

/-- A list sorted by a key, equal keys left in their order. -/
def sortOn {β : Type} (key : β → Nat) (l : List β) : List β :=
  l.foldr ins []
where
  ins (x : β) : List β → List β
    | [] => [x]
    | y :: ys => if key x ≤ key y then x :: y :: ys else y :: ins x ys

/-- Exclusive or of two bytes strings, as long as the shorter. -/
def xorBytes (a b : Bytes) : Bytes := List.zipWith (· ^^^ ·) a b

end Sys2Proof.Machine
end

