-- ==== Sys2Proof/Machine/Regs.lean ====
section
/-!
DEFINITION. The control-window registers, field by field, as the register tables of the spec lay them out
(R6, R7 and the register rules R56, R118, R140, R187, R212, R226, R244, R271, R299, R325 to R328, R339, R354, R366,
R394, R395, R431, R432, R449, R463).

A field's address is relative to its window: the whole of BAR0 for a hub register, else the window of the sheet,
quad, core, port or post box it belongs to; an indexed register adds its index times the stride.
-/

namespace Sys2Proof.Machine

/-- How software may use a register field (R6). -/
inductive Acc where
  | ro | rw | w1c | w1s | wo
  deriving DecidableEq, Repr

/-- One register field: its register's byte address in its window, its lowest bit and width, its access and its
reset value. -/
structure Fld where
  addr : Nat
  lo : Nat
  width : Nat
  acc : Acc
  reset : Nat
  deriving DecidableEq, Repr

/-- One register of a window: its address, the stride and count of its copies, and its fields. -/
structure RegRow where
  addr : Nat
  stride : Nat
  count : Nat
  flds : List Fld
  deriving DecidableEq, Repr

end Sys2Proof.Machine

namespace Sys2Proof.Machine.R

/-! ID_PART (R4) -/
def ID_PART_PART_CODE : Fld := ⟨0x0, 0, 16, .ro, 0⟩
def ID_PART_STEPPING : Fld := ⟨0x0, 16, 8, .ro, 0⟩
/-! CAP_UNITS (R4) -/
def CAP_UNITS_FOLD : Fld := ⟨0x8, 0, 1, .ro, 0⟩
def CAP_UNITS_GZ_CONTENT : Fld := ⟨0x8, 1, 1, .ro, 0⟩
def CAP_UNITS_NME : Fld := ⟨0x8, 2, 1, .ro, 0⟩
def CAP_UNITS_SHEETS : Fld := ⟨0x8, 8, 4, .ro, 0⟩
def CAP_UNITS_QUADS : Fld := ⟨0x8, 12, 6, .ro, 0⟩
/-! TICK_PERIOD (R56) -/
def TICK_PERIOD_PERIOD_NS : Fld := ⟨0x10000, 0, 20, .ro, 0⟩
/-! TICK_ORIGIN (R56) -/
def TICK_ORIGIN_ORIGIN_NS : Fld := ⟨0x10008, 0, 64, .ro, 0⟩
/-! TICK_NOW (R56) -/
def TICK_NOW_NUMBER : Fld := ⟨0x10010, 0, 48, .ro, 0⟩
def TICK_NOW_RUNNING : Fld := ⟨0x10010, 63, 1, .ro, 0⟩
/-! TICK_BUDGET (R56) -/
def TICK_BUDGET_CYCLES : Fld := ⟨0x10018, 0, 21, .ro, 0⟩
/-! TICK_OVERRUN_CNT (R56) -/
def TICK_OVERRUN_CNT_COUNT : Fld := ⟨0x10020, 0, 32, .ro, 0⟩
/-! TICK_STATUS (R56) -/
def TICK_STATUS_OVERRUN : Fld := ⟨0x10028, 0, 1, .w1c, 0⟩
def TICK_STATUS_PARAM_MISMATCH : Fld := ⟨0x10028, 1, 1, .w1c, 0⟩
def TICK_STATUS_PERIOD_CHANGED : Fld := ⟨0x10028, 2, 1, .w1c, 0⟩
/-! MER_NOW (R56) -/
def MER_NOW_NS : Fld := ⟨0x10100, 0, 64, .ro, 0⟩
/-! MER_NOW_FRAC (R56) -/
def MER_NOW_FRAC_FRAC : Fld := ⟨0x10108, 0, 16, .ro, 0⟩
/-! MER_STATE (R56) -/
def MER_STATE_STATE : Fld := ⟨0x10110, 0, 3, .ro, 0⟩
def MER_STATE_ROLE : Fld := ⟨0x10110, 3, 3, .ro, 0⟩
def MER_STATE_UPSTREAM_PORT : Fld := ⟨0x10110, 8, 4, .ro, 0⟩
def MER_STATE_ALTERNATE : Fld := ⟨0x10110, 12, 2, .ro, 0⟩
def MER_STATE_FREQ_SRC : Fld := ⟨0x10110, 14, 2, .ro, 0⟩
def MER_STATE_FABCLK_SEL : Fld := ⟨0x10110, 16, 2, .ro, 0⟩
/-! MER_OFFSET (R56) -/
def MER_OFFSET_OFFSET : Fld := ⟨0x10118, 0, 32, .ro, 0⟩
/-! MER_ERR_EST (R56) -/
def MER_ERR_EST_ERR_NS : Fld := ⟨0x10120, 0, 16, .ro, 65535⟩
def MER_ERR_EST_HOPS : Fld := ⟨0x10120, 16, 8, .ro, 0⟩
/-! MER_GUARD (R56) -/
def MER_GUARD_CHART_NS : Fld := ⟨0x10128, 0, 16, .ro, 0⟩
def MER_GUARD_EFFECTIVE_NS : Fld := ⟨0x10128, 16, 16, .ro, 0⟩
/-! MER_HOLDOVER (R56) -/
def MER_HOLDOVER_LIMIT_NS : Fld := ⟨0x10130, 0, 16, .ro, 0⟩
def MER_HOLDOVER_ELAPSED_MS : Fld := ⟨0x10130, 16, 16, .ro, 0⟩
/-! MER_PPS_CFG (R56) -/
def MER_PPS_CFG_OUT_EN : Fld := ⟨0x10138, 0, 1, .rw, 0⟩
def MER_PPS_CFG_IN_USED : Fld := ⟨0x10138, 1, 1, .ro, 0⟩
/-! MER_EVENTS (R56) -/
def MER_EVENTS_STEPS : Fld := ⟨0x10140, 0, 16, .ro, 0⟩
def MER_EVENTS_HOLDOVERS : Fld := ⟨0x10140, 16, 16, .ro, 0⟩
/-! MER_STATUS (R56) -/
def MER_STATUS_LOST_UPSTREAM : Fld := ⟨0x10148, 0, 1, .w1c, 0⟩
def MER_STATUS_UNLOCKED_ENTERED : Fld := ⟨0x10148, 1, 1, .w1c, 0⟩
def MER_STATUS_STEPPED : Fld := ⟨0x10148, 2, 1, .w1c, 0⟩
def MER_STATUS_PPS_MISSING : Fld := ⟨0x10148, 3, 1, .w1c, 0⟩
def MER_STATUS_SKEW_EXCEEDED : Fld := ⟨0x10148, 4, 1, .w1c, 0⟩
/-! ID_SERIAL (R325) -/
def ID_SERIAL_SERIAL : Fld := ⟨0x10, 0, 64, .ro, 0⟩
/-! ID_POSTCODE (R325) -/
def ID_POSTCODE_POSTCODE : Fld := ⟨0x18, 0, 32, .ro, 0⟩
def ID_POSTCODE_VALID : Fld := ⟨0x18, 32, 1, .ro, 0⟩
/-! CAP_HOST (R325) -/
def CAP_HOST_POST_BOXES : Fld := ⟨0x20, 0, 13, .ro, 4096⟩
def CAP_HOST_MODULES : Fld := ⟨0x20, 16, 3, .ro, 4⟩
def CAP_HOST_DIR_LINES : Fld := ⟨0x20, 24, 24, .ro, 8388608⟩
/-! HP_STATUS (R326) -/
def HP_STATUS_LINK : Fld := ⟨0x60000, 0, 1, .ro, 0⟩
def HP_STATUS_MODULES : Fld := ⟨0x60000, 1, 4, .ro, 0⟩
def HP_STATUS_IDE_ON : Fld := ⟨0x60000, 5, 1, .ro, 0⟩
def HP_STATUS_HOST : Fld := ⟨0x60000, 6, 2, .ro, 0⟩
def HP_STATUS_MISSED : Fld := ⟨0x60000, 8, 2, .ro, 0⟩
def HP_STATUS_RATE : Fld := ⟨0x60000, 10, 6, .ro, 0⟩
/-! HP_CFG (R326) -/
def HP_CFG_PERIOD_MS : Fld := ⟨0x60008, 0, 10, .ro, 0⟩
def HP_CFG_ORPHAN : Fld := ⟨0x60008, 10, 1, .ro, 0⟩
/-! HP_HEARTBEAT (R326) -/
def HP_HEARTBEAT_BEAT : Fld := ⟨0x60010, 0, 64, .wo, 0⟩
/-! HP_HB_CNT (R326) -/
def HP_HB_CNT_BEATS : Fld := ⟨0x60018, 0, 32, .ro, 0⟩
def HP_HB_CNT_MISSES : Fld := ⟨0x60018, 32, 16, .ro, 0⟩
def HP_HB_CNT_FAILURES : Fld := ⟨0x60018, 48, 16, .ro, 0⟩
/-! HP_CTL (R326) -/
def HP_CTL_ADOPT : Fld := ⟨0x60020, 0, 1, .wo, 0⟩
/-! HP_T3_BASE (R326) -/
def HP_T3_BASE_BASE : Fld := ⟨0x60028, 12, 52, .rw, 0⟩
/-! HP_T3_SIZE (R326) -/
def HP_T3_SIZE_GRANULES : Fld := ⟨0x60030, 0, 31, .rw, 0⟩
def HP_T3_SIZE_EN : Fld := ⟨0x60030, 63, 1, .rw, 0⟩
/-! HP_NOTICE_BASE (R326) -/
def HP_NOTICE_BASE_BASE : Fld := ⟨0x60038, 0, 64, .rw, 0⟩
/-! HP_NOTICE_IDX (R326) -/
def HP_NOTICE_IDX_LOG2 : Fld := ⟨0x60040, 0, 4, .rw, 0⟩
def HP_NOTICE_IDX_EN : Fld := ⟨0x60040, 4, 1, .rw, 0⟩
def HP_NOTICE_IDX_TAIL : Fld := ⟨0x60040, 16, 24, .ro, 0⟩
def HP_NOTICE_IDX_FREE : Fld := ⟨0x60040, 40, 24, .rw, 0⟩
/-! HP_ERR_STATUS (R326) -/
def HP_ERR_STATUS_LINK_DOWN : Fld := ⟨0x60048, 0, 1, .w1c, 0⟩
def HP_ERR_STATUS_MODULE_DOWN : Fld := ⟨0x60048, 1, 1, .w1c, 0⟩
def HP_ERR_STATUS_HB_MISSED : Fld := ⟨0x60048, 2, 1, .w1c, 0⟩
def HP_ERR_STATUS_HOST_FAILED : Fld := ⟨0x60048, 3, 1, .w1c, 0⟩
def HP_ERR_STATUS_HDM_HOLE : Fld := ⟨0x60048, 4, 1, .w1c, 0⟩
def HP_ERR_STATUS_WRITE_DENIED : Fld := ⟨0x60048, 5, 1, .w1c, 0⟩
def HP_ERR_STATUS_BAD_ACCESS : Fld := ⟨0x60048, 6, 1, .w1c, 0⟩
def HP_ERR_STATUS_REPLY_DROP : Fld := ⟨0x60048, 7, 1, .w1c, 0⟩
/-! HP_ERR_INFO (R326) -/
def HP_ERR_INFO_TICK : Fld := ⟨0x60050, 0, 48, .ro, 0⟩
def HP_ERR_INFO_KIND : Fld := ⟨0x60050, 48, 3, .ro, 0⟩
/-! HP_ERR_ADDR (R326) -/
def HP_ERR_ADDR_ADDR : Fld := ⟨0x60058, 0, 64, .ro, 0⟩
/-! DIR_CFG (R327) -/
def DIR_CFG_RECALL_TIMEOUT_US : Fld := ⟨0x60800, 0, 14, .ro, 0⟩
/-! DIR_STATUS (R327) -/
def DIR_STATUS_USED : Fld := ⟨0x60808, 0, 24, .ro, 0⟩
def DIR_STATUS_EM : Fld := ⟨0x60808, 32, 24, .ro, 0⟩
/-! DIR_CNT (R327) -/
def DIR_CNT_RECALLS : Fld := ⟨0x60810, 0, 32, .ro, 0⟩
def DIR_CNT_SNOOPS : Fld := ⟨0x60810, 32, 32, .ro, 0⟩
/-! DIR_ERR_STATUS (R327) -/
def DIR_ERR_STATUS_RECALL_TIMEOUT : Fld := ⟨0x60818, 0, 1, .w1c, 0⟩
def DIR_ERR_STATUS_FAILURE_POISON : Fld := ⟨0x60818, 1, 1, .w1c, 0⟩
def DIR_ERR_STATUS_PARITY : Fld := ⟨0x60818, 2, 1, .w1c, 0⟩
/-! DIR_ERR_ADDR (R327) -/
def DIR_ERR_ADDR_ADDR : Fld := ⟨0x60820, 0, 41, .ro, 0⟩
def DIR_ERR_ADDR_POISONED : Fld := ⟨0x60820, 48, 16, .ro, 0⟩
/-! POOL_CAP (R339) -/
def POOL_CAP_EXTENTS : Fld := ⟨0x70000, 0, 13, .ro, 4096⟩
/-! POOL_CFG (R339) -/
def POOL_CFG_LEASE_DEFAULT_MS : Fld := ⟨0x70008, 0, 16, .ro, 0⟩
/-! POOL_STATUS (R339) -/
def POOL_STATUS_GRANTED : Fld := ⟨0x70010, 0, 13, .ro, 0⟩
def POOL_STATUS_CLOSING : Fld := ⟨0x70010, 16, 13, .ro, 0⟩
def POOL_STATUS_GRANULES : Fld := ⟨0x70010, 32, 32, .ro, 0⟩
/-! POOL_CNT (R339) -/
def POOL_CNT_GRANTS : Fld := ⟨0x70018, 0, 32, .ro, 0⟩
def POOL_CNT_RENEWALS : Fld := ⟨0x70018, 32, 32, .ro, 0⟩
/-! POOL_WD_CNT (R339) -/
def POOL_WD_CNT_BY_COMMAND : Fld := ⟨0x70020, 0, 16, .ro, 0⟩
def POOL_WD_CNT_BY_EXPIRY : Fld := ⟨0x70020, 16, 16, .ro, 0⟩
def POOL_WD_CNT_BY_OTHER : Fld := ⟨0x70020, 32, 16, .ro, 0⟩
def POOL_WD_CNT_RENEW_REFUSED : Fld := ⟨0x70020, 48, 16, .ro, 0⟩
/-! POOL_ERR_STATUS (R339) -/
def POOL_ERR_STATUS_EXPIRED : Fld := ⟨0x70028, 0, 1, .w1c, 0⟩
def POOL_ERR_STATUS_RENEW_REFUSED : Fld := ⟨0x70028, 1, 1, .w1c, 0⟩
def POOL_ERR_STATUS_SCRUB_STALLED : Fld := ⟨0x70028, 2, 1, .w1c, 0⟩
/-! POOL_ERR_INFO (R339) -/
def POOL_ERR_INFO_TICK : Fld := ⟨0x70030, 0, 48, .ro, 0⟩
def POOL_ERR_INFO_KIND : Fld := ⟨0x70030, 48, 3, .ro, 0⟩
def POOL_ERR_INFO_EXTENT_ID : Fld := ⟨0x70030, 51, 12, .ro, 0⟩
/-! POOL_CTL (R339) -/
def POOL_CTL_CLEAR_CNT : Fld := ⟨0x70038, 0, 1, .wo, 0⟩
/-! POOL_SEL (R339) -/
def POOL_SEL_EXTENT_ID : Fld := ⟨0x70040, 0, 12, .rw, 0⟩
/-! POOL_EXT_STATE (R339) -/
def POOL_EXT_STATE_STATE : Fld := ⟨0x70048, 0, 2, .ro, 0⟩
def POOL_EXT_STATE_PARTITION : Fld := ⟨0x70048, 2, 5, .ro, 0⟩
def POOL_EXT_STATE_RIGHTS : Fld := ⟨0x70048, 7, 3, .ro, 0⟩
def POOL_EXT_STATE_GRANTEE_LEN : Fld := ⟨0x70048, 16, 6, .ro, 0⟩
def POOL_EXT_STATE_GRANTEE_PREFIX : Fld := ⟨0x70048, 32, 32, .ro, 0⟩
/-! POOL_EXT_BASE (R339) -/
def POOL_EXT_BASE_BASE : Fld := ⟨0x70050, 0, 41, .ro, 0⟩
/-! POOL_EXT_SIZE (R339) -/
def POOL_EXT_SIZE_SIZE : Fld := ⟨0x70058, 0, 40, .ro, 0⟩
/-! POOL_EXT_EXPIRY (R339) -/
def POOL_EXT_EXPIRY_EXPIRY : Fld := ⟨0x70060, 0, 64, .ro, 0⟩
/-! POOL_EXT_KEY (R339) -/
def POOL_EXT_KEY_INDEX_GEN : Fld := ⟨0x70068, 0, 32, .ro, 0⟩
/-! POOL_PART (R339) -/
def POOL_PART_QUOTA : Fld := ⟨0x70100, 0, 32, .ro, 0⟩
def POOL_PART_USED : Fld := ⟨0x70100, 32, 32, .ro, 0⟩
/-! POOL_HOST (R339) -/
def POOL_HOST_HOST_GRANULES : Fld := ⟨0x70200, 0, 24, .ro, 0⟩
def POOL_HOST_POOL_SERVER : Fld := ⟨0x70200, 24, 1, .ro, 0⟩
def POOL_HOST_PARTITION : Fld := ⟨0x70200, 25, 5, .ro, 0⟩
/-! CHART_CAP (R354) -/
def CHART_CAP_CHART_MAX_MIB : Fld := ⟨0x20000, 0, 8, .ro, 32⟩
def CHART_CAP_OVERLAY_MAX_KIB : Fld := ⟨0x20000, 8, 16, .ro, 1024⟩
def CHART_CAP_STAGED_MAX : Fld := ⟨0x20000, 24, 4, .ro, 4⟩
def CHART_CAP_FORMAT_VERSION : Fld := ⟨0x20000, 32, 16, .ro, 1⟩
/-! CHART_STATUS (R354) -/
def CHART_STATUS_STATE : Fld := ⟨0x20008, 0, 2, .ro, 0⟩
def CHART_STATUS_STAGED : Fld := ⟨0x20008, 4, 3, .ro, 0⟩
def CHART_STATUS_RETIRE_PENDING : Fld := ⟨0x20008, 7, 1, .ro, 0⟩
def CHART_STATUS_EPOCH_MISMATCH : Fld := ⟨0x20008, 8, 1, .w1c, 0⟩
def CHART_STATUS_REJECTED : Fld := ⟨0x20008, 9, 1, .w1c, 0⟩
/-! CHART_EPOCH (R354) -/
def CHART_EPOCH_EPOCH : Fld := ⟨0x20010, 0, 16, .ro, 0⟩
def CHART_EPOCH_RETENTION_TICKS : Fld := ⟨0x20010, 32, 16, .ro, 0⟩
/-! CHART_SWITCH (R354) -/
def CHART_SWITCH_TICK : Fld := ⟨0x20018, 0, 48, .ro, 0⟩
/-! CHART_SWITCH_NS (R354) -/
def CHART_SWITCH_NS_NS : Fld := ⟨0x20020, 0, 64, .ro, 0⟩
/-! CHART_SPAN (R354) -/
def CHART_SPAN_SPAN_NS : Fld := ⟨0x20028, 0, 20, .ro, 0⟩
/-! CHART_ID (R354) -/
def CHART_ID_SERIAL : Fld := ⟨0x20030, 0, 64, .ro, 0⟩
/-! CHART_OVL_ID (R354) -/
def CHART_OVL_ID_SERIAL : Fld := ⟨0x20038, 0, 64, .ro, 0⟩
/-! CHART_SEC_VER (R354) -/
def CHART_SEC_VER_IN_FORCE : Fld := ⟨0x20040, 0, 32, .ro, 0⟩
def CHART_SEC_VER_COUNTER : Fld := ⟨0x20040, 32, 32, .ro, 0⟩
/-! CHART_SRC (R354) -/
def CHART_SRC_ADDR : Fld := ⟨0x20048, 0, 64, .rw, 0⟩
/-! CHART_LEN (R354) -/
def CHART_LEN_BYTES : Fld := ⟨0x20050, 0, 26, .rw, 0⟩
/-! CHART_CTL (R354) -/
def CHART_CTL_LOAD : Fld := ⟨0x20058, 0, 1, .wo, 0⟩
/-! CHART_REJECT (R354) -/
def CHART_REJECT_CODE : Fld := ⟨0x20060, 0, 8, .ro, 0⟩
def CHART_REJECT_SECTION : Fld := ⟨0x20060, 8, 8, .ro, 0⟩
def CHART_REJECT_RTYPE : Fld := ⟨0x20060, 16, 16, .ro, 0⟩
def CHART_REJECT_INDEX : Fld := ⟨0x20060, 32, 16, .ro, 0⟩
def CHART_REJECT_OVERLAY : Fld := ⟨0x20060, 48, 1, .ro, 0⟩
/-! CHART_CNT (R354) -/
def CHART_CNT_APPLIED : Fld := ⟨0x20068, 0, 32, .ro, 0⟩
def CHART_CNT_REJECTED : Fld := ⟨0x20068, 32, 32, .ro, 0⟩
/-! CHART_RETIRE_CNT (R354) -/
def CHART_RETIRE_CNT_LEAVES : Fld := ⟨0x20070, 0, 64, .ro, 0⟩
/-! CHART_STAGED (R354) -/
def CHART_STAGED_NAMED_TICK : Fld := ⟨0x20100, 0, 48, .ro, 0⟩
def CHART_STAGED_NEW_EPOCH : Fld := ⟨0x20100, 48, 16, .ro, 0⟩
/-! PART_CAP (R366) -/
def PART_CAP_PARTITIONS : Fld := ⟨0x80000, 0, 6, .ro, 32⟩
/-! PART_PORT_CFG (R366) -/
def PART_PORT_CFG_MODE : Fld := ⟨0x80008, 0, 1, .rw, 0⟩
def PART_PORT_CFG_TRANSIT_WEIGHT : Fld := ⟨0x80008, 8, 6, .rw, 8⟩
def PART_PORT_CFG_TRANSIT_PCT : Fld := ⟨0x80008, 16, 6, .rw, 20⟩
/-! PART_CNT (R366) -/
def PART_CNT_CREATED : Fld := ⟨0x80010, 0, 32, .ro, 0⟩
def PART_CNT_DESTROYED : Fld := ⟨0x80010, 32, 32, .ro, 0⟩
/-! PART_ERR_STATUS (R366) -/
def PART_ERR_STATUS_SCRUB_STALLED : Fld := ⟨0x80018, 0, 1, .w1c, 0⟩
def PART_ERR_STATUS_DESTROY_ABORTED : Fld := ⟨0x80018, 1, 1, .w1c, 0⟩
/-! PART_STATE (R366) -/
def PART_STATE_STATE : Fld := ⟨0x80100, 0, 2, .ro, 0⟩
def PART_STATE_GEN : Fld := ⟨0x80100, 16, 16, .ro, 0⟩
def PART_STATE_QUADS : Fld := ⟨0x80100, 32, 32, .ro, 0⟩
/-! PART_ALLOWED (R366) -/
def PART_ALLOWED_QUADS : Fld := ⟨0x80108, 0, 32, .ro, 0⟩
def PART_ALLOWED_FENCE_THRESHOLD : Fld := ⟨0x80108, 32, 8, .ro, 0⟩
/-! PART_QUAD (R366) -/
def PART_QUAD_STATE : Fld := ⟨0x80400, 0, 3, .ro, 0⟩
def PART_QUAD_OWNER : Fld := ⟨0x80400, 3, 5, .ro, 0⟩
def PART_QUAD_SCRUB_LEFT : Fld := ⟨0x80400, 32, 32, .ro, 0⟩
/-! SEC_STATE (R394) -/
def SEC_STATE_STATE : Fld := ⟨0x30000, 0, 2, .ro, 0⟩
def SEC_STATE_LEVEL : Fld := ⟨0x30000, 2, 2, .ro, 0⟩
def SEC_STATE_FREE_LEVEL : Fld := ⟨0x30000, 4, 2, .ro, 0⟩
def SEC_STATE_DL3_PENDING : Fld := ⟨0x30000, 6, 1, .ro, 0⟩
def SEC_STATE_TOKEN : Fld := ⟨0x30000, 7, 1, .ro, 0⟩
def SEC_STATE_PARTITIONS : Fld := ⟨0x30000, 32, 32, .ro, 0⟩
/-! SEC_TOKEN (R394) -/
def SEC_TOKEN_SERIAL : Fld := ⟨0x30008, 0, 64, .ro, 0⟩
/-! SEC_TOKEN_END (R394) -/
def SEC_TOKEN_END_NOT_AFTER : Fld := ⟨0x30010, 0, 64, .ro, 0⟩
/-! SEC_NONCE (R394) -/
def SEC_NONCE_NONCE : Fld := ⟨0x30018, 0, 64, .ro, 0⟩
/-! SEC_CMD_ADDR (R394) -/
def SEC_CMD_ADDR_ADDR : Fld := ⟨0x30020, 0, 64, .rw, 0⟩
/-! SEC_CMD_LEN (R394) -/
def SEC_CMD_LEN_BYTES : Fld := ⟨0x30028, 0, 16, .rw, 0⟩
/-! SEC_CMD (R394) -/
def SEC_CMD_OP : Fld := ⟨0x30030, 0, 4, .rw, 0⟩
def SEC_CMD_ARG : Fld := ⟨0x30030, 4, 4, .rw, 0⟩
def SEC_CMD_GO : Fld := ⟨0x30030, 8, 1, .wo, 0⟩
/-! SEC_CMD_STATUS (R394) -/
def SEC_CMD_STATUS_BUSY : Fld := ⟨0x30038, 0, 1, .ro, 0⟩
def SEC_CMD_STATUS_STATUS : Fld := ⟨0x30038, 8, 8, .ro, 0⟩
def SEC_CMD_STATUS_DETAIL : Fld := ⟨0x30038, 32, 32, .ro, 0⟩
/-! SEC_ROLLBACK (R394) -/
def SEC_ROLLBACK_COUNTER : Fld := ⟨0x30040, 0, 32, .ro, 0⟩
def SEC_ROLLBACK_IN_FORCE : Fld := ⟨0x30040, 32, 32, .ro, 0⟩
/-! SEC_LMS (R394) -/
def SEC_LMS_NEXT : Fld := ⟨0x30058, 0, 31, .ro, 0⟩
def SEC_LMS_RES_END : Fld := ⟨0x30058, 32, 31, .ro, 0⟩
/-! SEC_ERR_STATUS (R394) -/
def SEC_ERR_STATUS_PUF_FAIL : Fld := ⟨0x30060, 0, 1, .w1c, 0⟩
def SEC_ERR_STATUS_UNSEAL_FAIL : Fld := ⟨0x30060, 1, 1, .w1c, 0⟩
def SEC_ERR_STATUS_SIG_FAIL : Fld := ⟨0x30060, 2, 1, .w1c, 0⟩
def SEC_ERR_STATUS_ROLLBACK : Fld := ⟨0x30060, 3, 1, .w1c, 0⟩
def SEC_ERR_STATUS_LMS_LOW : Fld := ⟨0x30060, 4, 1, .w1c, 0⟩
def SEC_ERR_STATUS_LMS_EXHAUSTED : Fld := ⟨0x30060, 5, 1, .w1c, 0⟩
def SEC_ERR_STATUS_TOKEN_EXPIRED : Fld := ⟨0x30060, 6, 1, .w1c, 0⟩
/-! SEC_ID_HASH (R394) -/
def SEC_ID_HASH_HASH : Fld := ⟨0x30080, 0, 64, .ro, 0⟩
/-! PWR_STATE (R395) -/
def PWR_STATE_NODE : Fld := ⟨0x30800, 0, 3, .ro, 0⟩
def PWR_STATE_OP : Fld := ⟨0x30800, 4, 2, .ro, 0⟩
def PWR_STATE_OP_POWER : Fld := ⟨0x30800, 6, 2, .ro, 0⟩
def PWR_STATE_OP_THERMAL : Fld := ⟨0x30800, 8, 2, .ro, 0⟩
def PWR_STATE_RAISING : Fld := ⟨0x30800, 10, 1, .ro, 0⟩
def PWR_STATE_PARKED : Fld := ⟨0x30800, 16, 8, .ro, 0⟩
def PWR_STATE_DOZED : Fld := ⟨0x30800, 24, 8, .ro, 0⟩
/-! PWR_CFG (R395) -/
def PWR_CFG_OP_LIMIT : Fld := ⟨0x30808, 0, 2, .rw, 0⟩
/-! PWR_CTL (R395) -/
def PWR_CTL_PARK : Fld := ⟨0x30810, 0, 8, .rw, 0⟩
def PWR_CTL_STANDBY : Fld := ⟨0x30810, 8, 1, .rw, 0⟩
/-! PWR_AVG (R395) -/
def PWR_AVG_AVG_W : Fld := ⟨0x30818, 0, 16, .ro, 0⟩
def PWR_AVG_TDP_W : Fld := ⟨0x30818, 16, 16, .ro, 0⟩
/-! PWR_OP_CNT (R395) -/
def PWR_OP_CNT_DOWN : Fld := ⟨0x30820, 0, 32, .ro, 0⟩
def PWR_OP_CNT_UP : Fld := ⟨0x30820, 32, 32, .ro, 0⟩
/-! PWR_DOZE_CNT (R395) -/
def PWR_DOZE_CNT_CYCLES : Fld := ⟨0x30828, 0, 64, .ro, 0⟩
/-! PWR_ERR_STATUS (R395) -/
def PWR_ERR_STATUS_AVS_FAIL : Fld := ⟨0x30830, 0, 1, .w1c, 0⟩
def PWR_ERR_STATUS_WAKE_TIMEOUT : Fld := ⟨0x30830, 1, 1, .w1c, 0⟩
def PWR_ERR_STATUS_THERMAL_PARK : Fld := ⟨0x30830, 2, 1, .w1c, 0⟩
def PWR_ERR_STATUS_POWER_CAP : Fld := ⟨0x30830, 3, 1, .w1c, 0⟩
/-! ERR_CFG (R431) -/
def ERR_CFG_AUTO_CORE : Fld := ⟨0x40000, 0, 1, .rw, 1⟩
def ERR_CFG_AUTO_NODE : Fld := ⟨0x40000, 1, 1, .rw, 1⟩
def ERR_CFG_FATAL_DELAY_MS : Fld := ⟨0x40000, 8, 8, .rw, 10⟩
def ERR_CFG_HANG_REPEAT : Fld := ⟨0x40000, 16, 4, .rw, 2⟩
/-! ERR_STATUS (R431) -/
def ERR_STATUS_CORRECTED : Fld := ⟨0x40008, 0, 1, .w1c, 0⟩
def ERR_STATUS_DEFERRED : Fld := ⟨0x40008, 1, 1, .w1c, 0⟩
def ERR_STATUS_CONTAINED : Fld := ⟨0x40008, 2, 1, .w1c, 0⟩
def ERR_STATUS_FATAL : Fld := ⟨0x40008, 3, 1, .w1c, 0⟩
def ERR_STATUS_HUB_FATAL : Fld := ⟨0x40008, 4, 1, .w1c, 0⟩
def ERR_STATUS_HANG : Fld := ⟨0x40008, 5, 1, .w1c, 0⟩
def ERR_STATUS_ABORT_SENT : Fld := ⟨0x40008, 6, 1, .w1c, 0⟩
def ERR_STATUS_ABORT_RECEIVED : Fld := ⟨0x40008, 7, 1, .w1c, 0⟩
def ERR_STATUS_LOG_WRAP : Fld := ⟨0x40008, 8, 1, .w1c, 0⟩
/-! ERR_FATAL_INFO (R431) -/
def ERR_FATAL_INFO_TICK : Fld := ⟨0x40010, 0, 48, .ro, 0⟩
def ERR_FATAL_INFO_SOURCE : Fld := ⟨0x40010, 48, 4, .ro, 0⟩
def ERR_FATAL_INFO_SHEET : Fld := ⟨0x40010, 52, 3, .ro, 0⟩
def ERR_FATAL_INFO_LINK : Fld := ⟨0x40010, 55, 4, .ro, 0⟩
/-! ERR_CNT (R431) -/
def ERR_CNT_CORRECTED : Fld := ⟨0x40018, 0, 32, .ro, 0⟩
def ERR_CNT_DEFERRED : Fld := ⟨0x40018, 32, 16, .ro, 0⟩
def ERR_CNT_CONTAINED : Fld := ⟨0x40018, 48, 12, .ro, 0⟩
def ERR_CNT_FATAL : Fld := ⟨0x40018, 60, 4, .ro, 0⟩
/-! ERR_LOG (R431) -/
def ERR_LOG_NEXT : Fld := ⟨0x40020, 0, 16, .ro, 0⟩
def ERR_LOG_WRAPS : Fld := ⟨0x40020, 16, 16, .ro, 0⟩
def ERR_LOG_SUMMARY_NEXT : Fld := ⟨0x40020, 32, 12, .ro, 0⟩
/-! ERR_DUMP_STATUS (R431) -/
def ERR_DUMP_STATUS_HELD : Fld := ⟨0x40028, 0, 10, .ro, 0⟩
def ERR_DUMP_STATUS_FIRST_CORE : Fld := ⟨0x40028, 16, 10, .ro, 0⟩
def ERR_DUMP_STATUS_LATER : Fld := ⟨0x40028, 32, 32, .ro, 0⟩
/-! ERR_DUMP_CTL (R431) -/
def ERR_DUMP_CTL_RELEASE_ALL : Fld := ⟨0x40030, 0, 1, .wo, 0⟩
def ERR_DUMP_CTL_RELEASE_ONE : Fld := ⟨0x40030, 1, 1, .wo, 0⟩
def ERR_DUMP_CTL_CORE : Fld := ⟨0x40030, 16, 10, .rw, 0⟩
/-! ERR_ABORT_CTL (R431) -/
def ERR_ABORT_CTL_SEND : Fld := ⟨0x40038, 0, 1, .wo, 0⟩
def ERR_ABORT_CTL_PARTITION : Fld := ⟨0x40038, 8, 5, .rw, 0⟩
/-! ERR_ABORT_CNT (R431) -/
def ERR_ABORT_CNT_SENT : Fld := ⟨0x40040, 0, 32, .ro, 0⟩
def ERR_ABORT_CNT_APPLIED : Fld := ⟨0x40040, 32, 16, .ro, 0⟩
def ERR_ABORT_CNT_IGNORED : Fld := ⟨0x40040, 48, 16, .ro, 0⟩
/-! ERR_ABORT_CFG (R431) -/
def ERR_ABORT_CFG_EN : Fld := ⟨0x40100, 0, 1, .rw, 0⟩
def ERR_ABORT_CFG_AUTO : Fld := ⟨0x40100, 1, 1, .rw, 0⟩
def ERR_ABORT_CFG_LIST : Fld := ⟨0x40100, 8, 8, .rw, 0⟩
def ERR_ABORT_CFG_INDEX_VALUE : Fld := ⟨0x40100, 16, 24, .rw, 0⟩
def ERR_ABORT_CFG_INDEX_MASK : Fld := ⟨0x40100, 40, 24, .rw, 0⟩
/-! ERR_ABORT_SPAN (R431) -/
def ERR_ABORT_SPAN_SPAN_MS : Fld := ⟨0x40108, 0, 14, .rw, 0⟩
/-! RST_STATUS (R432) -/
def RST_STATUS_ACTIVE : Fld := ⟨0x40800, 0, 3, .ro, 0⟩
def RST_STATUS_PHASE : Fld := ⟨0x40800, 4, 3, .ro, 0⟩
def RST_STATUS_LAST_LEVEL : Fld := ⟨0x40800, 8, 3, .ro, 0⟩
def RST_STATUS_LAST_CAUSE : Fld := ⟨0x40800, 12, 4, .ro, 0⟩
def RST_STATUS_LAST_TICK : Fld := ⟨0x40800, 16, 48, .ro, 0⟩
/-! RST_CTL (R432) -/
def RST_CTL_LEVEL : Fld := ⟨0x40808, 0, 3, .rw, 0⟩
def RST_CTL_GO : Fld := ⟨0x40808, 8, 1, .wo, 0⟩
/-! RST_CNT (R432) -/
def RST_CNT_L2 : Fld := ⟨0x40810, 0, 16, .ro, 0⟩
def RST_CNT_L3 : Fld := ⟨0x40810, 16, 16, .ro, 0⟩
def RST_CNT_L4 : Fld := ⟨0x40810, 32, 16, .ro, 0⟩
def RST_CNT_L5 : Fld := ⟨0x40810, 48, 16, .ro, 0⟩
/-! SVY_CAP (R449) -/
def SVY_CAP_RING_RECORDS : Fld := ⟨0x50000, 0, 25, .ro, 16777216⟩
def SVY_CAP_AREAS : Fld := ⟨0x50000, 32, 4, .ro, 8⟩
/-! SVY_CFG (R449) -/
def SVY_CFG_KAT_INTERVAL : Fld := ⟨0x50008, 0, 17, .ro, 0⟩
def SVY_CFG_KAT_FENCE : Fld := ⟨0x50008, 20, 4, .ro, 0⟩
def SVY_CFG_ALARM_LIST : Fld := ⟨0x50008, 32, 9, .ro, 0⟩
def SVY_CFG_GRANTS : Fld := ⟨0x50008, 48, 3, .ro, 0⟩
/-! SVY_THRESH (R449) -/
def SVY_THRESH_EYE_WARN_MV : Fld := ⟨0x50010, 0, 8, .ro, 0⟩
def SVY_THRESH_MARGIN_WARN_PS : Fld := ⟨0x50010, 8, 8, .ro, 0⟩
def SVY_THRESH_GUARD_WARN_MV : Fld := ⟨0x50010, 16, 8, .ro, 0⟩
/-! SVY_STATUS (R449) -/
def SVY_STATUS_ALERT : Fld := ⟨0x50018, 0, 1, .w1c, 0⟩
def SVY_STATUS_RING_WRAPPED : Fld := ⟨0x50018, 1, 1, .w1c, 0⟩
def SVY_STATUS_RING_LOST : Fld := ⟨0x50018, 2, 1, .ro, 0⟩
def SVY_STATUS_FLUSH_BUSY : Fld := ⟨0x50018, 3, 1, .ro, 0⟩
def SVY_STATUS_TRACE_ON : Fld := ⟨0x50018, 4, 1, .ro, 0⟩
/-! SVY_RATE (R449) -/
def SVY_RATE_RATE_PER_MS : Fld := ⟨0x50040, 0, 16, .ro, 0⟩
def SVY_RATE_BURST : Fld := ⟨0x50040, 16, 16, .ro, 0⟩
/-! SVY_CLASS_CNT (R449) -/
def SVY_CLASS_CNT_WRITTEN : Fld := ⟨0x50060, 0, 32, .ro, 0⟩
def SVY_CLASS_CNT_DROPPED : Fld := ⟨0x50060, 32, 32, .ro, 0⟩
/-! SVY_DROP_FIRST (R449) -/
def SVY_DROP_FIRST_MER_NS : Fld := ⟨0x50080, 0, 64, .ro, 0⟩
/-! SVY_DROP_LAST (R449) -/
def SVY_DROP_LAST_MER_NS : Fld := ⟨0x500a0, 0, 64, .ro, 0⟩
/-! SVY_RING_BASE (R449) -/
def SVY_RING_BASE_ADDR : Fld := ⟨0x500c0, 0, 41, .ro, 0⟩
/-! SVY_RING_IDX (R449) -/
def SVY_RING_IDX_WRITE : Fld := ⟨0x500c8, 0, 32, .ro, 0⟩
def SVY_RING_IDX_READ : Fld := ⟨0x500c8, 32, 32, .rw, 0⟩
/-! SVY_RING_OVR (R449) -/
def SVY_RING_OVR_OVERWRITTEN : Fld := ⟨0x500d0, 0, 64, .ro, 0⟩
/-! SVY_KAT_CNT (R449) -/
def SVY_KAT_CNT_RUN : Fld := ⟨0x500d8, 0, 32, .ro, 0⟩
def SVY_KAT_CNT_FAILED : Fld := ⟨0x500d8, 32, 16, .ro, 0⟩
def SVY_KAT_CNT_SKIPPED : Fld := ⟨0x500d8, 48, 16, .ro, 0⟩
/-! SVY_CORE_SEL (R449) -/
def SVY_CORE_SEL_CORE : Fld := ⟨0x500e0, 0, 10, .rw, 0⟩
/-! SVY_CORE_KAT (R449) -/
def SVY_CORE_KAT_RUNS : Fld := ⟨0x500e8, 0, 32, .ro, 0⟩
def SVY_CORE_KAT_FAILS : Fld := ⟨0x500e8, 32, 16, .ro, 0⟩
def SVY_CORE_KAT_CONSEC : Fld := ⟨0x500e8, 48, 4, .ro, 0⟩
def SVY_CORE_KAT_FENCED : Fld := ⟨0x500e8, 52, 1, .ro, 0⟩
def SVY_CORE_KAT_PARTNER : Fld := ⟨0x500e8, 53, 2, .ro, 0⟩
/-! SVY_RX_ALARM (R449) -/
def SVY_RX_ALARM_ACCEPTED : Fld := ⟨0x500f0, 0, 32, .ro, 0⟩
def SVY_RX_ALARM_DROPPED : Fld := ⟨0x500f0, 32, 32, .ro, 0⟩
/-! SVY_TRACE_CFG (R449) -/
def SVY_TRACE_CFG_LETTERS : Fld := ⟨0x500f8, 0, 1, .rw, 0⟩
def SVY_TRACE_CFG_PASSES : Fld := ⟨0x500f8, 1, 1, .rw, 0⟩
def SVY_TRACE_CFG_FRAMES : Fld := ⟨0x500f8, 2, 1, .rw, 0⟩
def SVY_TRACE_CFG_BOUNDARY : Fld := ⟨0x500f8, 3, 1, .rw, 0⟩
/-! SVY_CTL (R449) -/
def SVY_CTL_FLUSH : Fld := ⟨0x50100, 0, 1, .wo, 0⟩
def SVY_CTL_CLEAR_CNT : Fld := ⟨0x50100, 1, 1, .wo, 0⟩
/-! SVY_FLUSH_NS (R449) -/
def SVY_FLUSH_NS_MER_NS : Fld := ⟨0x50108, 0, 64, .ro, 0⟩
/-! ID_BOOT_STATUS (R463) -/
def ID_BOOT_STATUS_DONE : Fld := ⟨0x40, 0, 8, .ro, 0⟩
def ID_BOOT_STATUS_FAIL_STEP : Fld := ⟨0x40, 8, 4, .ro, 0⟩
def ID_BOOT_STATUS_FAIL_CODE : Fld := ⟨0x40, 12, 4, .ro, 0⟩
def ID_BOOT_STATUS_SLOT : Fld := ⟨0x40, 16, 1, .ro, 0⟩
def ID_BOOT_STATUS_WARM : Fld := ⟨0x40, 17, 1, .ro, 0⟩
/-! ID_BOOT_TIME (R463) -/
def ID_BOOT_TIME_CHART_MS : Fld := ⟨0x48, 0, 16, .ro, 0⟩
def ID_BOOT_TIME_HBM_MS : Fld := ⟨0x48, 16, 16, .ro, 0⟩
def ID_BOOT_TIME_LOCK_MS : Fld := ⟨0x48, 32, 16, .ro, 0⟩
def ID_BOOT_TIME_READY_MS : Fld := ⟨0x48, 48, 16, .ro, 0⟩

/-! SO_CAP (R140) -/
def SO_CAP_SLOT_MAX : Fld := ⟨0x0, 0, 13, .ro, 4096⟩
def SO_CAP_STAGE_GRANULES : Fld := ⟨0x0, 16, 12, .ro, 3584⟩
def SO_CAP_MERGE_KIB : Fld := ⟨0x0, 32, 14, .ro, 8192⟩
def SO_CAP_STORE_KIB : Fld := ⟨0x0, 48, 12, .ro, 2048⟩
/-! SO_CFG (R140) -/
def SO_CFG_PROMOTE_ROWS : Fld := ⟨0x8, 0, 13, .ro, 0⟩
def SO_CFG_PROMOTE_MAX_COPIES : Fld := ⟨0x8, 16, 5, .ro, 0⟩
def SO_CFG_PROMOTE_IDLE_LOG2 : Fld := ⟨0x8, 24, 5, .ro, 0⟩
def SO_CFG_TICKET_KIB : Fld := ⟨0x8, 32, 14, .ro, 0⟩
/-! SO_STATUS (R140) -/
def SO_STATUS_FETCH_GRANULES : Fld := ⟨0x10, 0, 20, .ro, 0⟩
def SO_STATUS_ANCHOR_Q : Fld := ⟨0x10, 20, 9, .ro, 0⟩
def SO_STATUS_STAGE_FREE : Fld := ⟨0x10, 32, 12, .ro, 0⟩
def SO_STATUS_MERGE_FREE_KIB : Fld := ⟨0x10, 48, 14, .ro, 0⟩
/-! SO_ERR_STATUS (R140) -/
def SO_ERR_STATUS_STAGE_CE : Fld := ⟨0x18, 0, 1, .w1c, 0⟩
def SO_ERR_STATUS_STAGE_UE : Fld := ⟨0x18, 1, 1, .w1c, 0⟩
def SO_ERR_STATUS_STORE_UE : Fld := ⟨0x18, 2, 1, .w1c, 0⟩
def SO_ERR_STATUS_MERGE_UE : Fld := ⟨0x18, 3, 1, .w1c, 0⟩
def SO_ERR_STATUS_MERGE_CE : Fld := ⟨0x18, 4, 1, .w1c, 0⟩
/-! SO_ERR_INFO (R140) -/
def SO_ERR_INFO_TICK : Fld := ⟨0x20, 0, 48, .ro, 0⟩
def SO_ERR_INFO_KIND : Fld := ⟨0x20, 48, 3, .ro, 0⟩
def SO_ERR_INFO_PARTITION : Fld := ⟨0x20, 51, 5, .ro, 0⟩
def SO_ERR_INFO_QUAD : Fld := ⟨0x20, 56, 2, .ro, 0⟩
/-! SO_T0_CNT (R140) -/
def SO_T0_CNT_PROMOTED : Fld := ⟨0x28, 0, 24, .ro, 0⟩
def SO_T0_CNT_DROPPED : Fld := ⟨0x28, 24, 24, .ro, 0⟩
def SO_T0_CNT_SKIPPED : Fld := ⟨0x28, 48, 16, .ro, 0⟩
/-! SO_MERGE_CNT (R140) -/
def SO_MERGE_CNT_CONTEXTS : Fld := ⟨0x30, 0, 32, .ro, 0⟩
def SO_MERGE_CNT_TOMB_HITS : Fld := ⟨0x30, 32, 32, .ro, 0⟩
/-! SO_CTL (R140) -/
def SO_CTL_CLEAR_CNT : Fld := ⟨0x38, 0, 1, .wo, 0⟩
def SO_CTL_DEMOTE_ALL : Fld := ⟨0x38, 1, 1, .wo, 0⟩
/-! SO_REFUSE_CNT (R140) -/
def SO_REFUSE_CNT_ENTRIES : Fld := ⟨0x40, 0, 32, .ro, 0⟩
def SO_REFUSE_CNT_REPLACED : Fld := ⟨0x40, 32, 16, .ro, 0⟩
/-! SO_SHARE (R140) -/
def SO_SHARE_SLOT_LETTERS : Fld := ⟨0x100, 0, 13, .ro, 0⟩
def SO_SHARE_STAGE_GRANULES : Fld := ⟨0x100, 16, 12, .ro, 0⟩
def SO_SHARE_MERGE_KIB : Fld := ⟨0x100, 32, 14, .ro, 0⟩
def SO_SHARE_STORE_LINES : Fld := ⟨0x100, 48, 16, .ro, 0⟩
/-! SO_LETTER_CNT (R140) -/
def SO_LETTER_CNT_COLLECTED : Fld := ⟨0x200, 0, 32, .ro, 0⟩
def SO_LETTER_CNT_ADMITTED : Fld := ⟨0x200, 32, 32, .ro, 0⟩
/-! SO_HOLD_CNT (R140) -/
def SO_HOLD_CNT_HELD : Fld := ⟨0x208, 0, 32, .ro, 0⟩
def SO_HOLD_CNT_REFUSED : Fld := ⟨0x208, 32, 32, .ro, 0⟩
/-! SO_EXPIRE_CNT (R140) -/
def SO_EXPIRE_CNT_EXPIRED : Fld := ⟨0x210, 0, 32, .ro, 0⟩
def SO_EXPIRE_CNT_LATE : Fld := ⟨0x210, 32, 32, .ro, 0⟩
/-! SO_PASS_CNT (R140) -/
def SO_PASS_CNT_PASSES : Fld := ⟨0x218, 0, 64, .ro, 0⟩
/-! SO_ROWS_CNT (R140) -/
def SO_ROWS_CNT_ROWS : Fld := ⟨0x220, 0, 64, .ro, 0⟩
/-! XL_CAP (R187) -/
def XL_CAP_RC_ENTRIES : Fld := ⟨0x40000, 0, 16, .ro, 16384⟩
def XL_CAP_WALK_ENTRIES : Fld := ⟨0x40000, 16, 12, .ro, 2048⟩
def XL_CAP_RC_WAYS : Fld := ⟨0x40000, 28, 4, .ro, 8⟩
def XL_CAP_SEQ_MAX : Fld := ⟨0x40000, 32, 21, .ro, 1048576⟩
/-! XL_CFG (R187) -/
def XL_CFG_SEQ_LIMIT : Fld := ⟨0x40008, 0, 21, .ro, 0⟩
def XL_CFG_RANGE_LOG2 : Fld := ⟨0x40008, 24, 6, .ro, 0⟩
def XL_CFG_FD_FRACTION : Fld := ⟨0x40008, 32, 9, .ro, 0⟩
/-! XL_STATUS (R187) -/
def XL_STATUS_SEQ_OPEN : Fld := ⟨0x40010, 0, 21, .ro, 0⟩
def XL_STATUS_HASH_PENDING : Fld := ⟨0x40010, 32, 16, .ro, 0⟩
/-! XL_RC_CNT (R187) -/
def XL_RC_CNT_HITS : Fld := ⟨0x40018, 0, 32, .ro, 0⟩
def XL_RC_CNT_MISSES : Fld := ⟨0x40018, 32, 32, .ro, 0⟩
/-! XL_WALK_CNT (R187) -/
def XL_WALK_CNT_WALKS : Fld := ⟨0x40020, 0, 32, .ro, 0⟩
def XL_WALK_CNT_TABLE_PAGES : Fld := ⟨0x40020, 32, 32, .ro, 0⟩
/-! XL_SHARE_CNT (R187) -/
def XL_SHARE_CNT_MATCHED : Fld := ⟨0x40028, 0, 16, .ro, 0⟩
def XL_SHARE_CNT_INSERTED : Fld := ⟨0x40028, 16, 16, .ro, 0⟩
def XL_SHARE_CNT_KEY_MISMATCH : Fld := ⟨0x40028, 32, 16, .ro, 0⟩
def XL_SHARE_CNT_HEADER_MISMATCH : Fld := ⟨0x40028, 48, 16, .ro, 0⟩
/-! XL_ERR_STATUS (R187) -/
def XL_ERR_STATUS_TABLE_UE : Fld := ⟨0x40030, 0, 1, .w1c, 0⟩
def XL_ERR_STATUS_DIR_UE : Fld := ⟨0x40030, 1, 1, .w1c, 0⟩
def XL_ERR_STATUS_RC_PARITY : Fld := ⟨0x40030, 2, 1, .w1c, 0⟩
def XL_ERR_STATUS_DIR_FULL : Fld := ⟨0x40030, 3, 1, .w1c, 0⟩
def XL_ERR_STATUS_ALLOC_FAIL : Fld := ⟨0x40030, 4, 1, .w1c, 0⟩
/-! XL_ERR_INFO (R187) -/
def XL_ERR_INFO_TICK : Fld := ⟨0x40038, 0, 48, .ro, 0⟩
def XL_ERR_INFO_KIND : Fld := ⟨0x40038, 48, 3, .ro, 0⟩
def XL_ERR_INFO_QUAD : Fld := ⟨0x40038, 51, 5, .ro, 0⟩
def XL_ERR_INFO_LEVEL : Fld := ⟨0x40038, 56, 3, .ro, 0⟩
def XL_ERR_INFO_PARTITION : Fld := ⟨0x40038, 59, 5, .ro, 0⟩
/-! XL_ERR_ADDR (R187) -/
def XL_ERR_ADDR_GRANULE : Fld := ⟨0x40040, 0, 24, .ro, 0⟩
def XL_ERR_ADDR_SLOT_HIGH : Fld := ⟨0x40040, 32, 32, .ro, 0⟩
/-! XL_CTL (R187) -/
def XL_CTL_CLEAR_CNT : Fld := ⟨0x40048, 0, 1, .wo, 0⟩
def XL_CTL_FLUSH_RC : Fld := ⟨0x40048, 1, 1, .wo, 0⟩
/-! GZ_CAP (R244) -/
def GZ_CAP_CONTENT_ENTRIES : Fld := ⟨0x30000, 0, 21, .ro, 0⟩
def GZ_CAP_RULE_ENTRIES : Fld := ⟨0x30000, 32, 15, .ro, 16384⟩
def GZ_CAP_ROUTE_ENTRIES : Fld := ⟨0x30000, 48, 13, .ro, 4096⟩
/-! GZ_CFG (R244) -/
def GZ_CFG_HOLE_STRIDE : Fld := ⟨0x30008, 0, 7, .ro, 0⟩
def GZ_CFG_DEFAULT_ACTION : Fld := ⟨0x30008, 8, 2, .ro, 0⟩
/-! GZ_STATUS (R244) -/
def GZ_STATUS_CONTENT_USED : Fld := ⟨0x30010, 0, 21, .ro, 0⟩
def GZ_STATUS_RULES_USED : Fld := ⟨0x30010, 32, 15, .ro, 0⟩
def GZ_STATUS_ROUTES_USED : Fld := ⟨0x30010, 48, 13, .ro, 0⟩
def GZ_STATUS_RESPREAD : Fld := ⟨0x30010, 61, 1, .ro, 0⟩
def GZ_STATUS_UPDATE_BUSY : Fld := ⟨0x30010, 62, 1, .ro, 0⟩
/-! GZ_CONTENT_CNT (R244) -/
def GZ_CONTENT_CNT_LOOKUPS : Fld := ⟨0x30018, 0, 32, .ro, 0⟩
def GZ_CONTENT_CNT_HITS : Fld := ⟨0x30018, 32, 32, .ro, 0⟩
/-! GZ_CONTENT_UPD (R244) -/
def GZ_CONTENT_UPD_INSERTS : Fld := ⟨0x30020, 0, 24, .ro, 0⟩
def GZ_CONTENT_UPD_REMOVES : Fld := ⟨0x30020, 24, 24, .ro, 0⟩
def GZ_CONTENT_UPD_NO_ROOM : Fld := ⟨0x30020, 48, 16, .ro, 0⟩
/-! GZ_RULE_CNT (R244) -/
def GZ_RULE_CNT_LOOKUPS : Fld := ⟨0x30028, 0, 32, .ro, 0⟩
def GZ_RULE_CNT_DEFAULT_HITS : Fld := ⟨0x30028, 32, 32, .ro, 0⟩
/-! GZ_ROUTE_CNT (R244) -/
def GZ_ROUTE_CNT_LOOKUPS : Fld := ⟨0x30030, 0, 32, .ro, 0⟩
def GZ_ROUTE_CNT_MISSES : Fld := ⟨0x30030, 32, 32, .ro, 0⟩
/-! GZ_STEAL_CNT (R244) -/
def GZ_STEAL_CNT_STOLEN : Fld := ⟨0x30038, 0, 32, .ro, 0⟩
def GZ_STEAL_CNT_DELAYED : Fld := ⟨0x30038, 32, 24, .ro, 0⟩
def GZ_STEAL_CNT_DELAY_MAX : Fld := ⟨0x30038, 56, 3, .ro, 0⟩
/-! GZ_RULE_VALUE (R244) -/
def GZ_RULE_VALUE_VALUE : Fld := ⟨0x30040, 0, 64, .rw, 0⟩
/-! GZ_RULE_MASK (R244) -/
def GZ_RULE_MASK_MASK : Fld := ⟨0x30048, 0, 64, .rw, 0⟩
/-! GZ_RULE_CMD (R244) -/
def GZ_RULE_CMD_PRIORITY : Fld := ⟨0x30050, 0, 8, .rw, 0⟩
def GZ_RULE_CMD_ACTION : Fld := ⟨0x30050, 8, 2, .rw, 0⟩
def GZ_RULE_CMD_COUNTER : Fld := ⟨0x30050, 10, 8, .rw, 0⟩
def GZ_RULE_CMD_OP : Fld := ⟨0x30050, 18, 2, .rw, 0⟩
def GZ_RULE_CMD_GO : Fld := ⟨0x30050, 20, 1, .wo, 0⟩
/-! GZ_RULE_STATUS (R244) -/
def GZ_RULE_STATUS_BUSY : Fld := ⟨0x30058, 0, 1, .ro, 0⟩
def GZ_RULE_STATUS_RESULT : Fld := ⟨0x30058, 1, 3, .ro, 0⟩
def GZ_RULE_STATUS_INDEX : Fld := ⟨0x30058, 4, 14, .ro, 0⟩
def GZ_RULE_STATUS_MOVES : Fld := ⟨0x30058, 18, 14, .ro, 0⟩
/-! GZ_ERR_STATUS (R244) -/
def GZ_ERR_STATUS_CONTENT_PE : Fld := ⟨0x30060, 0, 1, .w1c, 0⟩
def GZ_ERR_STATUS_RULE_CE : Fld := ⟨0x30060, 1, 1, .w1c, 0⟩
def GZ_ERR_STATUS_RULE_UE : Fld := ⟨0x30060, 2, 1, .w1c, 0⟩
def GZ_ERR_STATUS_ROUTE_CE : Fld := ⟨0x30060, 3, 1, .w1c, 0⟩
def GZ_ERR_STATUS_ROUTE_UE : Fld := ⟨0x30060, 4, 1, .w1c, 0⟩
/-! GZ_ERR_INFO (R244) -/
def GZ_ERR_INFO_TICK : Fld := ⟨0x30068, 0, 48, .ro, 0⟩
def GZ_ERR_INFO_KIND : Fld := ⟨0x30068, 48, 3, .ro, 0⟩
/-! GZ_ERR_INDEX (R244) -/
def GZ_ERR_INDEX_INDEX : Fld := ⟨0x30070, 0, 20, .ro, 0⟩
/-! GZ_CTL (R244) -/
def GZ_CTL_CLEAR_CNT : Fld := ⟨0x30078, 0, 1, .wo, 0⟩
def GZ_CTL_RESPREAD_NOW : Fld := ⟨0x30078, 1, 1, .wo, 0⟩
/-! GZ_CONTENT_SHARE (R244) -/
def GZ_CONTENT_SHARE_SETS : Fld := ⟨0x30100, 0, 17, .ro, 0⟩
def GZ_CONTENT_SHARE_BASE : Fld := ⟨0x30100, 32, 16, .ro, 0⟩
/-! GZ_RULE_HIT (R244) -/
def GZ_RULE_HIT_COUNT : Fld := ⟨0x30800, 0, 64, .ro, 0⟩
/-! PORT_CAP (R271) -/
def PORT_CAP_PORTS : Fld := ⟨0x10000, 0, 2, .ro, 2⟩
def PORT_CAP_LANES : Fld := ⟨0x10000, 8, 4, .ro, 8⟩
def PORT_CAP_MAX_PAYLOAD : Fld := ⟨0x10000, 16, 16, .ro, 9216⟩
def PORT_CAP_SW_PEERS : Fld := ⟨0x10000, 32, 16, .ro, 1024⟩
/-! CR_CAP (R299) -/
def CR_CAP_RESIDENT : Fld := ⟨0x20000, 0, 13, .ro, 4096⟩
def CR_CAP_CONTEXT_MAX : Fld := ⟨0x20000, 16, 21, .ro, 1048576⟩
def CR_CAP_PATHS_MAX : Fld := ⟨0x20000, 40, 7, .ro, 64⟩
def CR_CAP_WINDOW : Fld := ⟨0x20000, 48, 11, .ro, 1024⟩
/-! CR_CFG (R299) -/
def CR_CFG_STORE : Fld := ⟨0x20008, 0, 1, .ro, 0⟩
def CR_CFG_RETRY_LIMIT : Fld := ⟨0x20008, 4, 4, .ro, 0⟩
def CR_CFG_RTO_US : Fld := ⟨0x20008, 8, 10, .ro, 0⟩
def CR_CFG_ACK_EVERY : Fld := ⟨0x20008, 18, 6, .ro, 0⟩
def CR_CFG_RNR_LIMIT : Fld := ⟨0x20008, 24, 8, .ro, 0⟩
def CR_CFG_PKT_LIFETIME_US : Fld := ⟨0x20008, 32, 16, .ro, 0⟩
/-! CR_KEY_CFG (R299) -/
def CR_KEY_CFG_KEY_LIMIT : Fld := ⟨0x20010, 0, 25, .ro, 0⟩
def CR_KEY_CFG_CONTEXT_LIMIT : Fld := ⟨0x20010, 32, 21, .ro, 0⟩
/-! CR_CC_CFG (R299) -/
def CR_CC_CFG_INIT_RATE : Fld := ⟨0x20018, 0, 16, .ro, 0⟩
def CR_CC_CFG_MAX_RATE : Fld := ⟨0x20018, 16, 16, .ro, 0⟩
def CR_CC_CFG_MIN_RATE : Fld := ⟨0x20018, 32, 8, .ro, 0⟩
def CR_CC_CFG_AI_STEP : Fld := ⟨0x20018, 40, 8, .ro, 0⟩
def CR_CC_CFG_MD : Fld := ⟨0x20018, 48, 8, .ro, 0⟩
/-! CR_STATUS (R299) -/
def CR_STATUS_RESIDENT_USED : Fld := ⟨0x20020, 0, 13, .ro, 0⟩
def CR_STATUS_PR_USED_KIB : Fld := ⟨0x20020, 16, 12, .ro, 0⟩
def CR_STATUS_FETCH_Q : Fld := ⟨0x20020, 32, 10, .ro, 0⟩
/-! CR_PKT_CNT (R299) -/
def CR_PKT_CNT_TX : Fld := ⟨0x20028, 0, 32, .ro, 0⟩
def CR_PKT_CNT_RX : Fld := ⟨0x20028, 32, 32, .ro, 0⟩
/-! CR_RETX_CNT (R299) -/
def CR_RETX_CNT_RESENT : Fld := ⟨0x20030, 0, 32, .ro, 0⟩
def CR_RETX_CNT_TIMEOUTS : Fld := ⟨0x20030, 32, 32, .ro, 0⟩
/-! CR_NAK_CNT (R299) -/
def CR_NAK_CNT_RNR_SENT : Fld := ⟨0x20038, 0, 32, .ro, 0⟩
def CR_NAK_CNT_RNR_RECEIVED : Fld := ⟨0x20038, 32, 32, .ro, 0⟩
/-! CR_FAULT_CNT (R299) -/
def CR_FAULT_CNT_KEY_FAULT : Fld := ⟨0x20040, 0, 32, .ro, 0⟩
def CR_FAULT_CNT_OTHER_NAK : Fld := ⟨0x20040, 32, 32, .ro, 0⟩
/-! CR_CE_CNT (R299) -/
def CR_CE_CNT_MARKED_RX : Fld := ⟨0x20048, 0, 32, .ro, 0⟩
def CR_CE_CNT_RATE_CUTS : Fld := ⟨0x20048, 32, 32, .ro, 0⟩
/-! CR_ERR_STATUS (R299) -/
def CR_ERR_STATUS_KEY_FAULT : Fld := ⟨0x20050, 0, 1, .w1c, 0⟩
def CR_ERR_STATUS_RETRY_LIMIT : Fld := ⟨0x20050, 1, 1, .w1c, 0⟩
def CR_ERR_STATUS_RNR_LIMIT : Fld := ⟨0x20050, 2, 1, .w1c, 0⟩
def CR_ERR_STATUS_ORDERED_CLOSE : Fld := ⟨0x20050, 3, 1, .w1c, 0⟩
def CR_ERR_STATUS_CONTEXT_UE : Fld := ⟨0x20050, 4, 1, .w1c, 0⟩
def CR_ERR_STATUS_PR_UE : Fld := ⟨0x20050, 5, 1, .w1c, 0⟩
def CR_ERR_STATUS_PROTOCOL : Fld := ⟨0x20050, 6, 1, .w1c, 0⟩
/-! CR_ERR_INFO (R299) -/
def CR_ERR_INFO_TICK : Fld := ⟨0x20058, 0, 48, .ro, 0⟩
def CR_ERR_INFO_KIND : Fld := ⟨0x20058, 48, 3, .ro, 0⟩
def CR_ERR_INFO_PARTITION : Fld := ⟨0x20058, 51, 5, .ro, 0⟩
def CR_ERR_INFO_STATUS : Fld := ⟨0x20058, 56, 8, .ro, 0⟩
/-! CR_ERR_QP (R299) -/
def CR_ERR_QP_QPN : Fld := ⟨0x20060, 0, 20, .ro, 0⟩
def CR_ERR_QP_PEER : Fld := ⟨0x20060, 32, 32, .ro, 0⟩
/-! CR_QP_SEL (R299) -/
def CR_QP_SEL_QPN : Fld := ⟨0x20068, 0, 20, .rw, 0⟩
/-! CR_QP_STATE (R299) -/
def CR_QP_STATE_STATE : Fld := ⟨0x20070, 0, 2, .ro, 0⟩
def CR_QP_STATE_RESIDENT : Fld := ⟨0x20070, 2, 1, .ro, 0⟩
def CR_QP_STATE_PINNED : Fld := ⟨0x20070, 3, 1, .ro, 0⟩
def CR_QP_STATE_ORDERED : Fld := ⟨0x20070, 4, 1, .ro, 0⟩
def CR_QP_STATE_PATHS : Fld := ⟨0x20070, 8, 7, .ro, 0⟩
def CR_QP_STATE_RATE : Fld := ⟨0x20070, 16, 16, .ro, 0⟩
def CR_QP_STATE_PEER_POSTCODE : Fld := ⟨0x20070, 32, 32, .ro, 0⟩
/-! CR_QP_PSN (R299) -/
def CR_QP_PSN_TX_NEXT : Fld := ⟨0x20078, 0, 32, .ro, 0⟩
def CR_QP_PSN_RX_BASE : Fld := ⟨0x20078, 32, 32, .ro, 0⟩
/-! CR_QP_COMP (R299) -/
def CR_QP_COMP_COMP_CNT : Fld := ⟨0x20080, 0, 64, .ro, 0⟩
/-! CR_QP_RECV (R299) -/
def CR_QP_RECV_RECV_CNT : Fld := ⟨0x20088, 0, 64, .ro, 0⟩
/-! CR_QP_FREED (R299) -/
def CR_QP_FREED_FREED : Fld := ⟨0x20090, 0, 64, .rw, 0⟩
/-! CR_CTL (R299) -/
def CR_CTL_CLEAR_CNT : Fld := ⟨0x20098, 0, 1, .wo, 0⟩
/-! CR_PART (R299) -/
def CR_PART_QPN_BASE : Fld := ⟨0x20100, 0, 20, .ro, 0⟩
def CR_PART_PR_KIB : Fld := ⟨0x20100, 20, 12, .ro, 0⟩
def CR_PART_QPN_COUNT : Fld := ⟨0x20100, 32, 20, .ro, 0⟩
def CR_PART_PIN_LIMIT : Fld := ⟨0x20100, 52, 12, .ro, 0⟩

/-! PORT_CFG (R271) -/
def PORT_CFG_MODE : Fld := ⟨0x0, 0, 2, .ro, 0⟩
def PORT_CFG_STACK : Fld := ⟨0x0, 2, 1, .ro, 0⟩
def PORT_CFG_LOCK_GROUP : Fld := ⟨0x0, 4, 4, .ro, 0⟩
def PORT_CFG_LOCK_MEMBER : Fld := ⟨0x0, 8, 2, .ro, 0⟩
def PORT_CFG_RETRY_TIMEOUT_US : Fld := ⟨0x0, 16, 7, .ro, 0⟩
/-! PORT_STATUS (R271) -/
def PORT_STATUS_STATE : Fld := ⟨0x8, 0, 3, .ro, 0⟩
def PORT_STATUS_WIDTH : Fld := ⟨0x8, 4, 4, .ro, 0⟩
def PORT_STATUS_LANES_OK : Fld := ⟨0x8, 8, 8, .ro, 0⟩
def PORT_STATUS_IN_LOCK : Fld := ⟨0x8, 16, 1, .ro, 0⟩
def PORT_STATUS_PEER_POSTCODE : Fld := ⟨0x8, 32, 32, .ro, 0⟩
/-! PORT_SEC (R271) -/
def PORT_SEC_KEY_EPOCH : Fld := ⟨0x10, 0, 32, .ro, 0⟩
def PORT_SEC_KEY_AGE_S : Fld := ⟨0x10, 32, 16, .ro, 0⟩
/-! PORT_FRAME_CNT (R271) -/
def PORT_FRAME_CNT_TX : Fld := ⟨0x18, 0, 32, .ro, 0⟩
def PORT_FRAME_CNT_RX : Fld := ⟨0x18, 32, 32, .ro, 0⟩
/-! PORT_RETRY_CNT (R271) -/
def PORT_RETRY_CNT_RESENT : Fld := ⟨0x20, 0, 32, .ro, 0⟩
def PORT_RETRY_CNT_NAKS : Fld := ⟨0x20, 32, 16, .ro, 0⟩
def PORT_RETRY_CNT_RETRAINS : Fld := ⟨0x20, 48, 16, .ro, 0⟩
/-! PORT_DROP_CNT (R271) -/
def PORT_DROP_CNT_EXPIRED : Fld := ⟨0x28, 0, 32, .ro, 0⟩
def PORT_DROP_CNT_NO_ROUTE : Fld := ⟨0x28, 32, 16, .ro, 0⟩
def PORT_DROP_CNT_SPAN : Fld := ⟨0x28, 48, 8, .ro, 0⟩
def PORT_DROP_CNT_BAD_HEADER : Fld := ⟨0x28, 56, 8, .ro, 0⟩
/-! PORT_SEC_CNT (R271) -/
def PORT_SEC_CNT_FRANK_FAIL : Fld := ⟨0x30, 0, 32, .ro, 0⟩
def PORT_SEC_CNT_REPLAY : Fld := ⟨0x30, 32, 16, .ro, 0⟩
def PORT_SEC_CNT_CHECK_FAIL : Fld := ⟨0x30, 48, 16, .ro, 0⟩
/-! PORT_DLN_CNT (R271) -/
def PORT_DLN_CNT_SENT : Fld := ⟨0x38, 0, 32, .ro, 0⟩
def PORT_DLN_CNT_SUPPRESSED : Fld := ⟨0x38, 32, 32, .ro, 0⟩
/-! PORT_CREDIT (R271) -/
def PORT_CREDIT_CONTROL : Fld := ⟨0x40, 0, 16, .ro, 0⟩
def PORT_CREDIT_EXPRESS : Fld := ⟨0x40, 16, 16, .ro, 0⟩
def PORT_CREDIT_FIRST : Fld := ⟨0x40, 32, 16, .ro, 0⟩
def PORT_CREDIT_PARCEL : Fld := ⟨0x40, 48, 16, .ro, 0⟩
/-! PORT_ERR_STATUS (R271) -/
def PORT_ERR_STATUS_LANE_FAULT : Fld := ⟨0x48, 0, 1, .w1c, 0⟩
def PORT_ERR_STATUS_WIDTH_CHANGED : Fld := ⟨0x48, 1, 1, .w1c, 0⟩
def PORT_ERR_STATUS_RETRAIN : Fld := ⟨0x48, 2, 1, .w1c, 0⟩
def PORT_ERR_STATUS_FAILED : Fld := ⟨0x48, 3, 1, .w1c, 0⟩
def PORT_ERR_STATUS_KEY_FAIL : Fld := ⟨0x48, 4, 1, .w1c, 0⟩
def PORT_ERR_STATUS_FRANK_BURST : Fld := ⟨0x48, 5, 1, .w1c, 0⟩
def PORT_ERR_STATUS_LOCK_SKIP : Fld := ⟨0x48, 6, 1, .w1c, 0⟩
def PORT_ERR_STATUS_STACK_MISMATCH : Fld := ⟨0x48, 7, 1, .w1c, 0⟩
def PORT_ERR_STATUS_CHECK_FAIL : Fld := ⟨0x48, 8, 1, .w1c, 0⟩
/-! PORT_ERR_INFO (R271) -/
def PORT_ERR_INFO_TICK : Fld := ⟨0x50, 0, 48, .ro, 0⟩
def PORT_ERR_INFO_KIND : Fld := ⟨0x50, 48, 4, .ro, 0⟩
def PORT_ERR_INFO_LANE : Fld := ⟨0x50, 52, 3, .ro, 0⟩
/-! PORT_CTL (R271) -/
def PORT_CTL_CLEAR_CNT : Fld := ⟨0x58, 0, 1, .wo, 0⟩
def PORT_CTL_RETRAIN : Fld := ⟨0x58, 1, 1, .wo, 0⟩
def PORT_CTL_REKEY : Fld := ⟨0x58, 2, 1, .wo, 0⟩

/-! MIG_CAP (R212) -/
def MIG_CAP_MOVES_MAX : Fld := ⟨0x8000, 0, 8, .ro, 16⟩
def MIG_CAP_TILE_KIB : Fld := ⟨0x8000, 8, 8, .ro, 8⟩
def MIG_CAP_QUEUE_MAX : Fld := ⟨0x8000, 16, 9, .ro, 256⟩
/-! MIG_CFG (R212) -/
def MIG_CFG_POLICY : Fld := ⟨0x8008, 0, 2, .ro, 0⟩
def MIG_CFG_LOW_PCT : Fld := ⟨0x8008, 8, 6, .ro, 0⟩
def MIG_CFG_HIGH_PCT : Fld := ⟨0x8008, 16, 6, .ro, 0⟩
def MIG_CFG_SWITCH_LEAD : Fld := ⟨0x8008, 24, 8, .ro, 0⟩
def MIG_CFG_TICK_GRANULES : Fld := ⟨0x8008, 32, 8, .ro, 0⟩
def MIG_CFG_HEAT_DECAY_LOG2 : Fld := ⟨0x8008, 40, 5, .ro, 0⟩
def MIG_CFG_SWAPIN_COUNT : Fld := ⟨0x8008, 48, 16, .ro, 0⟩
/-! MIG_TIMEOUT (R212) -/
def MIG_TIMEOUT_TIMEOUT_US : Fld := ⟨0x8010, 0, 17, .ro, 0⟩
/-! MIG_STATUS (R212) -/
def MIG_STATUS_ACTIVE : Fld := ⟨0x8018, 0, 5, .ro, 0⟩
def MIG_STATUS_QUEUED : Fld := ⟨0x8018, 8, 9, .ro, 0⟩
def MIG_STATUS_PAUSED : Fld := ⟨0x8018, 17, 1, .ro, 0⟩
def MIG_STATUS_T1_USED : Fld := ⟨0x8018, 32, 24, .ro, 0⟩
/-! MIG_MOVE_CNT (R212) -/
def MIG_MOVE_CNT_MOVED_OUT : Fld := ⟨0x8020, 0, 32, .ro, 0⟩
def MIG_MOVE_CNT_MOVED_IN : Fld := ⟨0x8020, 32, 32, .ro, 0⟩
/-! MIG_SWAP_CNT (R212) -/
def MIG_SWAP_CNT_SWAPPED_OUT : Fld := ⟨0x8028, 0, 32, .ro, 0⟩
def MIG_SWAP_CNT_SWAPPED_IN : Fld := ⟨0x8028, 32, 32, .ro, 0⟩
/-! MIG_DROP_CNT (R212) -/
def MIG_DROP_CNT_DROPPED : Fld := ⟨0x8030, 0, 32, .ro, 0⟩
def MIG_DROP_CNT_FAILED : Fld := ⟨0x8030, 32, 32, .ro, 0⟩
/-! MIG_STAGE_CNT (R212) -/
def MIG_STAGE_CNT_FROM_T2 : Fld := ⟨0x8038, 0, 32, .ro, 0⟩
def MIG_STAGE_CNT_FROM_T3 : Fld := ⟨0x8038, 32, 32, .ro, 0⟩
/-! MIG_ERR_STATUS (R212) -/
def MIG_ERR_STATUS_HASH_MISMATCH : Fld := ⟨0x8040, 0, 1, .w1c, 0⟩
def MIG_ERR_STATUS_TIMEOUT : Fld := ⟨0x8040, 1, 1, .w1c, 0⟩
def MIG_ERR_STATUS_T2_LOST : Fld := ⟨0x8040, 2, 1, .w1c, 0⟩
def MIG_ERR_STATUS_T3_LOST : Fld := ⟨0x8040, 3, 1, .w1c, 0⟩
def MIG_ERR_STATUS_T3_POISON : Fld := ⟨0x8040, 4, 1, .w1c, 0⟩
def MIG_ERR_STATUS_SRC_UE : Fld := ⟨0x8040, 5, 1, .w1c, 0⟩
def MIG_ERR_STATUS_CANCELLED : Fld := ⟨0x8040, 6, 1, .w1c, 0⟩
/-! MIG_ERR_INFO (R212) -/
def MIG_ERR_INFO_TICK : Fld := ⟨0x8048, 0, 48, .ro, 0⟩
def MIG_ERR_INFO_KIND : Fld := ⟨0x8048, 48, 3, .ro, 0⟩
def MIG_ERR_INFO_PARTITION : Fld := ⟨0x8048, 51, 5, .ro, 0⟩
/-! MIG_ERR_SEQ (R212) -/
def MIG_ERR_SEQ_SEQ : Fld := ⟨0x8050, 0, 64, .ro, 0⟩
/-! MIG_ERR_SLOT (R212) -/
def MIG_ERR_SLOT_SLOT : Fld := ⟨0x8058, 0, 32, .ro, 0⟩
def MIG_ERR_SLOT_PEER : Fld := ⟨0x8058, 32, 32, .ro, 0⟩
/-! MIG_CTL (R212) -/
def MIG_CTL_CLEAR_CNT : Fld := ⟨0x8060, 0, 1, .wo, 0⟩
def MIG_CTL_PAUSE : Fld := ⟨0x8060, 1, 1, .rw, 0⟩
/-! HBM_CAP (R226) -/
def HBM_CAP_STACK_GIB : Fld := ⟨0x0, 0, 8, .ro, 48⟩
def HBM_CAP_CHANNELS : Fld := ⟨0x0, 8, 8, .ro, 16⟩
def HBM_CAP_PCS : Fld := ⟨0x0, 16, 8, .ro, 32⟩
def HBM_CAP_RATE_MBPS : Fld := ⟨0x0, 24, 16, .ro, 9600⟩
def HBM_CAP_ALLOC_GRANULES : Fld := ⟨0x0, 40, 24, .ro, 12580864⟩
/-! HBM_CFG (R226) -/
def HBM_CFG_CE_RETIRE : Fld := ⟨0x8, 0, 8, .rw, 4⟩
def HBM_CFG_CE_WINDOW_LOG2 : Fld := ⟨0x8, 8, 5, .rw, 24⟩
def HBM_CFG_PATROL_HOURS : Fld := ⟨0x8, 16, 8, .rw, 24⟩
/-! HBM_STATUS (R226) -/
def HBM_STATUS_STATE : Fld := ⟨0x10, 0, 2, .ro, 0⟩
def HBM_STATUS_HOT : Fld := ⟨0x10, 2, 1, .ro, 0⟩
def HBM_STATUS_CRITICAL : Fld := ⟨0x10, 3, 1, .ro, 0⟩
def HBM_STATUS_FAILED_CH : Fld := ⟨0x10, 4, 16, .ro, 0⟩
/-! HBM_TEMP (R226) -/
def HBM_TEMP_NOW_C : Fld := ⟨0x18, 0, 8, .ro, 0⟩
def HBM_TEMP_MAX_C : Fld := ⟨0x18, 8, 8, .ro, 0⟩
def HBM_TEMP_REFRESH_X2 : Fld := ⟨0x18, 16, 1, .ro, 0⟩
/-! HBM_ERR_CNT (R226) -/
def HBM_ERR_CNT_CORRECTED : Fld := ⟨0x20, 0, 32, .ro, 0⟩
def HBM_ERR_CNT_UNCORRECTED : Fld := ⟨0x20, 32, 32, .ro, 0⟩
/-! HBM_RFM_CNT (R226) -/
def HBM_RFM_CNT_RFM : Fld := ⟨0x28, 0, 64, .ro, 0⟩
/-! HBM_RETIRE (R226) -/
def HBM_RETIRE_RETIRED : Fld := ⟨0x30, 0, 15, .ro, 0⟩
def HBM_RETIRE_PENDING : Fld := ⟨0x30, 16, 15, .ro, 0⟩
/-! HBM_ERR_STATUS (R226) -/
def HBM_ERR_STATUS_CE : Fld := ⟨0x38, 0, 1, .w1c, 0⟩
def HBM_ERR_STATUS_UE : Fld := ⟨0x38, 1, 1, .w1c, 0⟩
def HBM_ERR_STATUS_ADDR_TAG : Fld := ⟨0x38, 2, 1, .w1c, 0⟩
def HBM_ERR_STATUS_RETIRED : Fld := ⟨0x38, 3, 1, .w1c, 0⟩
def HBM_ERR_STATUS_TRAIN_FAIL : Fld := ⟨0x38, 4, 1, .w1c, 0⟩
def HBM_ERR_STATUS_HOT : Fld := ⟨0x38, 5, 1, .w1c, 0⟩
def HBM_ERR_STATUS_CRITICAL : Fld := ⟨0x38, 6, 1, .w1c, 0⟩
def HBM_ERR_STATUS_RETIRE_FULL : Fld := ⟨0x38, 7, 1, .w1c, 0⟩
/-! HBM_ERR_INFO (R226) -/
def HBM_ERR_INFO_TICK : Fld := ⟨0x40, 0, 48, .ro, 0⟩
def HBM_ERR_INFO_KIND : Fld := ⟨0x40, 48, 3, .ro, 0⟩
def HBM_ERR_INFO_PC : Fld := ⟨0x40, 51, 5, .ro, 0⟩
def HBM_ERR_INFO_BANK : Fld := ⟨0x40, 56, 6, .ro, 0⟩
/-! HBM_ERR_ADDR (R226) -/
def HBM_ERR_ADDR_GRANULE : Fld := ⟨0x48, 0, 24, .ro, 0⟩
def HBM_ERR_ADDR_OFFSET : Fld := ⟨0x48, 24, 12, .ro, 0⟩
def HBM_ERR_ADDR_SYMBOL : Fld := ⟨0x48, 36, 6, .ro, 0⟩
/-! HBM_CTL (R226) -/
def HBM_CTL_CLEAR_CNT : Fld := ⟨0x50, 0, 1, .wo, 0⟩
def HBM_CTL_PATROL_NOW : Fld := ⟨0x50, 1, 1, .wo, 0⟩
/-! NME_CAP (R226) -/
def NME_CAP_OPS : Fld := ⟨0x4000, 0, 4, .ro, 15⟩
def NME_CAP_ACTIVE_MAX : Fld := ⟨0x4000, 4, 4, .ro, 4⟩
def NME_CAP_QUEUE_MAX : Fld := ⟨0x4000, 8, 8, .ro, 64⟩
def NME_CAP_FILL_GBPS : Fld := ⟨0x4000, 16, 16, .ro, 1100⟩
/-! NME_STATUS (R226) -/
def NME_STATUS_ACTIVE : Fld := ⟨0x4008, 0, 3, .ro, 0⟩
def NME_STATUS_QUEUED : Fld := ⟨0x4008, 8, 7, .ro, 0⟩
def NME_STATUS_SLOTS_LAST : Fld := ⟨0x4008, 32, 19, .ro, 0⟩
/-! NME_OP_CNT (R226) -/
def NME_OP_CNT_DONE : Fld := ⟨0x4010, 0, 32, .ro, 0⟩
def NME_OP_CNT_FAILED : Fld := ⟨0x4010, 32, 32, .ro, 0⟩
/-! NME_BYTE_CNT (R226) -/
def NME_BYTE_CNT_BYTES : Fld := ⟨0x4018, 0, 64, .ro, 0⟩
/-! NME_ERR_STATUS (R226) -/
def NME_ERR_STATUS_POISON : Fld := ⟨0x4020, 0, 1, .w1c, 0⟩
def NME_ERR_STATUS_REMOTE : Fld := ⟨0x4020, 1, 1, .w1c, 0⟩
def NME_ERR_STATUS_ABORTED : Fld := ⟨0x4020, 2, 1, .w1c, 0⟩
/-! NME_ERR_INFO (R226) -/
def NME_ERR_INFO_TICK : Fld := ⟨0x4028, 0, 48, .ro, 0⟩
def NME_ERR_INFO_KIND : Fld := ⟨0x4028, 48, 3, .ro, 0⟩
def NME_ERR_INFO_PARTITION : Fld := ⟨0x4028, 51, 5, .ro, 0⟩
def NME_ERR_INFO_STATUS : Fld := ⟨0x4028, 56, 8, .ro, 0⟩
/-! NME_CTL (R226) -/
def NME_CTL_CLEAR_CNT : Fld := ⟨0x4030, 0, 1, .wo, 0⟩

/-! CORE_CAP (R118) -/
def CORE_CAP_RECIPES : Fld := ⟨0x0, 0, 6, .ro, 63⟩
def CORE_CAP_FOLD : Fld := ⟨0x0, 6, 1, .ro, 0⟩
def CORE_CAP_ROWS : Fld := ⟨0x0, 8, 8, .ro, 64⟩
def CORE_CAP_TILE_KEYS : Fld := ⟨0x0, 16, 8, .ro, 64⟩
def CORE_CAP_SCRATCH_MIB : Fld := ⟨0x0, 24, 8, .ro, 4⟩
/-! CORE_CFG (R118) -/
def CORE_CFG_RECIPES_EN : Fld := ⟨0x8, 0, 6, .ro, 0⟩
def CORE_CFG_FENCE_THRESHOLD : Fld := ⟨0x8, 8, 8, .ro, 0⟩
def CORE_CFG_PARTITION : Fld := ⟨0x8, 16, 5, .ro, 0⟩
/-! CORE_CTL (R118) -/
def CORE_CTL_FENCE : Fld := ⟨0x10, 0, 1, .w1s, 0⟩
def CORE_CTL_UNFENCE : Fld := ⟨0x10, 1, 1, .wo, 0⟩
def CORE_CTL_CLEAR_CNT : Fld := ⟨0x10, 2, 1, .wo, 0⟩
/-! CORE_STATUS (R118) -/
def CORE_STATUS_STATE : Fld := ⟨0x18, 0, 3, .ro, 0⟩
def CORE_STATUS_PASSQ : Fld := ⟨0x18, 3, 3, .ro, 0⟩
def CORE_STATUS_FENCE_ABFT : Fld := ⟨0x18, 6, 1, .ro, 0⟩
def CORE_STATUS_ABFT_RUN : Fld := ⟨0x18, 8, 8, .ro, 0⟩
/-! CORE_PASS_CNT (R118) -/
def CORE_PASS_CNT_PASSES : Fld := ⟨0x20, 0, 64, .ro, 0⟩
/-! CORE_BUSY_CYC (R118) -/
def CORE_BUSY_CYC_CYCLES : Fld := ⟨0x28, 0, 64, .ro, 0⟩
/-! CORE_ROWS_CNT (R118) -/
def CORE_ROWS_CNT_ROWS : Fld := ⟨0x30, 0, 64, .ro, 0⟩
/-! CORE_ABFT_CNT (R118) -/
def CORE_ABFT_CNT_COUNT : Fld := ⟨0x38, 0, 32, .ro, 0⟩
/-! CORE_SKIP_CNT (R118) -/
def CORE_SKIP_CNT_COUNT : Fld := ⟨0x40, 0, 32, .ro, 0⟩
/-! CORE_NAN_CNT (R118) -/
def CORE_NAN_CNT_COUNT : Fld := ⟨0x48, 0, 32, .ro, 0⟩
/-! CORE_CANCEL_CNT (R118) -/
def CORE_CANCEL_CNT_COUNT : Fld := ⟨0x50, 0, 32, .ro, 0⟩
/-! CORE_ERR_STATUS (R118) -/
def CORE_ERR_STATUS_ABFT : Fld := ⟨0x58, 0, 1, .w1c, 0⟩
def CORE_ERR_STATUS_SPAD_CE : Fld := ⟨0x58, 1, 1, .w1c, 0⟩
def CORE_ERR_STATUS_SPAD_UE : Fld := ⟨0x58, 2, 1, .w1c, 0⟩
def CORE_ERR_STATUS_CANCEL : Fld := ⟨0x58, 3, 1, .w1c, 0⟩
def CORE_ERR_STATUS_FOLD_DAMAGE : Fld := ⟨0x58, 4, 1, .w1c, 0⟩
/-! CORE_ERR_TICK (R118) -/
def CORE_ERR_TICK_TICK : Fld := ⟨0x60, 0, 48, .ro, 0⟩
def CORE_ERR_TICK_KIND : Fld := ⟨0x60, 48, 3, .ro, 0⟩
/-! CORE_ERR_INFO (R118) -/
def CORE_ERR_INFO_ARRAY : Fld := ⟨0x68, 0, 1, .ro, 0⟩
def CORE_ERR_INFO_ROW : Fld := ⟨0x68, 1, 6, .ro, 0⟩
def CORE_ERR_INFO_BLOCK : Fld := ⟨0x68, 7, 5, .ro, 0⟩
def CORE_ERR_INFO_TILE : Fld := ⟨0x68, 12, 4, .ro, 0⟩
def CORE_ERR_INFO_EXPECTED : Fld := ⟨0x68, 16, 24, .ro, 0⟩
def CORE_ERR_INFO_OBSERVED : Fld := ⟨0x68, 40, 24, .ro, 0⟩
/-! CORE_ERR_PAGE (R118) -/
def CORE_ERR_PAGE_QUAD : Fld := ⟨0x70, 0, 5, .ro, 0⟩
def CORE_ERR_PAGE_GRANULE : Fld := ⟨0x70, 5, 24, .ro, 0⟩

/-! PB_CFG (R328) -/
def PB_CFG_OWNER : Fld := ⟨0x0, 0, 6, .rw, 0⟩
def PB_CFG_CMD_LOG2 : Fld := ⟨0x0, 8, 5, .rw, 0⟩
def PB_CFG_CPL_LOG2 : Fld := ⟨0x0, 13, 5, .rw, 0⟩
def PB_CFG_RR_LOG2 : Fld := ⟨0x0, 18, 4, .rw, 0⟩
def PB_CFG_IRQ_EN : Fld := ⟨0x0, 22, 1, .rw, 0⟩
def PB_CFG_VECTOR : Fld := ⟨0x0, 24, 11, .rw, 0⟩
def PB_CFG_IRQ_HOLDOFF_US : Fld := ⟨0x0, 40, 8, .rw, 0⟩
/-! PB_CMD_BASE (R328) -/
def PB_CMD_BASE_BASE : Fld := ⟨0x8, 0, 64, .rw, 0⟩
/-! PB_CPL_BASE (R328) -/
def PB_CPL_BASE_BASE : Fld := ⟨0x10, 0, 64, .rw, 0⟩
/-! PB_RR_BASE (R328) -/
def PB_RR_BASE_BASE : Fld := ⟨0x18, 0, 64, .rw, 0⟩
/-! PB_CTL (R328) -/
def PB_CTL_ENABLE : Fld := ⟨0x20, 0, 1, .wo, 0⟩
def PB_CTL_DISABLE : Fld := ⟨0x20, 1, 1, .wo, 0⟩
def PB_CTL_RESET : Fld := ⟨0x20, 2, 1, .wo, 0⟩
/-! PB_TAIL (R328) -/
def PB_TAIL_TAIL : Fld := ⟨0x28, 0, 32, .rw, 0⟩
/-! PB_HEAD (R328) -/
def PB_HEAD_HEAD : Fld := ⟨0x30, 0, 32, .ro, 0⟩
def PB_HEAD_DONE : Fld := ⟨0x30, 32, 32, .ro, 0⟩
/-! PB_CPL_FREE (R328) -/
def PB_CPL_FREE_CPL_FREE : Fld := ⟨0x38, 0, 32, .rw, 0⟩
/-! PB_RR_IDX (R328) -/
def PB_RR_IDX_RR_TAIL : Fld := ⟨0x40, 0, 32, .ro, 0⟩
def PB_RR_IDX_RR_FREE : Fld := ⟨0x40, 32, 32, .rw, 0⟩
/-! PB_STATUS (R328) -/
def PB_STATUS_STATE : Fld := ⟨0x48, 0, 2, .ro, 0⟩
def PB_STATUS_ERR_CODE : Fld := ⟨0x48, 4, 4, .ro, 0⟩
def PB_STATUS_INFLIGHT : Fld := ⟨0x48, 8, 17, .ro, 0⟩
/-! PB_CNT (R328) -/
def PB_CNT_COMMANDS : Fld := ⟨0x50, 0, 32, .ro, 0⟩
def PB_CNT_REPLY_DROP : Fld := ⟨0x50, 32, 16, .ro, 0⟩
def PB_CNT_CPL_LOST : Fld := ⟨0x50, 48, 16, .ro, 0⟩

/-- Part 0 of the hub registers, addressed in BAR0. -/
def hubRows0 : List RegRow := [
  ⟨0x0, 0, 1, [ID_PART_PART_CODE, ID_PART_STEPPING]⟩,
  ⟨0x8, 0, 1, [CAP_UNITS_FOLD, CAP_UNITS_GZ_CONTENT, CAP_UNITS_NME, CAP_UNITS_SHEETS, CAP_UNITS_QUADS]⟩,
  ⟨0x10000, 0, 1, [TICK_PERIOD_PERIOD_NS]⟩,
  ⟨0x10008, 0, 1, [TICK_ORIGIN_ORIGIN_NS]⟩,
  ⟨0x10010, 0, 1, [TICK_NOW_NUMBER, TICK_NOW_RUNNING]⟩,
  ⟨0x10018, 0, 1, [TICK_BUDGET_CYCLES]⟩,
  ⟨0x10020, 0, 1, [TICK_OVERRUN_CNT_COUNT]⟩,
  ⟨0x10028, 0, 1, [TICK_STATUS_OVERRUN, TICK_STATUS_PARAM_MISMATCH, TICK_STATUS_PERIOD_CHANGED]⟩,
  ⟨0x10100, 0, 1, [MER_NOW_NS]⟩,
  ⟨0x10108, 0, 1, [MER_NOW_FRAC_FRAC]⟩,
  ⟨0x10110, 0, 1, [MER_STATE_STATE, MER_STATE_ROLE, MER_STATE_UPSTREAM_PORT, MER_STATE_ALTERNATE,
      MER_STATE_FREQ_SRC, MER_STATE_FABCLK_SEL]⟩,
  ⟨0x10118, 0, 1, [MER_OFFSET_OFFSET]⟩,
  ⟨0x10120, 0, 1, [MER_ERR_EST_ERR_NS, MER_ERR_EST_HOPS]⟩,
  ⟨0x10128, 0, 1, [MER_GUARD_CHART_NS, MER_GUARD_EFFECTIVE_NS]⟩,
  ⟨0x10130, 0, 1, [MER_HOLDOVER_LIMIT_NS, MER_HOLDOVER_ELAPSED_MS]⟩,
  ⟨0x10138, 0, 1, [MER_PPS_CFG_OUT_EN, MER_PPS_CFG_IN_USED]⟩,
  ⟨0x10140, 0, 1, [MER_EVENTS_STEPS, MER_EVENTS_HOLDOVERS]⟩,
  ⟨0x10148, 0, 1, [MER_STATUS_LOST_UPSTREAM, MER_STATUS_UNLOCKED_ENTERED, MER_STATUS_STEPPED,
      MER_STATUS_PPS_MISSING, MER_STATUS_SKEW_EXCEEDED]⟩,
  ⟨0x10, 0, 1, [ID_SERIAL_SERIAL]⟩,
  ⟨0x18, 0, 1, [ID_POSTCODE_POSTCODE, ID_POSTCODE_VALID]⟩]
/-- Part 1 of the hub registers, addressed in BAR0. -/
def hubRows1 : List RegRow := [
  ⟨0x20, 0, 1, [CAP_HOST_POST_BOXES, CAP_HOST_MODULES, CAP_HOST_DIR_LINES]⟩,
  ⟨0x60000, 0, 1, [HP_STATUS_LINK, HP_STATUS_MODULES, HP_STATUS_IDE_ON, HP_STATUS_HOST, HP_STATUS_MISSED,
      HP_STATUS_RATE]⟩,
  ⟨0x60008, 0, 1, [HP_CFG_PERIOD_MS, HP_CFG_ORPHAN]⟩,
  ⟨0x60010, 0, 1, [HP_HEARTBEAT_BEAT]⟩,
  ⟨0x60018, 0, 1, [HP_HB_CNT_BEATS, HP_HB_CNT_MISSES, HP_HB_CNT_FAILURES]⟩,
  ⟨0x60020, 0, 1, [HP_CTL_ADOPT]⟩,
  ⟨0x60028, 0, 1, [HP_T3_BASE_BASE]⟩,
  ⟨0x60030, 0, 1, [HP_T3_SIZE_GRANULES, HP_T3_SIZE_EN]⟩,
  ⟨0x60038, 0, 1, [HP_NOTICE_BASE_BASE]⟩,
  ⟨0x60040, 0, 1, [HP_NOTICE_IDX_LOG2, HP_NOTICE_IDX_EN, HP_NOTICE_IDX_TAIL, HP_NOTICE_IDX_FREE]⟩,
  ⟨0x60048, 0, 1, [HP_ERR_STATUS_LINK_DOWN, HP_ERR_STATUS_MODULE_DOWN, HP_ERR_STATUS_HB_MISSED,
      HP_ERR_STATUS_HOST_FAILED, HP_ERR_STATUS_HDM_HOLE, HP_ERR_STATUS_WRITE_DENIED, HP_ERR_STATUS_BAD_ACCESS,
      HP_ERR_STATUS_REPLY_DROP]⟩,
  ⟨0x60050, 0, 1, [HP_ERR_INFO_TICK, HP_ERR_INFO_KIND]⟩,
  ⟨0x60058, 0, 1, [HP_ERR_ADDR_ADDR]⟩,
  ⟨0x60800, 0, 1, [DIR_CFG_RECALL_TIMEOUT_US]⟩,
  ⟨0x60808, 0, 1, [DIR_STATUS_USED, DIR_STATUS_EM]⟩,
  ⟨0x60810, 0, 1, [DIR_CNT_RECALLS, DIR_CNT_SNOOPS]⟩,
  ⟨0x60818, 0, 1, [DIR_ERR_STATUS_RECALL_TIMEOUT, DIR_ERR_STATUS_FAILURE_POISON, DIR_ERR_STATUS_PARITY]⟩,
  ⟨0x60820, 0, 1, [DIR_ERR_ADDR_ADDR, DIR_ERR_ADDR_POISONED]⟩,
  ⟨0x70000, 0, 1, [POOL_CAP_EXTENTS]⟩,
  ⟨0x70008, 0, 1, [POOL_CFG_LEASE_DEFAULT_MS]⟩]
/-- Part 2 of the hub registers, addressed in BAR0. -/
def hubRows2 : List RegRow := [
  ⟨0x70010, 0, 1, [POOL_STATUS_GRANTED, POOL_STATUS_CLOSING, POOL_STATUS_GRANULES]⟩,
  ⟨0x70018, 0, 1, [POOL_CNT_GRANTS, POOL_CNT_RENEWALS]⟩,
  ⟨0x70020, 0, 1, [POOL_WD_CNT_BY_COMMAND, POOL_WD_CNT_BY_EXPIRY, POOL_WD_CNT_BY_OTHER, POOL_WD_CNT_RENEW_REFUSED]⟩,
  ⟨0x70028, 0, 1, [POOL_ERR_STATUS_EXPIRED, POOL_ERR_STATUS_RENEW_REFUSED, POOL_ERR_STATUS_SCRUB_STALLED]⟩,
  ⟨0x70030, 0, 1, [POOL_ERR_INFO_TICK, POOL_ERR_INFO_KIND, POOL_ERR_INFO_EXTENT_ID]⟩,
  ⟨0x70038, 0, 1, [POOL_CTL_CLEAR_CNT]⟩,
  ⟨0x70040, 0, 1, [POOL_SEL_EXTENT_ID]⟩,
  ⟨0x70048, 0, 1, [POOL_EXT_STATE_STATE, POOL_EXT_STATE_PARTITION, POOL_EXT_STATE_RIGHTS,
      POOL_EXT_STATE_GRANTEE_LEN, POOL_EXT_STATE_GRANTEE_PREFIX]⟩,
  ⟨0x70050, 0, 1, [POOL_EXT_BASE_BASE]⟩,
  ⟨0x70058, 0, 1, [POOL_EXT_SIZE_SIZE]⟩,
  ⟨0x70060, 0, 1, [POOL_EXT_EXPIRY_EXPIRY]⟩,
  ⟨0x70068, 0, 1, [POOL_EXT_KEY_INDEX_GEN]⟩,
  ⟨0x70100, 8, 32, [POOL_PART_QUOTA, POOL_PART_USED]⟩,
  ⟨0x70200, 8, 32, [POOL_HOST_HOST_GRANULES, POOL_HOST_POOL_SERVER, POOL_HOST_PARTITION]⟩,
  ⟨0x20000, 0, 1, [CHART_CAP_CHART_MAX_MIB, CHART_CAP_OVERLAY_MAX_KIB, CHART_CAP_STAGED_MAX,
      CHART_CAP_FORMAT_VERSION]⟩,
  ⟨0x20008, 0, 1, [CHART_STATUS_STATE, CHART_STATUS_STAGED, CHART_STATUS_RETIRE_PENDING,
      CHART_STATUS_EPOCH_MISMATCH, CHART_STATUS_REJECTED]⟩,
  ⟨0x20010, 0, 1, [CHART_EPOCH_EPOCH, CHART_EPOCH_RETENTION_TICKS]⟩,
  ⟨0x20018, 0, 1, [CHART_SWITCH_TICK]⟩,
  ⟨0x20020, 0, 1, [CHART_SWITCH_NS_NS]⟩,
  ⟨0x20028, 0, 1, [CHART_SPAN_SPAN_NS]⟩]
/-- Part 3 of the hub registers, addressed in BAR0. -/
def hubRows3 : List RegRow := [
  ⟨0x20030, 0, 1, [CHART_ID_SERIAL]⟩,
  ⟨0x20038, 0, 1, [CHART_OVL_ID_SERIAL]⟩,
  ⟨0x20040, 0, 1, [CHART_SEC_VER_IN_FORCE, CHART_SEC_VER_COUNTER]⟩,
  ⟨0x20048, 0, 1, [CHART_SRC_ADDR]⟩,
  ⟨0x20050, 0, 1, [CHART_LEN_BYTES]⟩,
  ⟨0x20058, 0, 1, [CHART_CTL_LOAD]⟩,
  ⟨0x20060, 0, 1, [CHART_REJECT_CODE, CHART_REJECT_SECTION, CHART_REJECT_RTYPE, CHART_REJECT_INDEX,
      CHART_REJECT_OVERLAY]⟩,
  ⟨0x20068, 0, 1, [CHART_CNT_APPLIED, CHART_CNT_REJECTED]⟩,
  ⟨0x20070, 0, 1, [CHART_RETIRE_CNT_LEAVES]⟩,
  ⟨0x20100, 8, 4, [CHART_STAGED_NAMED_TICK, CHART_STAGED_NEW_EPOCH]⟩,
  ⟨0x80000, 0, 1, [PART_CAP_PARTITIONS]⟩,
  ⟨0x80008, 0, 1, [PART_PORT_CFG_MODE, PART_PORT_CFG_TRANSIT_WEIGHT, PART_PORT_CFG_TRANSIT_PCT]⟩,
  ⟨0x80010, 0, 1, [PART_CNT_CREATED, PART_CNT_DESTROYED]⟩,
  ⟨0x80018, 0, 1, [PART_ERR_STATUS_SCRUB_STALLED, PART_ERR_STATUS_DESTROY_ABORTED]⟩,
  ⟨0x80100, 16, 32, [PART_STATE_STATE, PART_STATE_GEN, PART_STATE_QUADS]⟩,
  ⟨0x80108, 16, 32, [PART_ALLOWED_QUADS, PART_ALLOWED_FENCE_THRESHOLD]⟩,
  ⟨0x80400, 8, 32, [PART_QUAD_STATE, PART_QUAD_OWNER, PART_QUAD_SCRUB_LEFT]⟩,
  ⟨0x30000, 0, 1, [SEC_STATE_STATE, SEC_STATE_LEVEL, SEC_STATE_FREE_LEVEL, SEC_STATE_DL3_PENDING, SEC_STATE_TOKEN,
      SEC_STATE_PARTITIONS]⟩,
  ⟨0x30008, 0, 1, [SEC_TOKEN_SERIAL]⟩,
  ⟨0x30010, 0, 1, [SEC_TOKEN_END_NOT_AFTER]⟩]
/-- Part 4 of the hub registers, addressed in BAR0. -/
def hubRows4 : List RegRow := [
  ⟨0x30018, 0, 1, [SEC_NONCE_NONCE]⟩,
  ⟨0x30020, 0, 1, [SEC_CMD_ADDR_ADDR]⟩,
  ⟨0x30028, 0, 1, [SEC_CMD_LEN_BYTES]⟩,
  ⟨0x30030, 0, 1, [SEC_CMD_OP, SEC_CMD_ARG, SEC_CMD_GO]⟩,
  ⟨0x30038, 0, 1, [SEC_CMD_STATUS_BUSY, SEC_CMD_STATUS_STATUS, SEC_CMD_STATUS_DETAIL]⟩,
  ⟨0x30040, 8, 3, [SEC_ROLLBACK_COUNTER, SEC_ROLLBACK_IN_FORCE]⟩,
  ⟨0x30058, 0, 1, [SEC_LMS_NEXT, SEC_LMS_RES_END]⟩,
  ⟨0x30060, 0, 1, [SEC_ERR_STATUS_PUF_FAIL, SEC_ERR_STATUS_UNSEAL_FAIL, SEC_ERR_STATUS_SIG_FAIL,
      SEC_ERR_STATUS_ROLLBACK, SEC_ERR_STATUS_LMS_LOW, SEC_ERR_STATUS_LMS_EXHAUSTED, SEC_ERR_STATUS_TOKEN_EXPIRED]⟩,
  ⟨0x30080, 8, 6, [SEC_ID_HASH_HASH]⟩,
  ⟨0x30800, 0, 1, [PWR_STATE_NODE, PWR_STATE_OP, PWR_STATE_OP_POWER, PWR_STATE_OP_THERMAL, PWR_STATE_RAISING,
      PWR_STATE_PARKED, PWR_STATE_DOZED]⟩,
  ⟨0x30808, 0, 1, [PWR_CFG_OP_LIMIT]⟩,
  ⟨0x30810, 0, 1, [PWR_CTL_PARK, PWR_CTL_STANDBY]⟩,
  ⟨0x30818, 0, 1, [PWR_AVG_AVG_W, PWR_AVG_TDP_W]⟩,
  ⟨0x30820, 0, 1, [PWR_OP_CNT_DOWN, PWR_OP_CNT_UP]⟩,
  ⟨0x30828, 0, 1, [PWR_DOZE_CNT_CYCLES]⟩,
  ⟨0x30830, 0, 1, [PWR_ERR_STATUS_AVS_FAIL, PWR_ERR_STATUS_WAKE_TIMEOUT, PWR_ERR_STATUS_THERMAL_PARK,
      PWR_ERR_STATUS_POWER_CAP]⟩,
  ⟨0x40000, 0, 1, [ERR_CFG_AUTO_CORE, ERR_CFG_AUTO_NODE, ERR_CFG_FATAL_DELAY_MS, ERR_CFG_HANG_REPEAT]⟩,
  ⟨0x40008, 0, 1, [ERR_STATUS_CORRECTED, ERR_STATUS_DEFERRED, ERR_STATUS_CONTAINED, ERR_STATUS_FATAL,
      ERR_STATUS_HUB_FATAL, ERR_STATUS_HANG, ERR_STATUS_ABORT_SENT, ERR_STATUS_ABORT_RECEIVED, ERR_STATUS_LOG_WRAP]⟩,
  ⟨0x40010, 0, 1, [ERR_FATAL_INFO_TICK, ERR_FATAL_INFO_SOURCE, ERR_FATAL_INFO_SHEET, ERR_FATAL_INFO_LINK]⟩,
  ⟨0x40018, 0, 1, [ERR_CNT_CORRECTED, ERR_CNT_DEFERRED, ERR_CNT_CONTAINED, ERR_CNT_FATAL]⟩]
/-- Part 5 of the hub registers, addressed in BAR0. -/
def hubRows5 : List RegRow := [
  ⟨0x40020, 0, 1, [ERR_LOG_NEXT, ERR_LOG_WRAPS, ERR_LOG_SUMMARY_NEXT]⟩,
  ⟨0x40028, 0, 1, [ERR_DUMP_STATUS_HELD, ERR_DUMP_STATUS_FIRST_CORE, ERR_DUMP_STATUS_LATER]⟩,
  ⟨0x40030, 0, 1, [ERR_DUMP_CTL_RELEASE_ALL, ERR_DUMP_CTL_RELEASE_ONE, ERR_DUMP_CTL_CORE]⟩,
  ⟨0x40038, 0, 1, [ERR_ABORT_CTL_SEND, ERR_ABORT_CTL_PARTITION]⟩,
  ⟨0x40040, 0, 1, [ERR_ABORT_CNT_SENT, ERR_ABORT_CNT_APPLIED, ERR_ABORT_CNT_IGNORED]⟩,
  ⟨0x40100, 16, 32, [ERR_ABORT_CFG_EN, ERR_ABORT_CFG_AUTO, ERR_ABORT_CFG_LIST, ERR_ABORT_CFG_INDEX_VALUE,
      ERR_ABORT_CFG_INDEX_MASK]⟩,
  ⟨0x40108, 16, 32, [ERR_ABORT_SPAN_SPAN_MS]⟩,
  ⟨0x40800, 0, 1, [RST_STATUS_ACTIVE, RST_STATUS_PHASE, RST_STATUS_LAST_LEVEL, RST_STATUS_LAST_CAUSE,
      RST_STATUS_LAST_TICK]⟩,
  ⟨0x40808, 0, 1, [RST_CTL_LEVEL, RST_CTL_GO]⟩,
  ⟨0x40810, 0, 1, [RST_CNT_L2, RST_CNT_L3, RST_CNT_L4, RST_CNT_L5]⟩,
  ⟨0x50000, 0, 1, [SVY_CAP_RING_RECORDS, SVY_CAP_AREAS]⟩,
  ⟨0x50008, 0, 1, [SVY_CFG_KAT_INTERVAL, SVY_CFG_KAT_FENCE, SVY_CFG_ALARM_LIST, SVY_CFG_GRANTS]⟩,
  ⟨0x50010, 0, 1, [SVY_THRESH_EYE_WARN_MV, SVY_THRESH_MARGIN_WARN_PS, SVY_THRESH_GUARD_WARN_MV]⟩,
  ⟨0x50018, 0, 1, [SVY_STATUS_ALERT, SVY_STATUS_RING_WRAPPED, SVY_STATUS_RING_LOST, SVY_STATUS_FLUSH_BUSY,
      SVY_STATUS_TRACE_ON]⟩,
  ⟨0x50040, 8, 4, [SVY_RATE_RATE_PER_MS, SVY_RATE_BURST]⟩,
  ⟨0x50060, 8, 4, [SVY_CLASS_CNT_WRITTEN, SVY_CLASS_CNT_DROPPED]⟩,
  ⟨0x50080, 8, 4, [SVY_DROP_FIRST_MER_NS]⟩,
  ⟨0x500a0, 8, 4, [SVY_DROP_LAST_MER_NS]⟩,
  ⟨0x500c0, 0, 1, [SVY_RING_BASE_ADDR]⟩,
  ⟨0x500c8, 0, 1, [SVY_RING_IDX_WRITE, SVY_RING_IDX_READ]⟩]
/-- Part 6 of the hub registers, addressed in BAR0. -/
def hubRows6 : List RegRow := [
  ⟨0x500d0, 0, 1, [SVY_RING_OVR_OVERWRITTEN]⟩,
  ⟨0x500d8, 0, 1, [SVY_KAT_CNT_RUN, SVY_KAT_CNT_FAILED, SVY_KAT_CNT_SKIPPED]⟩,
  ⟨0x500e0, 0, 1, [SVY_CORE_SEL_CORE]⟩,
  ⟨0x500e8, 0, 1, [SVY_CORE_KAT_RUNS, SVY_CORE_KAT_FAILS, SVY_CORE_KAT_CONSEC, SVY_CORE_KAT_FENCED,
      SVY_CORE_KAT_PARTNER]⟩,
  ⟨0x500f0, 0, 1, [SVY_RX_ALARM_ACCEPTED, SVY_RX_ALARM_DROPPED]⟩,
  ⟨0x500f8, 0, 1, [SVY_TRACE_CFG_LETTERS, SVY_TRACE_CFG_PASSES, SVY_TRACE_CFG_FRAMES, SVY_TRACE_CFG_BOUNDARY]⟩,
  ⟨0x50100, 0, 1, [SVY_CTL_FLUSH, SVY_CTL_CLEAR_CNT]⟩,
  ⟨0x50108, 0, 1, [SVY_FLUSH_NS_MER_NS]⟩,
  ⟨0x40, 0, 1, [ID_BOOT_STATUS_DONE, ID_BOOT_STATUS_FAIL_STEP, ID_BOOT_STATUS_FAIL_CODE, ID_BOOT_STATUS_SLOT,
      ID_BOOT_STATUS_WARM]⟩,
  ⟨0x48, 0, 1, [ID_BOOT_TIME_CHART_MS, ID_BOOT_TIME_HBM_MS, ID_BOOT_TIME_LOCK_MS, ID_BOOT_TIME_READY_MS]⟩]
/-- The hub registers, addressed in BAR0. -/
def hubRows : List RegRow := hubRows0 ++ hubRows1 ++ hubRows2 ++ hubRows3 ++ hubRows4 ++ hubRows5 ++ hubRows6

/-- Part 0 of the registers of a sheet window. -/
def sheetRows0 : List RegRow := [
  ⟨0x0, 0, 1, [SO_CAP_SLOT_MAX, SO_CAP_STAGE_GRANULES, SO_CAP_MERGE_KIB, SO_CAP_STORE_KIB]⟩,
  ⟨0x8, 0, 1, [SO_CFG_PROMOTE_ROWS, SO_CFG_PROMOTE_MAX_COPIES, SO_CFG_PROMOTE_IDLE_LOG2, SO_CFG_TICKET_KIB]⟩,
  ⟨0x10, 0, 1, [SO_STATUS_FETCH_GRANULES, SO_STATUS_ANCHOR_Q, SO_STATUS_STAGE_FREE, SO_STATUS_MERGE_FREE_KIB]⟩,
  ⟨0x18, 0, 1, [SO_ERR_STATUS_STAGE_CE, SO_ERR_STATUS_STAGE_UE, SO_ERR_STATUS_STORE_UE, SO_ERR_STATUS_MERGE_UE,
      SO_ERR_STATUS_MERGE_CE]⟩,
  ⟨0x20, 0, 1, [SO_ERR_INFO_TICK, SO_ERR_INFO_KIND, SO_ERR_INFO_PARTITION, SO_ERR_INFO_QUAD]⟩,
  ⟨0x28, 0, 1, [SO_T0_CNT_PROMOTED, SO_T0_CNT_DROPPED, SO_T0_CNT_SKIPPED]⟩,
  ⟨0x30, 0, 1, [SO_MERGE_CNT_CONTEXTS, SO_MERGE_CNT_TOMB_HITS]⟩,
  ⟨0x38, 0, 1, [SO_CTL_CLEAR_CNT, SO_CTL_DEMOTE_ALL]⟩,
  ⟨0x40, 0, 1, [SO_REFUSE_CNT_ENTRIES, SO_REFUSE_CNT_REPLACED]⟩,
  ⟨0x100, 8, 32, [SO_SHARE_SLOT_LETTERS, SO_SHARE_STAGE_GRANULES, SO_SHARE_MERGE_KIB, SO_SHARE_STORE_LINES]⟩,
  ⟨0x200, 64, 32, [SO_LETTER_CNT_COLLECTED, SO_LETTER_CNT_ADMITTED]⟩,
  ⟨0x208, 64, 32, [SO_HOLD_CNT_HELD, SO_HOLD_CNT_REFUSED]⟩,
  ⟨0x210, 64, 32, [SO_EXPIRE_CNT_EXPIRED, SO_EXPIRE_CNT_LATE]⟩,
  ⟨0x218, 64, 32, [SO_PASS_CNT_PASSES]⟩,
  ⟨0x220, 64, 32, [SO_ROWS_CNT_ROWS]⟩,
  ⟨0x40000, 0, 1, [XL_CAP_RC_ENTRIES, XL_CAP_WALK_ENTRIES, XL_CAP_RC_WAYS, XL_CAP_SEQ_MAX]⟩,
  ⟨0x40008, 0, 1, [XL_CFG_SEQ_LIMIT, XL_CFG_RANGE_LOG2, XL_CFG_FD_FRACTION]⟩,
  ⟨0x40010, 0, 1, [XL_STATUS_SEQ_OPEN, XL_STATUS_HASH_PENDING]⟩,
  ⟨0x40018, 0, 1, [XL_RC_CNT_HITS, XL_RC_CNT_MISSES]⟩,
  ⟨0x40020, 0, 1, [XL_WALK_CNT_WALKS, XL_WALK_CNT_TABLE_PAGES]⟩]
/-- Part 1 of the registers of a sheet window. -/
def sheetRows1 : List RegRow := [
  ⟨0x40028, 0, 1, [XL_SHARE_CNT_MATCHED, XL_SHARE_CNT_INSERTED, XL_SHARE_CNT_KEY_MISMATCH,
      XL_SHARE_CNT_HEADER_MISMATCH]⟩,
  ⟨0x40030, 0, 1, [XL_ERR_STATUS_TABLE_UE, XL_ERR_STATUS_DIR_UE, XL_ERR_STATUS_RC_PARITY, XL_ERR_STATUS_DIR_FULL,
      XL_ERR_STATUS_ALLOC_FAIL]⟩,
  ⟨0x40038, 0, 1, [XL_ERR_INFO_TICK, XL_ERR_INFO_KIND, XL_ERR_INFO_QUAD, XL_ERR_INFO_LEVEL, XL_ERR_INFO_PARTITION]⟩,
  ⟨0x40040, 0, 1, [XL_ERR_ADDR_GRANULE, XL_ERR_ADDR_SLOT_HIGH]⟩,
  ⟨0x40048, 0, 1, [XL_CTL_CLEAR_CNT, XL_CTL_FLUSH_RC]⟩,
  ⟨0x30000, 0, 1, [GZ_CAP_CONTENT_ENTRIES, GZ_CAP_RULE_ENTRIES, GZ_CAP_ROUTE_ENTRIES]⟩,
  ⟨0x30008, 0, 1, [GZ_CFG_HOLE_STRIDE, GZ_CFG_DEFAULT_ACTION]⟩,
  ⟨0x30010, 0, 1, [GZ_STATUS_CONTENT_USED, GZ_STATUS_RULES_USED, GZ_STATUS_ROUTES_USED, GZ_STATUS_RESPREAD,
      GZ_STATUS_UPDATE_BUSY]⟩,
  ⟨0x30018, 0, 1, [GZ_CONTENT_CNT_LOOKUPS, GZ_CONTENT_CNT_HITS]⟩,
  ⟨0x30020, 0, 1, [GZ_CONTENT_UPD_INSERTS, GZ_CONTENT_UPD_REMOVES, GZ_CONTENT_UPD_NO_ROOM]⟩,
  ⟨0x30028, 0, 1, [GZ_RULE_CNT_LOOKUPS, GZ_RULE_CNT_DEFAULT_HITS]⟩,
  ⟨0x30030, 0, 1, [GZ_ROUTE_CNT_LOOKUPS, GZ_ROUTE_CNT_MISSES]⟩,
  ⟨0x30038, 0, 1, [GZ_STEAL_CNT_STOLEN, GZ_STEAL_CNT_DELAYED, GZ_STEAL_CNT_DELAY_MAX]⟩,
  ⟨0x30040, 0, 1, [GZ_RULE_VALUE_VALUE]⟩,
  ⟨0x30048, 0, 1, [GZ_RULE_MASK_MASK]⟩,
  ⟨0x30050, 0, 1, [GZ_RULE_CMD_PRIORITY, GZ_RULE_CMD_ACTION, GZ_RULE_CMD_COUNTER, GZ_RULE_CMD_OP, GZ_RULE_CMD_GO]⟩,
  ⟨0x30058, 0, 1, [GZ_RULE_STATUS_BUSY, GZ_RULE_STATUS_RESULT, GZ_RULE_STATUS_INDEX, GZ_RULE_STATUS_MOVES]⟩,
  ⟨0x30060, 0, 1, [GZ_ERR_STATUS_CONTENT_PE, GZ_ERR_STATUS_RULE_CE, GZ_ERR_STATUS_RULE_UE, GZ_ERR_STATUS_ROUTE_CE,
      GZ_ERR_STATUS_ROUTE_UE]⟩,
  ⟨0x30068, 0, 1, [GZ_ERR_INFO_TICK, GZ_ERR_INFO_KIND]⟩,
  ⟨0x30070, 0, 1, [GZ_ERR_INDEX_INDEX]⟩]
/-- Part 2 of the registers of a sheet window. -/
def sheetRows2 : List RegRow := [
  ⟨0x30078, 0, 1, [GZ_CTL_CLEAR_CNT, GZ_CTL_RESPREAD_NOW]⟩,
  ⟨0x30100, 8, 32, [GZ_CONTENT_SHARE_SETS, GZ_CONTENT_SHARE_BASE]⟩,
  ⟨0x30800, 8, 256, [GZ_RULE_HIT_COUNT]⟩,
  ⟨0x10000, 0, 1, [PORT_CAP_PORTS, PORT_CAP_LANES, PORT_CAP_MAX_PAYLOAD, PORT_CAP_SW_PEERS]⟩,
  ⟨0x20000, 0, 1, [CR_CAP_RESIDENT, CR_CAP_CONTEXT_MAX, CR_CAP_PATHS_MAX, CR_CAP_WINDOW]⟩,
  ⟨0x20008, 0, 1, [CR_CFG_STORE, CR_CFG_RETRY_LIMIT, CR_CFG_RTO_US, CR_CFG_ACK_EVERY, CR_CFG_RNR_LIMIT,
      CR_CFG_PKT_LIFETIME_US]⟩,
  ⟨0x20010, 0, 1, [CR_KEY_CFG_KEY_LIMIT, CR_KEY_CFG_CONTEXT_LIMIT]⟩,
  ⟨0x20018, 0, 1, [CR_CC_CFG_INIT_RATE, CR_CC_CFG_MAX_RATE, CR_CC_CFG_MIN_RATE, CR_CC_CFG_AI_STEP, CR_CC_CFG_MD]⟩,
  ⟨0x20020, 0, 1, [CR_STATUS_RESIDENT_USED, CR_STATUS_PR_USED_KIB, CR_STATUS_FETCH_Q]⟩,
  ⟨0x20028, 0, 1, [CR_PKT_CNT_TX, CR_PKT_CNT_RX]⟩,
  ⟨0x20030, 0, 1, [CR_RETX_CNT_RESENT, CR_RETX_CNT_TIMEOUTS]⟩,
  ⟨0x20038, 0, 1, [CR_NAK_CNT_RNR_SENT, CR_NAK_CNT_RNR_RECEIVED]⟩,
  ⟨0x20040, 0, 1, [CR_FAULT_CNT_KEY_FAULT, CR_FAULT_CNT_OTHER_NAK]⟩,
  ⟨0x20048, 0, 1, [CR_CE_CNT_MARKED_RX, CR_CE_CNT_RATE_CUTS]⟩,
  ⟨0x20050, 0, 1, [CR_ERR_STATUS_KEY_FAULT, CR_ERR_STATUS_RETRY_LIMIT, CR_ERR_STATUS_RNR_LIMIT,
      CR_ERR_STATUS_ORDERED_CLOSE, CR_ERR_STATUS_CONTEXT_UE, CR_ERR_STATUS_PR_UE, CR_ERR_STATUS_PROTOCOL]⟩,
  ⟨0x20058, 0, 1, [CR_ERR_INFO_TICK, CR_ERR_INFO_KIND, CR_ERR_INFO_PARTITION, CR_ERR_INFO_STATUS]⟩,
  ⟨0x20060, 0, 1, [CR_ERR_QP_QPN, CR_ERR_QP_PEER]⟩,
  ⟨0x20068, 0, 1, [CR_QP_SEL_QPN]⟩,
  ⟨0x20070, 0, 1, [CR_QP_STATE_STATE, CR_QP_STATE_RESIDENT, CR_QP_STATE_PINNED, CR_QP_STATE_ORDERED,
      CR_QP_STATE_PATHS, CR_QP_STATE_RATE, CR_QP_STATE_PEER_POSTCODE]⟩,
  ⟨0x20078, 0, 1, [CR_QP_PSN_TX_NEXT, CR_QP_PSN_RX_BASE]⟩]
/-- Part 3 of the registers of a sheet window. -/
def sheetRows3 : List RegRow := [
  ⟨0x20080, 0, 1, [CR_QP_COMP_COMP_CNT]⟩,
  ⟨0x20088, 0, 1, [CR_QP_RECV_RECV_CNT]⟩,
  ⟨0x20090, 0, 1, [CR_QP_FREED_FREED]⟩,
  ⟨0x20098, 0, 1, [CR_CTL_CLEAR_CNT]⟩,
  ⟨0x20100, 8, 32, [CR_PART_QPN_BASE, CR_PART_PR_KIB, CR_PART_QPN_COUNT, CR_PART_PIN_LIMIT]⟩]
/-- The registers of a sheet window. -/
def sheetRows : List RegRow := sheetRows0 ++ sheetRows1 ++ sheetRows2 ++ sheetRows3

/-- Part 0 of the registers of one port. -/
def portRows0 : List RegRow := [
  ⟨0x0, 0, 1, [PORT_CFG_MODE, PORT_CFG_STACK, PORT_CFG_LOCK_GROUP, PORT_CFG_LOCK_MEMBER, PORT_CFG_RETRY_TIMEOUT_US]⟩,
  ⟨0x8, 0, 1, [PORT_STATUS_STATE, PORT_STATUS_WIDTH, PORT_STATUS_LANES_OK, PORT_STATUS_IN_LOCK,
      PORT_STATUS_PEER_POSTCODE]⟩,
  ⟨0x10, 0, 1, [PORT_SEC_KEY_EPOCH, PORT_SEC_KEY_AGE_S]⟩,
  ⟨0x18, 0, 1, [PORT_FRAME_CNT_TX, PORT_FRAME_CNT_RX]⟩,
  ⟨0x20, 0, 1, [PORT_RETRY_CNT_RESENT, PORT_RETRY_CNT_NAKS, PORT_RETRY_CNT_RETRAINS]⟩,
  ⟨0x28, 0, 1, [PORT_DROP_CNT_EXPIRED, PORT_DROP_CNT_NO_ROUTE, PORT_DROP_CNT_SPAN, PORT_DROP_CNT_BAD_HEADER]⟩,
  ⟨0x30, 0, 1, [PORT_SEC_CNT_FRANK_FAIL, PORT_SEC_CNT_REPLAY, PORT_SEC_CNT_CHECK_FAIL]⟩,
  ⟨0x38, 0, 1, [PORT_DLN_CNT_SENT, PORT_DLN_CNT_SUPPRESSED]⟩,
  ⟨0x40, 0, 1, [PORT_CREDIT_CONTROL, PORT_CREDIT_EXPRESS, PORT_CREDIT_FIRST, PORT_CREDIT_PARCEL]⟩,
  ⟨0x48, 0, 1, [PORT_ERR_STATUS_LANE_FAULT, PORT_ERR_STATUS_WIDTH_CHANGED, PORT_ERR_STATUS_RETRAIN,
      PORT_ERR_STATUS_FAILED, PORT_ERR_STATUS_KEY_FAIL, PORT_ERR_STATUS_FRANK_BURST, PORT_ERR_STATUS_LOCK_SKIP,
      PORT_ERR_STATUS_STACK_MISMATCH, PORT_ERR_STATUS_CHECK_FAIL]⟩,
  ⟨0x50, 0, 1, [PORT_ERR_INFO_TICK, PORT_ERR_INFO_KIND, PORT_ERR_INFO_LANE]⟩,
  ⟨0x58, 0, 1, [PORT_CTL_CLEAR_CNT, PORT_CTL_RETRAIN, PORT_CTL_REKEY]⟩]
/-- The registers of one port. -/
def portRows : List RegRow := portRows0

/-- Part 0 of the registers of a quad window. -/
def quadRows0 : List RegRow := [
  ⟨0x8000, 0, 1, [MIG_CAP_MOVES_MAX, MIG_CAP_TILE_KIB, MIG_CAP_QUEUE_MAX]⟩,
  ⟨0x8008, 0, 1, [MIG_CFG_POLICY, MIG_CFG_LOW_PCT, MIG_CFG_HIGH_PCT, MIG_CFG_SWITCH_LEAD, MIG_CFG_TICK_GRANULES,
      MIG_CFG_HEAT_DECAY_LOG2, MIG_CFG_SWAPIN_COUNT]⟩,
  ⟨0x8010, 0, 1, [MIG_TIMEOUT_TIMEOUT_US]⟩,
  ⟨0x8018, 0, 1, [MIG_STATUS_ACTIVE, MIG_STATUS_QUEUED, MIG_STATUS_PAUSED, MIG_STATUS_T1_USED]⟩,
  ⟨0x8020, 0, 1, [MIG_MOVE_CNT_MOVED_OUT, MIG_MOVE_CNT_MOVED_IN]⟩,
  ⟨0x8028, 0, 1, [MIG_SWAP_CNT_SWAPPED_OUT, MIG_SWAP_CNT_SWAPPED_IN]⟩,
  ⟨0x8030, 0, 1, [MIG_DROP_CNT_DROPPED, MIG_DROP_CNT_FAILED]⟩,
  ⟨0x8038, 0, 1, [MIG_STAGE_CNT_FROM_T2, MIG_STAGE_CNT_FROM_T3]⟩,
  ⟨0x8040, 0, 1, [MIG_ERR_STATUS_HASH_MISMATCH, MIG_ERR_STATUS_TIMEOUT, MIG_ERR_STATUS_T2_LOST,
      MIG_ERR_STATUS_T3_LOST, MIG_ERR_STATUS_T3_POISON, MIG_ERR_STATUS_SRC_UE, MIG_ERR_STATUS_CANCELLED]⟩,
  ⟨0x8048, 0, 1, [MIG_ERR_INFO_TICK, MIG_ERR_INFO_KIND, MIG_ERR_INFO_PARTITION]⟩,
  ⟨0x8050, 0, 1, [MIG_ERR_SEQ_SEQ]⟩,
  ⟨0x8058, 0, 1, [MIG_ERR_SLOT_SLOT, MIG_ERR_SLOT_PEER]⟩,
  ⟨0x8060, 0, 1, [MIG_CTL_CLEAR_CNT, MIG_CTL_PAUSE]⟩,
  ⟨0x0, 0, 1, [HBM_CAP_STACK_GIB, HBM_CAP_CHANNELS, HBM_CAP_PCS, HBM_CAP_RATE_MBPS, HBM_CAP_ALLOC_GRANULES]⟩,
  ⟨0x8, 0, 1, [HBM_CFG_CE_RETIRE, HBM_CFG_CE_WINDOW_LOG2, HBM_CFG_PATROL_HOURS]⟩,
  ⟨0x10, 0, 1, [HBM_STATUS_STATE, HBM_STATUS_HOT, HBM_STATUS_CRITICAL, HBM_STATUS_FAILED_CH]⟩,
  ⟨0x18, 0, 1, [HBM_TEMP_NOW_C, HBM_TEMP_MAX_C, HBM_TEMP_REFRESH_X2]⟩,
  ⟨0x20, 0, 1, [HBM_ERR_CNT_CORRECTED, HBM_ERR_CNT_UNCORRECTED]⟩,
  ⟨0x28, 0, 1, [HBM_RFM_CNT_RFM]⟩,
  ⟨0x30, 0, 1, [HBM_RETIRE_RETIRED, HBM_RETIRE_PENDING]⟩]
/-- Part 1 of the registers of a quad window. -/
def quadRows1 : List RegRow := [
  ⟨0x38, 0, 1, [HBM_ERR_STATUS_CE, HBM_ERR_STATUS_UE, HBM_ERR_STATUS_ADDR_TAG, HBM_ERR_STATUS_RETIRED,
      HBM_ERR_STATUS_TRAIN_FAIL, HBM_ERR_STATUS_HOT, HBM_ERR_STATUS_CRITICAL, HBM_ERR_STATUS_RETIRE_FULL]⟩,
  ⟨0x40, 0, 1, [HBM_ERR_INFO_TICK, HBM_ERR_INFO_KIND, HBM_ERR_INFO_PC, HBM_ERR_INFO_BANK]⟩,
  ⟨0x48, 0, 1, [HBM_ERR_ADDR_GRANULE, HBM_ERR_ADDR_OFFSET, HBM_ERR_ADDR_SYMBOL]⟩,
  ⟨0x50, 0, 1, [HBM_CTL_CLEAR_CNT, HBM_CTL_PATROL_NOW]⟩,
  ⟨0x4000, 0, 1, [NME_CAP_OPS, NME_CAP_ACTIVE_MAX, NME_CAP_QUEUE_MAX, NME_CAP_FILL_GBPS]⟩,
  ⟨0x4008, 0, 1, [NME_STATUS_ACTIVE, NME_STATUS_QUEUED, NME_STATUS_SLOTS_LAST]⟩,
  ⟨0x4010, 0, 1, [NME_OP_CNT_DONE, NME_OP_CNT_FAILED]⟩,
  ⟨0x4018, 0, 1, [NME_BYTE_CNT_BYTES]⟩,
  ⟨0x4020, 0, 1, [NME_ERR_STATUS_POISON, NME_ERR_STATUS_REMOTE, NME_ERR_STATUS_ABORTED]⟩,
  ⟨0x4028, 0, 1, [NME_ERR_INFO_TICK, NME_ERR_INFO_KIND, NME_ERR_INFO_PARTITION, NME_ERR_INFO_STATUS]⟩,
  ⟨0x4030, 0, 1, [NME_CTL_CLEAR_CNT]⟩]
/-- The registers of a quad window. -/
def quadRows : List RegRow := quadRows0 ++ quadRows1

/-- Part 0 of the registers of a core window. -/
def coreRows0 : List RegRow := [
  ⟨0x0, 0, 1, [CORE_CAP_RECIPES, CORE_CAP_FOLD, CORE_CAP_ROWS, CORE_CAP_TILE_KEYS, CORE_CAP_SCRATCH_MIB]⟩,
  ⟨0x8, 0, 1, [CORE_CFG_RECIPES_EN, CORE_CFG_FENCE_THRESHOLD, CORE_CFG_PARTITION]⟩,
  ⟨0x10, 0, 1, [CORE_CTL_FENCE, CORE_CTL_UNFENCE, CORE_CTL_CLEAR_CNT]⟩,
  ⟨0x18, 0, 1, [CORE_STATUS_STATE, CORE_STATUS_PASSQ, CORE_STATUS_FENCE_ABFT, CORE_STATUS_ABFT_RUN]⟩,
  ⟨0x20, 0, 1, [CORE_PASS_CNT_PASSES]⟩,
  ⟨0x28, 0, 1, [CORE_BUSY_CYC_CYCLES]⟩,
  ⟨0x30, 0, 1, [CORE_ROWS_CNT_ROWS]⟩,
  ⟨0x38, 0, 1, [CORE_ABFT_CNT_COUNT]⟩,
  ⟨0x40, 0, 1, [CORE_SKIP_CNT_COUNT]⟩,
  ⟨0x48, 0, 1, [CORE_NAN_CNT_COUNT]⟩,
  ⟨0x50, 0, 1, [CORE_CANCEL_CNT_COUNT]⟩,
  ⟨0x58, 0, 1, [CORE_ERR_STATUS_ABFT, CORE_ERR_STATUS_SPAD_CE, CORE_ERR_STATUS_SPAD_UE, CORE_ERR_STATUS_CANCEL,
      CORE_ERR_STATUS_FOLD_DAMAGE]⟩,
  ⟨0x60, 0, 1, [CORE_ERR_TICK_TICK, CORE_ERR_TICK_KIND]⟩,
  ⟨0x68, 0, 1, [CORE_ERR_INFO_ARRAY, CORE_ERR_INFO_ROW, CORE_ERR_INFO_BLOCK, CORE_ERR_INFO_TILE,
      CORE_ERR_INFO_EXPECTED, CORE_ERR_INFO_OBSERVED]⟩,
  ⟨0x70, 0, 1, [CORE_ERR_PAGE_QUAD, CORE_ERR_PAGE_GRANULE]⟩]
/-- The registers of a core window. -/
def coreRows : List RegRow := coreRows0

/-- Part 0 of the registers of a post box. -/
def boxRows0 : List RegRow := [
  ⟨0x0, 0, 1, [PB_CFG_OWNER, PB_CFG_CMD_LOG2, PB_CFG_CPL_LOG2, PB_CFG_RR_LOG2, PB_CFG_IRQ_EN, PB_CFG_VECTOR,
      PB_CFG_IRQ_HOLDOFF_US]⟩,
  ⟨0x8, 0, 1, [PB_CMD_BASE_BASE]⟩,
  ⟨0x10, 0, 1, [PB_CPL_BASE_BASE]⟩,
  ⟨0x18, 0, 1, [PB_RR_BASE_BASE]⟩,
  ⟨0x20, 0, 1, [PB_CTL_ENABLE, PB_CTL_DISABLE, PB_CTL_RESET]⟩,
  ⟨0x28, 0, 1, [PB_TAIL_TAIL]⟩,
  ⟨0x30, 0, 1, [PB_HEAD_HEAD, PB_HEAD_DONE]⟩,
  ⟨0x38, 0, 1, [PB_CPL_FREE_CPL_FREE]⟩,
  ⟨0x40, 0, 1, [PB_RR_IDX_RR_TAIL, PB_RR_IDX_RR_FREE]⟩,
  ⟨0x48, 0, 1, [PB_STATUS_STATE, PB_STATUS_ERR_CODE, PB_STATUS_INFLIGHT]⟩,
  ⟨0x50, 0, 1, [PB_CNT_COMMANDS, PB_CNT_REPLY_DROP, PB_CNT_CPL_LOST]⟩]
/-- The registers of a post box. -/
def boxRows : List RegRow := boxRows0

end Sys2Proof.Machine.R
end

