-- ==== Sys2Proof/Machine/Fp.lean ====
section
/-!
DEFINITION. FP32 arithmetic as the node performs it: every operation is computed exactly and rounded once, and a
subnormal result becomes +0 (R76, R101, R105); and the node's one exponential and its tanh (R105, R106).

A number is decoded to an exact sign, mantissa and exponent, so no corner of the arithmetic hides in a rounding
that the spec does not name.
-/

namespace Sys2Proof.Machine

/-- An FP32 code. -/
abbrev F32 := BitVec 32

/-- A decoded number: not a number, an infinity, or exactly `± man * 2 ^ exp`. -/
inductive Num where
  | nan
  | inf (neg : Bool)
  | fin (neg : Bool) (man : Nat) (exp : Int)
  deriving DecidableEq, Repr

/-- Rounding direction: to nearest with ties to even, or towards plus infinity (R109). -/
inductive Rnd where
  | nearest
  | up
  deriving DecidableEq, Repr

/-- The canonical NaN (R107, R141). -/
def f32NaN : F32 := 0x7FC00000
/-- Plus zero. -/
def f32Zero : F32 := 0
/-- One. -/
def f32One : F32 := 0x3F800000
/-- An infinity. -/
def f32Inf (neg : Bool) : F32 := if neg then 0xFF800000 else 0x7F800000

/-- Multiply a natural number by a power of two, dropping what falls below one. -/
def shl (n : Nat) (e : Int) : Nat := if 0 ≤ e then n * 2 ^ e.toNat else n / 2 ^ (-e).toNat

/-- The integer part of the base-2 logarithm of a positive fraction. -/
def ratLog2 (n d : Nat) : Int :=
  let g : Int := (n.log2 : Int) - (d.log2 : Int)
  if shl d g ≤ n ∧ (0 ≤ g ∨ d ≤ n * 2 ^ (-g).toNat) then g else g - 1

/-- Round `n / d * 2 ^ e` (positive) to `prec` bits, on a grid no finer than `2 ^ emin`: the rounded mantissa and
its exponent. -/
def roundRat (mode : Rnd) (neg : Bool) (prec : Nat) (emin : Int) (n d : Nat) (e : Int) : Nat × Int :=
  let k := ratLog2 n d + e
  let u : Int := max (k - (prec : Int) + 1) emin
  let s := u - e
  let num := if 0 ≤ s then n else n * 2 ^ (-s).toNat
  let den := if 0 ≤ s then d * 2 ^ s.toNat else d
  let q := num / den
  let r := num % den
  let q' := match mode with
    | .nearest => if 2 * r > den ∨ (2 * r = den ∧ q % 2 = 1) then q + 1 else q
    | .up => if r ≠ 0 ∧ !neg then q + 1 else q
  (q', u)

/-- Decode an FP32 code; a subnormal code reads as zero of its sign (R141). -/
def decF32 (c : F32) : Num :=
  let n := c.toNat
  let neg := bitAt n 31
  let e := bits n 23 8
  let m := bits n 0 23
  if e = 255 then (if m = 0 then .inf neg else .nan)
  else if e = 0 then .fin neg 0 0
  else .fin neg (m + 2 ^ 23) ((e : Int) - 150)

/-- Assemble a signed FP32 code from a mantissa of at most 25 bits at an exponent of at least -149: overflow gives
an infinity, and a nonzero result below the smallest normal value becomes +0, or that value when rounding up. -/
def packF32 (mode : Rnd) (neg : Bool) (m : Nat) (e : Int) : F32 :=
  let sg := if neg then 2 ^ 31 else 0
  let k := (m.log2 : Int) + e
  if m = 0 then BitVec.ofNat 32 sg
  else if k < -126 then
    match mode with
    | .nearest => f32Zero
    | .up => if neg then f32Zero else 0x00800000
  else if 127 < k then f32Inf neg
  else
    let man := shl m (e - (k - 23))
    BitVec.ofNat 32 (sg + (k + 127).toNat * 2 ^ 23 + man % 2 ^ 23)

/-- Round the exact value `± n / d * 2 ^ e` to FP32. -/
def toF32 (mode : Rnd) (neg : Bool) (n d : Nat) (e : Int) : F32 :=
  if n = 0 then packF32 mode neg 0 0
  else
    let (m, u) := roundRat mode neg 24 (-149) n d e
    if m = 0 then (match mode with
      | .nearest => f32Zero
      | .up => if neg then f32Zero else 0x00800000)
    else packF32 mode neg m u

/-- Round a decoded number to FP32. -/
def encF32 (mode : Rnd) : Num → F32
  | .nan => f32NaN
  | .inf neg => f32Inf neg
  | .fin neg m e => toF32 mode neg m 1 e

/-- The exact integer of a finite number on the grid `2 ^ g`, for a grid no coarser than its own exponent. -/
def onGrid (neg : Bool) (m : Nat) (e g : Int) : Int :=
  let v : Int := (m * 2 ^ (e - g).toNat : Nat)
  if neg then -v else v

/-- A finite number from an integer on a grid. -/
def ofGrid (v g : Int) : Num := .fin (decide (v < 0)) v.natAbs g

/-- The exact sum of two decoded numbers; two opposite infinities give NaN, and an exact zero is +0 unless both
terms are -0. -/
def numAdd : Num → Num → Num
  | .nan, _ => .nan
  | _, .nan => .nan
  | .inf a, .inf b => if a = b then .inf a else .nan
  | .inf a, .fin .. => .inf a
  | .fin .., .inf b => .inf b
  | .fin na ma ea, .fin nb mb eb =>
    let g := min ea eb
    let v := onGrid na ma ea g + onGrid nb mb eb g
    if v = 0 then .fin (na && nb && ma = 0 && mb = 0) 0 0 else ofGrid v g

/-- The exact product of two decoded numbers; infinity times zero gives NaN. -/
def numMul : Num → Num → Num
  | .nan, _ => .nan
  | _, .nan => .nan
  | .inf a, .inf b => .inf (a != b)
  | .inf a, .fin b m _ => if m = 0 then .nan else .inf (a != b)
  | .fin a m _, .inf b => if m = 0 then .nan else .inf (a != b)
  | .fin na ma ea, .fin nb mb eb => .fin (na != nb) (ma * mb) (ea + eb)

/-- The negation of a decoded number. -/
def numNeg : Num → Num
  | .nan => .nan
  | .inf a => .inf !a
  | .fin a m e => .fin (!a) m e

/-- A decoded number times a power of two. -/
def numScale (s : Int) : Num → Num
  | .fin a m e => .fin a m (e + s)
  | n => n

/-- The magnitude of a decoded number. -/
def numAbs : Num → Num
  | .nan => .nan
  | .inf _ => .inf false
  | .fin _ m e => .fin false m e

/-- Is this a zero? -/
def numIsZero : Num → Bool
  | .fin _ m _ => m == 0
  | _ => false

/-- Not a NaN and not an infinity. -/
def numFinite : Num → Bool
  | .fin .. => true
  | _ => false

/-- `a < b` as real numbers, infinities included; false with a NaN. -/
def numLt : Num → Num → Bool
  | .nan, _ => false
  | _, .nan => false
  | .inf a, .inf b => a && !b
  | .inf a, .fin .. => a
  | .fin .., .inf b => !b
  | .fin na ma ea, .fin nb mb eb =>
    let g := min ea eb
    decide (onGrid na ma ea g < onGrid nb mb eb g)

/-- Is the code a NaN? -/
def isNaN (c : F32) : Bool := decF32 c == .nan

/-- Sum rounded once. -/
def fadd (a b : F32) : F32 := encF32 .nearest (numAdd (decF32 a) (decF32 b))
/-- Difference rounded once. -/
def fsub (a b : F32) : F32 := encF32 .nearest (numAdd (decF32 a) (numNeg (decF32 b)))
/-- Product rounded once. -/
def fmul (a b : F32) : F32 := encF32 .nearest (numMul (decF32 a) (decF32 b))
/-- Sum rounded towards plus infinity (R109); a zero sum is +0. -/
def faddUp (a b : F32) : F32 := encF32 .up (numAdd (decF32 a) (decF32 b))
/-- Product rounded towards plus infinity (R109). -/
def fmulUp (a b : F32) : F32 := encF32 .up (numMul (decF32 a) (decF32 b))
/-- Fused multiply-add, rounded once (R105). -/
def ffma (a b c : F32) : F32 := encF32 .nearest (numAdd (numMul (decF32 a) (decF32 b)) (decF32 c))

/-- Quotient rounded once, with the IEEE 754 special cases. -/
def fdiv (a b : F32) : F32 :=
  match decF32 a, decF32 b with
  | .nan, _ => f32NaN
  | _, .nan => f32NaN
  | .inf _, .inf _ => f32NaN
  | .inf x, .fin y _ _ => f32Inf (x != y)
  | .fin x _ _, .inf y => packF32 .nearest (x != y) 0 0
  | .fin x m e, .fin y n f =>
    if n = 0 then (if m = 0 then f32NaN else f32Inf (x != y)) else toF32 .nearest (x != y) m n (e - f)

/-- The sign bit cleared. -/
def fabs (a : F32) : F32 := BitVec.ofNat 32 (bits a.toNat 0 31)

/-- An order on FP32 codes for maxima and lists of scores: by value, -0 below +0, NaN below everything (R102,
R110). -/
def fkey (a : F32) : Int :=
  if isNaN a then -(2 ^ 40)
  else if bitAt a.toNat 31 then -(bits a.toNat 0 31 : Int) - 1 else (a.toNat : Int)

/-- The larger of two scores, -0 below +0. -/
def fmax (a b : F32) : F32 := if fkey a < fkey b then b else a

/-- Minus infinity, the maximum of the identity partial. -/
def f32NegInf : F32 := 0xFF800000
/-- Plus infinity. -/
def f32PosInf : F32 := 0x7F800000

/-- `a < b` as FP32 values. -/
def flt (a b : F32) : Bool := numLt (decF32 a) (decF32 b)

/-- Search for the largest `m` below `lo + 2 ^ k` with `m ^ 128 <= 2 ^ t`. -/
def rootSearch (t : Nat) : Nat → Nat → Nat
  | 0, lo => lo
  | k + 1, lo => if (lo + 2 ^ k) ^ 128 ≤ 2 ^ t then rootSearch t k (lo + 2 ^ k) else rootSearch t k lo

/-- The table `T[i]` of R105: `2 ^ (i/128)` rounded to FP32. -/
def expTable (i : Nat) : F32 :=
  let m := rootSearch (i + 23 * 128) 24 0
  let m' := if (2 * m + 1) ^ 128 ≤ 2 ^ (i + 24 * 128) then m + 1 else m
  packF32 .nearest false m' (-23)

/-- The largest integer at most `± m * 2 ^ e`. -/
def floorNum (neg : Bool) (m : Nat) (e : Int) : Int :=
  let v : Int := if neg then -(m : Int) else m
  if 0 ≤ e then v * 2 ^ e.toNat else v / (2 ^ (-e).toNat : Nat)

/-- The node's exponential (R105), each line rounded as the rule marks it. -/
def expVx (x : F32) : F32 :=
  match decF32 x with
  | .nan => f32NaN
  | .inf neg => if neg then f32Zero else f32PosInf
  | .fin _ m _ =>
    if m = 0 then f32One
    else
      match decF32 (fmul x 0x3FB8AA3B) with
      | .nan => f32NaN
      | .inf neg => if neg then f32Zero else f32PosInf
      | .fin tn tm te =>
        if !numLt (.fin tn tm te) (.fin false 128 0) then f32PosInf
        else if numLt (.fin tn tm te) (.fin true 127 0) then f32Zero
        else
          let n := floorNum tn tm te
          let g0 := min te 0
          let f := onGrid tn tm te g0 - n * 2 ^ (-g0).toNat
          let i := (f * 128) / (2 ^ (-g0).toNat : Nat)
          let g1 := min g0 (-7)
          let g := f * 2 ^ (g0 - g1).toNat - i * 2 ^ (-7 - g1).toNat
          let r := encF32 .nearest (numMul (ofGrid g g1) (decF32 0x3F317218))
          let a := ffma r 0x3F000000 f32One
          let p := ffma r a f32One
          let y := fmul (expTable i.toNat) p
          match decF32 y with
          | .fin _ ym ye =>
            if numLt (.fin false ym (ye + n)) (.fin false 1 (-126)) then f32Zero
            else if !numLt (.fin false ym (ye + n)) (.fin false 1 128) then f32PosInf
            else packF32 .nearest false ym (ye + n)
          | _ => f32PosInf

/-- The node's hyperbolic tangent (R106). -/
def tanhVx (u : F32) : F32 :=
  if isNaN u then f32NaN
  else
    let a := fabs u
    let v :=
      if !flt a 0x41200000 then f32One
      else if flt a 0x39800000 then a
      else
        let e := expVx (fmul a 0xC0000000)
        fdiv (fsub f32One e) (fadd f32One e)
    BitVec.ofNat 32 (bits v.toNat 0 31 + (if bitAt u.toNat 31 then 2 ^ 31 else 0))

end Sys2Proof.Machine
end

