-- ==== Sys2Proof/Machine/Formats.lean ====
section
/-!
DEFINITION. Element formats, conversion, microscaled blocks and folding (R141 to R158).
-/

namespace Sys2Proof.Machine

/-- The element formats of R141 that rows, queries and records use. -/
inductive Elem where
  | fp32 | bf16 | fp16 | e4m3 | e5m2 | e3m2 | e2m1 | int8
  deriving DecidableEq, Repr

/-- Bits of one element. -/
def Elem.width : Elem → Nat
  | .fp32 => 32 | .bf16 => 16 | .fp16 => 16 | .e4m3 => 8 | .e5m2 => 8 | .e3m2 => 6 | .e2m1 => 4 | .int8 => 8

/-- Mantissa bits. -/
def Elem.mant : Elem → Nat
  | .fp32 => 23 | .bf16 => 7 | .fp16 => 10 | .e4m3 => 3 | .e5m2 => 2 | .e3m2 => 2 | .e2m1 => 1 | .int8 => 6

/-- Exponent bits. -/
def Elem.ebits : Elem → Nat
  | .fp32 => 8 | .bf16 => 8 | .fp16 => 5 | .e4m3 => 4 | .e5m2 => 5 | .e3m2 => 3 | .e2m1 => 2 | .int8 => 0

/-- Exponent bias. -/
def Elem.bias : Elem → Nat
  | .fp32 => 127 | .bf16 => 127 | .fp16 => 15 | .e4m3 => 7 | .e5m2 => 15 | .e3m2 => 3 | .e2m1 => 1 | .int8 => 0

/-- Does the format encode infinity? -/
def Elem.hasInf : Elem → Bool
  | .fp32 => true | .bf16 => true | .fp16 => true | .e5m2 => true | _ => false

/-- Are subnormal elements read as zero (R141)? -/
def Elem.flushIn : Elem → Bool
  | .fp32 => true | .bf16 => true | .fp16 => true | _ => false

/-- The code of the largest finite magnitude. -/
def Elem.maxCode : Elem → Nat
  | .fp32 => 0x7F7FFFFF | .bf16 => 0x7F7F | .fp16 => 0x7BFF | .e4m3 => 0x7E | .e5m2 => 0x7B | .e3m2 => 0x1F
  | .e2m1 => 0x7 | .int8 => 0x7F

/-- The code a NaN input converts to (R146); formats without a NaN never receive one. -/
def Elem.nanCode : Elem → Nat
  | .fp32 => 0x7FC00000 | .bf16 => 0x7FC0 | .fp16 => 0x7E00 | .e4m3 => 0x7F | .e5m2 => 0x7E | _ => 0

/-- Decode an element code to an exact number (R141): subnormals of FP32, BF16 and FP16 read as zero. -/
def decElem (f : Elem) (c : Nat) : Num :=
  match f with
  | .int8 =>
    let v := asSigned 8 c
    .fin (decide (v < 0)) v.natAbs (-6)
  | _ =>
    let neg := bitAt c (f.width - 1)
    let e := bits c f.mant f.ebits
    let m := bits c 0 f.mant
    let top := 2 ^ f.ebits - 1
    if f.hasInf ∧ e = top then (if m = 0 then .inf neg else .nan)
    else if f = .e4m3 ∧ e = top ∧ m = 7 then .nan
    else if e = 0 then
      (if f.flushIn then .fin neg 0 0 else .fin neg m (1 - (f.bias : Int) - f.mant))
    else .fin neg (m + 2 ^ f.mant) ((e : Int) - f.bias - f.mant)

/-- Convert an exact number to a format (R145): one rounding to nearest even with gradual underflow, then
saturation or infinity, then results below the smallest normal value become +0. -/
def convElem (f : Elem) (x : Num) : Nat :=
  let sgn (neg : Bool) : Nat := if neg then 2 ^ (f.width - 1) else 0
  match f, x with
  | _, .nan => f.nanCode
  | _, .inf neg => if f.hasInf then sgn neg + f.maxCode + 1 else f.nanCode
  | .int8, .fin neg m e =>
    if m = 0 then 0
    else
      let (q, u) := roundRat .nearest neg 400 (-6) m 1 e
      let n := min (shl q (u + 6)) 127
      toUnsigned 8 (if neg then -(n : Int) else n)
  | _, .fin neg m e =>
    if m = 0 then sgn neg
    else
      let emin : Int := 1 - (f.bias : Int) - f.mant
      let (q, u) := roundRat .nearest neg (f.mant + 1) emin m 1 e
      let k := (q.log2 : Int) + u
      if q = 0 ∨ k < 1 - (f.bias : Int) then 0
      else
        let man := shl q (u - (k - f.mant))
        let code := (k + f.bias).toNat * 2 ^ f.mant + man % 2 ^ f.mant
        if f.maxCode < code then sgn neg + (if f.hasInf then f.maxCode + 1 else f.maxCode)
        else sgn neg + code

/-- Step 2 of R145: a subnormal FP32, BF16 or FP16 input is zero; `decElem` already reads it so. -/
def recode (src dst : Elem) (c : Nat) : Nat := if src = dst then c else convElem dst (decElem src c)

/-- What a page format code says (R143): the element format, whether blocks carry an E8M0 scale, and for folded
pages the code width. -/
structure PageFmt where
  elem  : Elem
  mx    : Bool
  fold  : Nat       -- 0 unfolded, 4 for F4, 3 for F3
  bytes : Nat       -- bytes per 32 elements
  deriving DecidableEq, Repr

/-- The table Page format codes (R143); every other code is invalid. -/
def pageFmt : Nat → Option PageFmt
  | 0x01 => some ⟨.bf16, false, 0, 64⟩
  | 0x02 => some ⟨.fp16, false, 0, 64⟩
  | 0x03 => some ⟨.e4m3, false, 0, 32⟩
  | 0x04 => some ⟨.e5m2, false, 0, 32⟩
  | 0x05 => some ⟨.e3m2, false, 0, 24⟩
  | 0x06 => some ⟨.e2m1, false, 0, 16⟩
  | 0x07 => some ⟨.int8, false, 0, 32⟩
  | 0x13 => some ⟨.e4m3, true, 0, 33⟩
  | 0x14 => some ⟨.e5m2, true, 0, 33⟩
  | 0x15 => some ⟨.e3m2, true, 0, 25⟩
  | 0x16 => some ⟨.e2m1, true, 0, 17⟩
  | 0x17 => some ⟨.int8, true, 0, 33⟩
  | 0x21 => some ⟨.e4m3, true, 4, 17⟩
  | 0x22 => some ⟨.e4m3, true, 3, 13⟩
  | _ => none

/-- Pack codes of `w` bits little-endian into `n` bytes. -/
def packCodes (w n : Nat) (cs : List Nat) : Bytes :=
  leBytes n (cs.zipIdx.foldl (fun a p => a + p.1 % 2 ^ w * 2 ^ (w * p.2)) 0)

/-- The `n` codes of `w` bits packed little-endian in a byte string. -/
def unpackCodes (w n : Nat) (bs : Bytes) : List Nat :=
  let v := leNat bs
  (upTo n).map fun i => bits v (w * i) w

/-- One decoded block of 32 elements: its numbers before scaling and its scale exponent, `none` for a NaN scale. -/
structure Block where
  elems : List Num
  scale : Option Int
  deriving DecidableEq, Repr

/-- A fold table (R151): its mode and its entries as FP8 E4M3 codes. -/
structure FoldTable where
  mode       : Nat
  partitions : Nat
  entries    : List Nat
  deriving DecidableEq, Repr, Inhabited

/-- Read one stored block (R142, R154, R155). -/
def readBlock (f : PageFmt) (t : FoldTable) (bs : Bytes) : Block :=
  if f.fold ≠ 0 then
    { elems := (unpackCodes f.fold 32 (bs.drop 1)).map fun c => decElem .e4m3 (t.entries.getD c 0)
      scale := some ((leAt bs 0 1 : Int) - 127) }
  else if f.mx then
    { elems := (unpackCodes f.elem.width 32 (bs.drop 1)).map (decElem f.elem)
      scale := if leAt bs 0 1 = 0xFF then none else some ((leAt bs 0 1 : Int) - 127) }
  else { elems := (unpackCodes f.elem.width 32 bs).map (decElem f.elem), scale := some 0 }

/-- The stored bytes of one element's value including its scale: what R169 and the value array see. -/
def Block.values (b : Block) : List Num :=
  match b.scale with
  | none => b.elems.map fun _ => .nan
  | some s => b.elems.map (numScale s)

/-- One butterfly stage of R150 over exact numbers. -/
def butterfly (h : Nat) (x : List Num) : List Num :=
  (upTo x.length).map fun i =>
    if bitAt i (h.log2) then numAdd (x.getD (i - h) .nan) (numNeg (x.getD i .nan))
    else numAdd (x.getD i .nan) (x.getD (i + h) .nan)

/-- The exact rotation of a 32-element block (R150). -/
def rotate (x : List Num) : List Num := [1, 2, 4, 8, 16].foldl (fun v h => butterfly h v) x

/-- The largest magnitude in a list of finite numbers. -/
def maxAbs (x : List Num) : Num :=
  x.foldl (fun a b => if numLt a (numAbs b) then numAbs b else a) (.fin false 0 0)

/-- The integer part of the base-2 logarithm of a nonzero finite number. -/
def numLog2 : Num → Int
  | .fin _ m e => (m.log2 : Int) + e
  | _ => 0

/-- The exact distance of two finite numbers. -/
def numDist (a b : Num) : Num := numAbs (numAdd a (numNeg b))

/-- The lowest index of the table entry nearest to `u` (R153). -/
def nearest (u : Num) : List Num → Nat
  | [] => 0
  | t :: ts => (go u ts 1 0 (numDist u t))
where
  go (u : Num) : List Num → Nat → Nat → Num → Nat
    | [], _, best, _ => best
    | t :: ts, i, best, d =>
      let d' := numDist u t
      if numLt d' d then go u ts (i + 1) i d' else go u ts (i + 1) best d

/-- Clamp an exponent to -127 to 127 (R148, R153). -/
def clampExp (e : Int) : Int := min (max e (-127)) 127

/-- fold_block (R153): the scale byte and the 32 codes. -/
def foldBlock (x : List Num) (t : List Num) : Nat × List Nat :=
  let y := rotate x
  let amax := maxAbs y
  let tmax := maxAbs [t.getD 0 .nan, t.getD (t.length - 1) .nan]
  let e := if numIsZero amax then 0 else clampExp (numLog2 amax - numLog2 tmax)
  ((e + 127).toNat, y.map fun v => nearest (numScale (-e) v) t)

/-- Convert an element of an MX block: a finite value saturates after scaling, also in FP8 E5M2 (R146). -/
def convMx (f : Elem) (v : Num) : Nat :=
  let c := convElem f v
  if f = .e5m2 ∧ c % 128 = 0x7C then c - 1 else c

/-- Store one 32-element block of an appended row in a page format (R148, R153, R154). -/
def storeBlock (f : PageFmt) (t : FoldTable) (x : List Num) : Bytes :=
  if f.fold ≠ 0 then
    let (b, cs) := foldBlock x (t.entries.map (decElem .e4m3))
    leBytes 1 b ++ packCodes f.fold (f.bytes - 1) cs
  else if f.mx then
    if x.all numFinite then
      let amax := maxAbs x
      let eTop : Int := match f.elem with | .e4m3 => 8 | .e5m2 => 15 | .e3m2 => 4 | .e2m1 => 2 | _ => 0
      let e := if numIsZero amax then 0 else clampExp (numLog2 amax - eTop)
      leBytes 1 (e + 127).toNat ++
        packCodes f.elem.width (f.bytes - 1) (x.map fun v => convMx f.elem (numScale (-e) v))
    else 0xFF :: List.replicate (f.bytes - 1) 0
  else packCodes f.elem.width f.bytes (x.map (convElem f.elem))

/-- A row element that its page format cannot hold (R146): NaN or infinity into a format without either. -/
def badForFmt (f : PageFmt) (x : Num) : Bool :=
  !numFinite x &&
    (f.fold != 0 || (!f.mx && (f.elem == .e3m2 || f.elem == .e2m1 || f.elem == .int8)))

/-- Store a whole row (R142: blocks in ascending element order). -/
def storeRow (f : PageFmt) (t : FoldTable) (x : List Num) : Bytes :=
  ((chunks 32 x.length x).map (storeBlock f t)).flatten

/-- Read a whole stored row as blocks. -/
def readRow (f : PageFmt) (t : FoldTable) (bs : Bytes) : List Block :=
  (chunks f.bytes bs.length bs).map (readBlock f t)

/-- A vector of codes of an element format laid end to end in bytes. -/
def decVec (f : Elem) (bs : Bytes) : List Num :=
  (chunks (f.width / 8) bs.length bs).map fun c => decElem f (leNat c)

/-- One FP32 butterfly stage, each sum rounded (R156). -/
def butterflyF (h : Nat) (x : List F32) : List F32 :=
  (upTo x.length).map fun i =>
    if bitAt i (h.log2) then fsub (x.getD (i - h) 0) (x.getD i 0) else fadd (x.getD i 0) (x.getD (i + h) 0)

/-- The inverse rotation of one 32-element FP32 block (R156): 2^-5 is 0x3D000000. -/
def unrotBlock (x : List F32) : List F32 :=
  ([1, 2, 4, 8, 16].foldl (fun v h => butterflyF h v) x).map fun v => fmul v 0x3D000000

/-- The inverse rotation of a whole output row. -/
def unrotate (o : List F32) : List F32 := ((chunks 32 o.length o).map unrotBlock).flatten

/-- The fixed F4 reply table (R158): the FP4 E2M1 code points. -/
def replyTable : List Num := (upTo 16).map (decElem .e2m1)

/-- One 32-element block of o as a folded reply block (R158). The table's largest magnitude is 6, its last entry. -/
def foldReplyBlock (x : List F32) : Bytes :=
  let v := x.map decF32
  if v.all numFinite then
    let (b, cs) := foldBlock v replyTable
    leBytes 1 b ++ packCodes 4 16 cs
  else 0xFF :: List.replicate 16 0

/-- How a receiver decodes one folded reply block, before the inverse rotation (R158). -/
def unfoldReplyBlock (bs : Bytes) : List F32 :=
  if leAt bs 0 1 = 0xFF then List.replicate 32 f32NaN
  else unrotBlock ((unpackCodes 4 32 (bs.drop 1)).map fun c =>
    encF32 .nearest (numScale ((leAt bs 0 1 : Int) - 127) (replyTable.getD c .nan)))

/-- An output row in OFMT (R149, R158): 0 BF16, 1 FP32, 2 F4. -/
def encOut (ofmt : Nat) (o : List F32) : Bytes :=
  if ofmt = 0 then (o.map fun v => leBytes 2 (convElem .bf16 (decF32 v))).flatten
  else if ofmt = 1 then (o.map fun v => leBytes 4 v.toNat).flatten
  else ((chunks 32 o.length o).map foldReplyBlock).flatten

end Sys2Proof.Machine
end

