-- ==== Sys2Proof/Machine/Attention.lean ====
section
/-!
DEFINITION. What a core computes for one query row against one page, and how partials merge: scores, the
normaliser, tile and page partials, combine, score lists and finalise (R75 to R79, R91 to R117).
-/

namespace Sys2Proof.Machine

/-- The triple (m, l, o) of R102 with the score list of R110; `nan` is NAN_SEEN. With SCORES_ONLY, `o` is empty. -/
structure Partial where
  m   : F32
  l   : F32
  o   : List F32
  top : List (F32 × Nat)
  nan : Bool
  deriving DecidableEq, Repr, Inhabited

/-- The identity partial of R75 for `d` output elements. -/
def identP (d : Nat) : Partial := ⟨f32NegInf, f32Zero, List.replicate d f32Zero, [], false⟩

/-- The identity as the value of a covered page, its score list filled (R75, R78, R110). An ordinal outside the coverage
has no list: combining with it returns the other operand unchanged (R75). -/
def pageIdent (topk d : Nat) : Partial :=
  { identP d with top := List.replicate topk (f32NegInf, 0xFFFFFFFF) }

/-- The canonical NaN partial (R76, R102). -/
def nanP (d : Nat) : Partial := ⟨f32NaN, f32NaN, List.replicate d f32NaN, [], true⟩

/-- Does any element hold a NaN? -/
def Partial.hasNaN (p : Partial) : Bool := isNaN p.m || isNaN p.l || p.o.any isNaN

/-- Should entry `a` of a score list stand before `b` (R78): higher score first, -0 below +0, NaN last, equal
scores by lower position? -/
def topBefore (a b : F32 × Nat) : Bool :=
  decide (fkey b.1 < fkey a.1) || (decide (fkey a.1 = fkey b.1) && decide (a.2 ≤ b.2))

/-- Put one entry into an ordered score list. -/
def topInsert (x : F32 × Nat) : List (F32 × Nat) → List (F32 × Nat)
  | [] => [x]
  | y :: ys => if topBefore x y then x :: y :: ys else y :: topInsert x ys

/-- Merge score lists and keep the first `k` (R78, R110). -/
def topMerge (k : Nat) (a b : List (F32 × Nat)) : List (F32 × Nat) :=
  ((a ++ b).foldl (fun l x => topInsert x l) []).take k

/-- The score list as it is sent: filled with score -∞ at position 0xFFFF_FFFF (R78). -/
def topFill (k : Nat) (l : List (F32 × Nat)) : List (F32 × Nat) :=
  l.take k ++ List.replicate (k - l.length) (f32NegInf, 0xFFFFFFFF)

/-- combine (R76), the left child first, in exactly the order of the rule, with the lists of R78. -/
def combine (topk : Nat) (a b : Partial) : Partial :=
  let top := topMerge topk a.top b.top
  let bad (p : Partial) : Bool := isNaN p.m || p.m == f32PosInf
  if bad a || bad b then { nanP a.o.length with top := top }
  else if b.m == f32NegInf then { a with top := top, nan := a.nan || b.nan }
  else if a.m == f32NegInf then { b with top := top, nan := a.nan || b.nan }
  else
    let m := fmax a.m b.m
    let ea := expVx (fsub a.m m)
    let eb := expVx (fsub b.m m)
    let r : Partial :=
      { m := m
        l := fadd (fmul a.l ea) (fmul b.l eb)
        o := List.zipWith (fun x y => fadd (fmul x ea) (fmul y eb)) a.o b.o
        top := top
        nan := a.nan || b.nan }
    { r with nan := r.nan || r.hasNaN }

/-- Combine a row of siblings pairwise up a complete tree of the given height, left before right (R93, R104). -/
def combineTree (topk : Nat) (d : Nat) : Nat → List Partial → Partial
  | 0, ps => ps.getD 0 (identP d)
  | n + 1, ps =>
    combine topk (combineTree topk d n (ps.take (2 ^ n))) (combineTree topk d n (ps.drop (2 ^ n)))

/-- The parameters every row of a pass shares (R91): the pass key of R128. -/
structure PassKey where
  recipe     : Nat
  scale      : F32
  param      : F32
  qcompute   : Nat
  bias       : Bool
  topk       : Nat
  scoresOnly : Bool
  deriving DecidableEq, Repr, Inhabited

/-- The element format of QCOMPUTE. -/
def qElem (qcompute : Nat) : Elem := if qcompute = 1 then .e4m3 else .bf16

/-- The plain query form (R96, R60): QFMT to QCOMPUTE. -/
def plainForm (qf : Elem) (qcompute : Nat) (q : Bytes) : List Num :=
  (chunks (qf.width / 8) q.length q).map fun c => decElem (qElem qcompute) (recode qf (qElem qcompute) (leNat c))

/-- The rotated query form (R96): exact rotation of each block, then one rounding to QCOMPUTE. -/
def rotatedForm (qf : Elem) (qcompute : Nat) (q : Bytes) : List Num :=
  let x := decVec qf q
  ((chunks 32 x.length x).map fun b => (rotate b).map fun v =>
    decElem (qElem qcompute) (convElem (qElem qcompute) v)).flatten

/-- An exact sum, with an exact zero read as +0: the accumulator is an integer and has no -0 (R98, R99). -/
def exactSum (xs : List Num) : Num :=
  match xs.foldl numAdd (.fin false 0 0) with
  | .fin _ 0 _ => .fin false 0 0
  | r => r

/-- One block value of R98: the exact sum of 32 products, shifted by the block's scale and by 2^-5 for a folded
page, rounded once. -/
def blockValue (folded : Bool) (q : List Num) (k : Block) : F32 :=
  match k.scale with
  | none => f32NaN
  | some s =>
    encF32 .nearest (numScale (s - if folded then 5 else 0) (exactSum (List.zipWith numMul q k.elems)))

/-- The raw score of R99: the FP32 sum of the block values in ascending order. -/
def rawScore (folded : Bool) (q : List Num) (k : List Block) : F32 :=
  match List.zipWith (blockValue folded) (chunks 32 q.length q) k with
  | [] => f32Zero
  | b :: bs => bs.foldl fadd b

/-- final_score of R101 for a visible key. -/
def finalScore (key : PassKey) (s : F32) (bias : F32) : F32 :=
  let s := fmul s key.scale
  let s := if key.bias then fadd s bias else s
  if key.recipe = 2 then fmul key.param (tanhVx (fdiv s key.param)) else s

/-- One key of a tile as the normaliser sees it: its final score, whether the row sees it, its step, and its value
row. -/
structure KeyIn where
  score   : F32
  visible : Bool
  step    : Nat
  value   : List Num
  deriving DecidableEq, Repr

/-- One 32-key block of the value array (R102, R103): exact products with nonzero probability, rounded once. -/
def valueBlock (ps : List (Num × Num)) : F32 :=
  encF32 .nearest (exactSum (ps.map fun p => if numIsZero p.1 then .fin false 0 0 else numMul p.1 p.2))

/-- blocksum of R102: the blocks of 32 keys in ascending order, added in FP32. -/
def blockSum (ps : List (Num × Num)) : F32 :=
  match (chunks 32 ps.length ps).map valueBlock with
  | [] => f32Zero
  | b :: bs => bs.foldl fadd b

/-- The 64 final scores of a tile: -∞ for a key the row does not see (R101). -/
def tileScores (ks : List KeyIn) : List F32 := ks.map fun k => if k.visible then k.score else f32NegInf

/-- The probabilities of a tile's keys against its largest score (R102). -/
def tileProbs (key : PassKey) (sc : List F32) (m : F32) : List Num :=
  sc.map fun s => decElem (qElem key.qcompute) (convElem (qElem key.qcompute) (decF32 (expVx (fsub s m))))

/-- tile_partial of R102 for `d` output elements, with the score list of R110, filled before any merge (R78). -/
def tilePartial (key : PassKey) (d : Nat) (ks : List KeyIn) : Partial :=
  let top := topFill key.topk (topMerge key.topk [] ((ks.filter (·.visible)).map fun k => (k.score, k.step)))
  let sc := tileScores ks
  if sc.any fun s => isNaN s || s == f32PosInf then { nanP d with top := top }
  else
    let m := sc.foldl fmax f32NegInf
    if m == f32NegInf then { identP d with top := top }
    else
      let ps := tileProbs key sc m
      let r : Partial :=
        { m := m
          l := blockSum (ps.map fun p => (p, .fin false 1 0))
          o := (upTo d).map fun i => blockSum (List.zipWith (fun p k => (p, k.value.getD i (.fin false 0 0))) ps ks)
          top := top
          nan := false }
      { r with nan := r.hasNaN }

/-! ## Checksum columns (R111) -/

/-- Weight of an accumulator's least significant bit, as the negated exponent of 2 (table Accumulators). -/
def accLsb (array qcompute : Nat) : Nat := if qcompute ≠ 1 then 280 else if array = 0 then 25 else 152

/-- A number's residue modulo 2^24 in units of 2^-lsb; none for a NaN or an infinity. -/
def residue (lsb : Nat) : Num → Option Nat
  | .fin neg m e =>
    let k := e + lsb
    let v : Int := if 0 ≤ k then m * 2 ^ k.toNat else m / 2 ^ (-k).toNat
    some (toUnsigned 24 (if neg then -v else v))
  | _ => none

/-- The exact sum of products. -/
def exactDot (a b : List Num) : Num := exactSum (List.zipWith numMul a b)

/-- The checksum column's residue: the row's operand against the exact sum of the 64 columns' operands. -/
def checkResidue (lsb : Nat) (a : List Num) (cells : List (List Num)) : Option Nat :=
  residue lsb (exactDot a ((upTo a.length).map fun i => exactSum (cells.map fun c => c.getD i (.fin false 0 0))))

/-- The sum of the row's 64 cell residues modulo 2^24. -/
def cellResidues (lsb : Nat) (a : List Num) (cells : List (List Num)) : Option Nat :=
  cells.foldl (fun acc c => match acc, residue lsb (exactDot a c) with
    | some s, some r => some ((s + r) % 2 ^ 24)
    | _, _ => none) (some 0)

/-- Decode a bound code of the page header to FP32 (R169). -/
def boundF32 (base c : Nat) : F32 :=
  if c = 0 then f32Zero
  else
    let e : Int := (base : Int) - 127 - 15 + c
    if e < -126 then 0x00800000 else if 127 < e then f32PosInf else packF32 .nearest false 1 e

/-- The bound B_j of R109, every operation rounded towards plus infinity. -/
def boundOf (folded : Bool) (scale : F32) (q : List Num) (bounds : List F32) : F32 :=
  let prods := List.zipWith (fun x b => fmulUp (encF32 .up (numAbs x)) b) q bounds
  let s := prods.foldl faddUp f32Zero
  let s := fmulUp s (fabs scale)
  if folded then fmulUp s 0x3D000000 else s

/-- finalise of R79 on one row: the sink leaf, the wholly masked row, the inverse rotation, the division. The flag
says the row is wholly masked. -/
def finalise (recipe : Nat) (param : F32) (folded : Bool) (r : Partial) : Partial × Bool :=
  let r := if recipe = 3 then
      combine 0 r { m := param, l := f32One, o := List.replicate r.o.length f32Zero, top := [], nan := false }
    else r
  if r.m == f32NegInf then ({ r with l := f32Zero, o := r.o.map fun _ => f32Zero }, true)
  else
    let o := if folded then unrotate r.o else r.o
    let r' : Partial := { r with o := o.map fun v => fdiv v r.l }
    ({ r' with nan := r'.nan || r'.hasNaN || o.any isNaN }, false)

/-- Head dimensions by D_CODE: key length d_k (also the query length). -/
def dKey (dcode : Nat) : Nat :=
  match dcode with | 0 => 64 | 1 => 96 | 2 => 128 | 3 => 192 | 4 => 256 | _ => 576

/-- Output length by D_CODE: 512 for a latent page. -/
def dOut (dcode : Nat) : Nat := if dcode = 5 then 512 else dKey dcode

/-- Rows per token: K and V, or one for a latent page. -/
def rowsOf (dcode : Nat) : Nat := if dcode = 5 then 1 else 2

/-- Page tokens by TOKENS_CODE. -/
def tokensOf (tcode : Nat) : Nat := 128 * 2 ^ tcode

/-- The cost of a pass in arithmetic cycles (R94). -/
def passCycles (tiles dcode : Nat) (key : PassKey) (folded : Bool) : Nat :=
  let r := if key.qcompute = 1 then 1 else 4
  let tc := if key.scoresOnly then dKey dcode else max (dKey dcode) (64 * ceilDiv (dOut dcode) 64)
  tiles * r * tc + 32 + (if folded then 32 else 0) + (if key.recipe = 5 then 64 else 0)

/-- Limits of SCALE, PARAM, TOPK and BIAS by recipe (R108): 0 for a legal letter, 1 for BAD_FORMAT, 2 for
BAD_LENGTH. -/
def recipeParams (recipe dcode topk : Nat) (scale param : F32) (bias scoresOnly : Bool) : Nat :=
  let latOk := if recipe = 1 then dcode = 5 else if recipe = 5 then True else dcode ≠ 5
  let needsZeroParam := recipe = 0 ∨ recipe = 1 ∨ recipe = 5
  if recipe > 5 ∨ ¬ latOk ∨ !numFinite (decF32 scale) ∨ !numFinite (decF32 param) ∨
      (needsZeroParam ∧ param ≠ 0) ∨ (recipe ≠ 5 ∧ topk ≠ 0) ∨ (recipe = 4 ∧ bias) ∨ (scoresOnly ∧ recipe ≠ 5)
  then 1
  else if recipe = 2 ∧ (flt param f32One ∨ flt 0x47800000 param) then 2
  else if recipe = 5 ∧ (topk = 0 ∨ 64 < topk) then 2
  else 0

end Sys2Proof.Machine
end

