-- ==== Sys2Proof/Machine/Hash.lean ====
section
/-!
DEFINITION. The digests the node computes: SHA-256 and SHA-384 (FIPS 180-4), CRC-32C (R161) and CRC-64 (R442).
-/

namespace Sys2Proof.Machine

/-- The primes from 2 to `n + 1`, by trial division. -/
def primesUpTo (n : Nat) : List Nat :=
  (span 2 n).foldl (fun ps k => if ps.any fun p => k % p == 0 then ps else ps ++ [k]) []

/-- The largest `m` in `[lo, lo + 2 ^ k)` with `m ^ e <= t`, bit by bit. -/
def primeRoot (e t : Nat) : Nat → Nat → Nat
  | 0, lo => lo
  | k + 1, lo => if (lo + 2 ^ k) ^ e ≤ t then primeRoot e t k (lo + 2 ^ k) else primeRoot e t k lo

/-- FIPS 180-4 takes every constant of its hashes from roots of primes: the first `w` fractional bits of the `e`-th root
of the `n` primes after the first `skip`. -/
def rootBits (w e skip n : Nat) : List (BitVec w) :=
  ((primesUpTo 409).drop skip).take n |>.map fun p => BitVec.ofNat w (primeRoot e (p * 2 ^ (e * w)) (w + 5) 0)

/-- Big-endian words of `w` bits of a byte string. -/
def beNat (bs : Bytes) : Nat := bs.foldl (fun a b => a * 256 + b.toNat) 0

/-- The `n` bytes of a number, most significant first. -/
def beBytes (n v : Nat) : Bytes := (leBytes n v).reverse

/-- FIPS 180-4 padding to whole blocks of `blk` bytes with a length field of `lenb` bytes. -/
def shaPad (blk lenb : Nat) (msg : Bytes) : Bytes :=
  let n := msg.length + 1 + lenb
  msg ++ [0x80] ++ List.replicate ((blk - n % blk) % blk) 0 ++ beBytes lenb (8 * msg.length)

/-- Extend a message schedule by one word given the last words in reverse order. -/
def shaExtend {w : Nat} (s0 s1 : BitVec w → BitVec w) : Nat → List (BitVec w) → List (BitVec w)
  | 0, r => r
  | n + 1, r =>
    let x := s1 (r.getD 1 0) + r.getD 6 0 + s0 (r.getD 14 0) + r.getD 15 0
    shaExtend s0 s1 n (x :: r)

/-- The working variables of the compression function. -/
structure ShaV (w : Nat) where
  a : BitVec w
  b : BitVec w
  c : BitVec w
  d : BitVec w
  e : BitVec w
  f : BitVec w
  g : BitVec w
  h : BitVec w

/-- One compression round. -/
def shaRound {w : Nat} (bs0 bs1 : BitVec w → BitVec w) (v : ShaV w) (kw : BitVec w) : ShaV w :=
  let ch := (v.e &&& v.f) ^^^ (~~~v.e &&& v.g)
  let maj := (v.a &&& v.b) ^^^ (v.a &&& v.c) ^^^ (v.b &&& v.c)
  let t1 := v.h + bs1 v.e + ch + kw
  let t2 := bs0 v.a + maj
  ⟨t1 + t2, v.a, v.b, v.c, v.d + t1, v.e, v.f, v.g⟩

/-- Compress one block into a hash value of eight words. -/
def shaBlock {w : Nat} (bs0 bs1 ss0 ss1 : BitVec w → BitVec w) (ks : List (BitVec w)) (wb : Nat)
    (hv : List (BitVec w)) (blk : Bytes) : List (BitVec w) :=
  let ws := (chunks wb 16 blk).map fun b => BitVec.ofNat w (beNat b)
  let sched := (shaExtend ss0 ss1 (ks.length - 16) ws.reverse).reverse
  let v0 : ShaV w := ⟨hv.getD 0 0, hv.getD 1 0, hv.getD 2 0, hv.getD 3 0, hv.getD 4 0, hv.getD 5 0, hv.getD 6 0, hv.getD 7 0⟩
  let v := (List.zipWith (· + ·) ks sched).foldl (shaRound bs0 bs1) v0
  List.zipWith (· + ·) hv [v.a, v.b, v.c, v.d, v.e, v.f, v.g, v.h]

/-- SHA-256 of a byte string. -/
def sha256 (msg : Bytes) : Bytes :=
  let r (n : Nat) (x : BitVec 32) := x.rotateRight n
  let blocks := let p := shaPad 64 8 msg; chunks 64 p.length p
  let h0 := rootBits 32 2 0 8
  let hv := blocks.foldl (shaBlock (fun x => r 2 x ^^^ r 13 x ^^^ r 22 x) (fun x => r 6 x ^^^ r 11 x ^^^ r 25 x)
    (fun x => r 7 x ^^^ r 18 x ^^^ x >>> 3) (fun x => r 17 x ^^^ r 19 x ^^^ x >>> 10) (rootBits 32 3 0 64) 4) h0
  (hv.map fun x => beBytes 4 x.toNat).flatten

/-- SHA-384 of a byte string. -/
def sha384 (msg : Bytes) : Bytes :=
  let r (n : Nat) (x : BitVec 64) := x.rotateRight n
  let blocks := let p := shaPad 128 16 msg; chunks 128 p.length p
  let h0 := rootBits 64 2 8 8
  let hv := blocks.foldl (shaBlock (fun x => r 28 x ^^^ r 34 x ^^^ r 39 x) (fun x => r 14 x ^^^ r 18 x ^^^ r 41 x)
    (fun x => r 1 x ^^^ r 8 x ^^^ x >>> 7) (fun x => r 19 x ^^^ r 61 x ^^^ x >>> 6) (rootBits 64 3 0 80) 8) h0
  ((hv.map fun x => beBytes 8 x.toNat).flatten).take 48

/-- One byte through a reflected CRC of width 32. -/
def crcByte32 (poly : BitVec 32) (c : BitVec 32) (b : Byte) : BitVec 32 :=
  (upTo 8).foldl (fun c _ => if c.getLsbD 0 then (c >>> 1) ^^^ poly else c >>> 1) (c ^^^ b.zeroExtend 32)

/-- CRC-32C: polynomial 0x1EDC_6F41 reflected, initial value and final XOR all ones (R161). -/
def crc32c (msg : Bytes) : Nat := (msg.foldl (crcByte32 0x82F63B78) 0xFFFFFFFF ^^^ 0xFFFFFFFF).toNat

/-- CRC-64 of the known-answer digest: polynomial 0x42F0_E1EB_A9EA_3693, initial value 0, no reflection (R442). -/
def crc64 (msg : Bytes) : Nat :=
  (msg.foldl (fun (c : BitVec 64) b =>
    (upTo 8).foldl (fun c _ => if c.getLsbD 63 then (c <<< 1) ^^^ 0x42F0E1EBA9EA3693 else c <<< 1)
      (c ^^^ ((b.zeroExtend 64 : BitVec 64) <<< (56 : Nat)))) (0 : BitVec 64)).toNat

end Sys2Proof.Machine
end

