-- ==== Sys2Proof/Machine/Frames.lean ====
section
/-!
DEFINITION. The bytes of a page frame: its geometry (R166), its header (R167), its bound vector (R169), storing a
token (R148, R153, R168) and the consistency checks (R159); and the sequence descriptor (R172).
-/

namespace Sys2Proof.Machine

/-- A sequence descriptor (table Sequence descriptor). -/
structure SeqDesc where
  seq       : Nat
  modelId   : Nat
  layers    : Nat
  kvHeads   : Nat
  format    : Nat
  foldTable : Nat
  tcode     : Nat
  dcode     : Nat
  bias      : Bool
  position  : Bool
  blockLog2 : Nat
  localLog2 : Nat
  spanLog2  : Nat
  rangeLog2 : Nat
  listCount : Nat
  skew      : Nat
  listAddr  : Nat
  ordLimit  : Nat
  deriving DecidableEq, Repr, Inhabited

/-- Read a sequence descriptor. -/
def decSeqDesc (bs : Bytes) : SeqDesc :=
  let w := leAt bs 0x10 8
  { seq := leAt bs 0 8, modelId := leAt bs 8 4, layers := leAt bs 12 2, kvHeads := leAt bs 14 2,
    format := bits w 0 8, foldTable := bits w 8 6, tcode := bits w 14 2, dcode := bits w 16 4, bias := bitAt w 20,
    position := bitAt w 21, blockLog2 := bits w 24 5, localLog2 := bits w 32 4, spanLog2 := bits w 40 5,
    rangeLog2 := bits w 48 6, listCount := leAt bs 0x18 2, skew := leAt bs 0x1A 2, listAddr := leAt bs 0x20 8,
    ordLimit := bits (leAt bs 0x28 8) 0 25 }

/-- A nonzero reserved field of a descriptor (R7). -/
def seqDescRsv (bs : Bytes) : Bool :=
  let w := leAt bs 0x10 8
  bits w 22 2 ≠ 0 ∨ bits w 29 3 ≠ 0 ∨ bits w 36 4 ≠ 0 ∨ bits w 45 3 ≠ 0 ∨ bits w 54 10 ≠ 0 ∨ leAt bs 0x1C 4 ≠ 0 ∨
    bits (leAt bs 0x28 8) 25 39 ≠ 0 ∨ leAt bs 0x30 16 ≠ 0

/-- Tokens per page. -/
def SeqDesc.p (d : SeqDesc) : Nat := tokensOf d.tcode

/-- The page format, or an empty one for a code that is none (never in an open sequence). -/
def SeqDesc.fmt (d : SeqDesc) : PageFmt := (pageFmt d.format).getD ⟨.bf16, false, 0, 64⟩

/-- The slot of a page (R173). -/
def SeqDesc.slot (d : SeqDesc) (layer head ord : Nat) : Nat :=
  (layer * d.kvHeads + head) * 2 ^ d.spanLog2 + ord

/-- The ordinal a slot stands for. -/
def SeqDesc.slotOrd (d : SeqDesc) (slot : Nat) : Nat := slot % 2 ^ d.spanLog2

/-- Layer times heads plus head of a slot. -/
def SeqDesc.slotHead (d : SeqDesc) (slot : Nat) : Nat := slot / 2 ^ d.spanLog2

/-- The placement index of R182. -/
def SeqDesc.placeIndex (d : SeqDesc) (slot : Nat) : Nat :=
  let h := d.slotHead slot
  let n := max d.listCount 1
  if d.position then (d.slotOrd slot / 2 ^ d.blockLog2 + h * d.skew) % n else (h + d.skew) % n

/-- Row bytes (R165). -/
def rowBytes (f : PageFmt) (dcode : Nat) : Nat := dKey dcode / 32 * f.bytes

/-- Where the bias area of a frame starts: the end of the row areas rounded up to 64 B (R166). -/
def biasOff (f : PageFmt) (dcode p : Nat) : Nat := (256 + p * rowsOf dcode * rowBytes f dcode + 63) / 64 * 64

/-- End of the row areas. -/
def rowsEnd (f : PageFmt) (dcode p : Nat) : Nat := 256 + p * rowsOf dcode * rowBytes f dcode

/-- Bytes a frame holds: rows and, with bias, the bias area. -/
def frameBytes (f : PageFmt) (dcode p : Nat) (bias : Bool) : Nat :=
  biasOff f dcode p + if bias then 2 * p else 0

/-- Granules of a frame (R166). -/
def frameGranules (f : PageFmt) (dcode p : Nat) (bias : Bool) : Nat := ceilDiv (frameBytes f dcode p bias) 4096

/-- Granules of a page of a sequence. -/
def SeqDesc.granules (d : SeqDesc) : Nat := frameGranules d.fmt d.dcode d.p d.bias

/-- Offset in the frame of a token's row: `r` 0 for K, 1 for V. -/
def rowOff (f : PageFmt) (dcode p t r : Nat) : Nat := 256 + (r * p + t) * rowBytes f dcode

/-- A page header (table Page header). -/
structure PageHdr where
  format     : Nat
  foldTable  : Nat
  dcode      : Nat
  tcode      : Nat
  bias       : Bool
  sealSt     : Nat
  tokenCount : Nat
  blockCount : Nat
  occLen     : Nat
  scaleLo    : Nat
  scaleHi    : Nat
  boundBase  : Nat
  boundInf   : Bool
  stepBase   : Nat
  modelId    : Nat
  layer      : Nat
  kvHead     : Nat
  ordinal    : Nat
  seq        : Nat
  hash       : Nat
  prefixHash : Nat
  refs       : Nat
  sealTick   : Nat
  bounds     : Nat      -- 256 codes of 4 bits
  deriving DecidableEq, Repr, Inhabited

/-- Read a page header. -/
def decPageHdr (bs : Bytes) : PageHdr :=
  let w := leAt bs 0 4
  let x := leAt bs 0x10 4
  { format := bits w 0 8, foldTable := bits w 8 6, dcode := bits w 16 4, tcode := bits w 20 2, bias := bitAt w 22,
    sealSt := bits w 24 2, tokenCount := leAt bs 4 2, blockCount := leAt bs 8 4, occLen := leAt bs 12 4,
    scaleLo := bits x 0 8, scaleHi := bits x 8 8, boundBase := bits x 16 8, boundInf := bitAt x 24,
    stepBase := leAt bs 0x14 4, modelId := leAt bs 0x18 4, layer := leAt bs 0x1C 2, kvHead := leAt bs 0x1E 2,
    ordinal := leAt bs 0x20 3, seq := leAt bs 0x28 8, hash := leAt bs 0x30 32, prefixHash := leAt bs 0x50 32,
    refs := leAt bs 0x70 3, sealTick := leAt bs 0x78 6, bounds := leAt bs 0x80 128 }

/-- Write a page header: 256 bytes, reserved fields zero. -/
def encPageHdr (h : PageHdr) : Bytes :=
  leBytes 4 (h.format % 256 + h.foldTable % 64 * 2 ^ 8 + h.dcode % 16 * 2 ^ 16 + h.tcode % 4 * 2 ^ 20 +
      b2n h.bias * 2 ^ 22 + h.sealSt % 4 * 2 ^ 24) ++
  leBytes 4 (h.tokenCount % 2 ^ 16) ++ leBytes 4 h.blockCount ++ leBytes 4 h.occLen ++
  leBytes 4 (h.scaleLo % 256 + h.scaleHi % 256 * 2 ^ 8 + h.boundBase % 256 * 2 ^ 16 + b2n h.boundInf * 2 ^ 24) ++
  leBytes 4 h.stepBase ++ leBytes 4 h.modelId ++ leBytes 2 h.layer ++ leBytes 2 h.kvHead ++
  leBytes 8 (h.ordinal % 2 ^ 24) ++ leBytes 8 h.seq ++ leBytes 32 h.hash ++ leBytes 32 h.prefixHash ++
  leBytes 8 (h.refs % 2 ^ 24) ++ leBytes 8 (h.sealTick % 2 ^ 48) ++ leBytes 128 h.bounds

/-- The watermark of a page (R65): the highest step appended, modulo 2^32. -/
def PageHdr.watermark (h : PageHdr) : Nat := (h.stepBase + h.tokenCount + 2 ^ 32 - 1) % 2 ^ 32

/-- The header a fresh frame is given (R167, R170). -/
def freshHdr (d : SeqDesc) (slot : Nat) : PageHdr :=
  { (default : PageHdr) with
    format := d.format, foldTable := d.foldTable, dcode := d.dcode, tcode := d.tcode, bias := d.bias,
    occLen := 256, stepBase := d.slotOrd slot * d.p, modelId := d.modelId, layer := d.slotHead slot / max d.kvHeads 1,
    kvHead := d.slotHead slot % max d.kvHeads 1, ordinal := d.slotOrd slot, seq := d.seq, refs := 1 }

/-- The smallest power-of-two exponent whose power covers a nonzero magnitude, clamped (R169). -/
def ceilLog2 (n : Num) : Int :=
  match n with
  | .fin _ m e =>
    let k := (m.log2 : Int) + e
    let c := if 2 ^ m.log2 = m then k else k + 1
    min (max c (-127)) 128
  | _ => 128

/-- raise_bound of R169 for key dimension `i` and exponent `x`. -/
def raiseBound (h : PageHdr) (i : Nat) (x : Int) : PageHdr :=
  let e0 : Int := (h.boundBase : Int) - 127
  let fresh := h.boundBase = 0 ∧ h.bounds = 0
  let sh := (x - e0).toNat
  let lowered := if ¬ fresh ∧ e0 < x then
      (upTo 256).foldl (fun b j =>
        let c := bits b (4 * j) 4
        if c = 0 then b else putBits b (4 * j) 4 (max 1 (c - sh))) h.bounds
    else h.bounds
  let e := if fresh ∨ e0 < x then x else e0
  let c := bits lowered (4 * i) 4
  let c' := max (max (c : Int) (x - e + 15)) 1
  { h with bounds := putBits lowered (4 * i) 4 c'.toNat, boundBase := (e + 127).toNat }

/-- Raise the bounds for one stored K row of an ordinary page (R169); a NaN or infinity sets BOUND_INF. -/
def raiseRow (h : PageHdr) (vals : List Num) : PageHdr :=
  vals.zipIdx.foldl (fun h v =>
    match v.1 with
    | .fin _ m _ => if m = 0 then h else raiseBound h v.2 (ceilLog2 v.1)
    | _ => { h with boundInf := true }) h

/-- Stored scale bytes of a row. -/
def rowScales (f : PageFmt) (row : Bytes) : List Nat :=
  if f.mx then (chunks f.bytes row.length row).map fun b => leAt b 0 1 else []

/-- Update the header for one appended token with its stored rows (R168): counts, scale range, bounds. -/
def hdrAppend (t : FoldTable) (h : PageHdr) (rows : List Bytes) : PageHdr :=
  let f := (pageFmt h.format).getD ⟨.bf16, false, 0, 64⟩
  let n := h.tokenCount + 1
  let bc := n * rowsOf h.dcode * (dKey h.dcode / 32)
  let sc := rows.flatMap (rowScales f)
  let lo := sc.foldl min (if h.blockCount = 0 ∧ sc ≠ [] then 255 else h.scaleLo)
  let hi := sc.foldl max h.scaleHi
  let h' := { h with tokenCount := n, blockCount := bc, occLen := 256 + bc * f.bytes, scaleLo := lo, scaleHi := hi }
  if h.dcode = 5 then
    if ((rows.getD 0 []) |> readRow f t |>.flatMap Block.values).all numFinite then h' else { h' with boundInf := true }
  else raiseRow h' ((readRow f t (rows.getD 0 [])).flatMap Block.values)

/-- The consistency checks 1 to 6 of R159 on a header: the number of the first failed check, 0 when all pass. -/
def foldCheck (h : PageHdr) (t : Option FoldTable) (partition : Nat) : Nat :=
  match pageFmt h.format with
  | none => 1
  | some f =>
    if f.fold = 0 then 0
    else
      let mode := if f.fold = 4 then 1 else 2
      match t with
      | none => 2
      | some t =>
        if t.mode ≠ mode ∨ !bitAt t.partitions partition then 2
        else if tokensOf h.tcode < h.tokenCount then 3
        else if h.blockCount ≠ h.tokenCount * rowsOf h.dcode * (dKey h.dcode / 32) then 4
        else if h.occLen ≠ 256 + h.blockCount * f.bytes then 5
        else if h.blockCount ≠ 0 ∧ (h.scaleHi < h.scaleLo ∨ 0xFE < h.scaleHi) then 6
        else 0

/-- Check 7 of R159: every scale byte of the given rows lies in the header's range. -/
def scaleCheck (h : PageHdr) (rows : List Bytes) : Bool :=
  match pageFmt h.format with
  | none => false
  | some f => f.fold = 0 ∨ (rows.flatMap (rowScales f)).all fun s => h.scaleLo ≤ s ∧ s ≤ h.scaleHi

/-- The stored rows of one appended token: K then V, or the one latent row; `raw` is its rows as sent. -/
def storeToken (f : PageFmt) (t : FoldTable) (afmt : Elem) (dcode : Nat) (raw : Bytes) : List Bytes :=
  let n := dKey dcode * afmt.width / 8
  (upTo (rowsOf dcode)).map fun r => storeRow f t (decVec afmt ((raw.drop (r * n)).take n))

/-- Does an append row hold an element its format cannot store (R146)? -/
def rowsBad (f : PageFmt) (afmt : Elem) (raw : Bytes) : Bool := (decVec afmt raw).any (badForFmt f)

/-- The bytes CONTENT_HASH covers, from the frame's bytes (R171). -/
def hashedBytes (f : PageFmt) (dcode p : Nat) (bias : Bool) (frame : Bytes) : Bytes :=
  let b := biasOff f dcode p
  (frame.drop 256).take (b - 256) ++ if bias then (frame.drop b).take (2 * p) else []

/-- CONTENT_HASH of a frame as the header's field. -/
def contentHash (f : PageFmt) (dcode p : Nat) (bias : Bool) (frame : Bytes) : Nat :=
  leNat (sha256 (hashedBytes f dcode p bias frame))

end Sys2Proof.Machine
end

