-- ==== Sys2Proof/Machine/Letters.lean ====
section
/-!
DEFINITION. The bytes of letters, replies and records (R57 to R62, R67 to R72): decoding, the checks of R10 that
need no state, encoding, and the filling of frames.
-/

namespace Sys2Proof.Machine

/-! The shared status codes of R73. -/
def stDone : Nat := 0x00
def stDonePartial : Nat := 0x01
def stLate : Nat := 0x02
def stExpired : Nat := 0x03
def stAborted : Nat := 0x04
def stBadFormat : Nat := 0x10
def stBadLength : Nat := 0x11
def stBadState : Nat := 0x12
def stUnsupported : Nat := 0x13
def stNoQuota : Nat := 0x14
def stKeyFault : Nat := 0x15
def stEpochStale : Nat := 0x16
def stConflict : Nat := 0x17
def stNotHome : Nat := 0x18
def stRefused : Nat := 0x19
def stRnrContext : Nat := 0x20
def stWithdrawn : Nat := 0x21
def stPoisoned : Nat := 0x30
def stPageLost : Nat := 0x31
def stMergeLost : Nat := 0x32
def stFoldDamage : Nat := 0x33
def stInternal : Nat := 0x3F

/-- A letter as its header and parts say it (tables Letter header, Letter parts, Ticket part). -/
structure Letter where
  kind        : Nat
  epoch       : Nat
  anchored    : Bool
  finalise    : Bool
  ticket      : Bool
  bias        : Bool
  scoresOnly  : Bool
  letterId    : Nat
  seq         : Nat
  layer       : Nat
  kvHead      : Nat
  step        : Nat
  key         : Nat
  retPc       : Nat
  mailbox     : Nat
  retNs       : Nat
  deadline    : Nat
  pmTick      : Nat
  pmStamp     : Nat
  recipe      : Nat
  qfmt        : Nat
  qcompute    : Nat
  ofmt        : Nat
  dcode       : Nat
  qcount      : Nat
  appendCount : Nat
  afmt        : Nat
  maskKind    : Nat
  topk        : Nat
  scale       : F32
  param       : F32
  subtrees    : Bool
  firstOrd    : Nat
  ordCount    : Nat
  maskKey     : Nat
  maskOffset  : Nat
  maskFirst   : Nat
  maskCount   : Nat
  origin      : Nat
  mergePc     : Nat
  ticketId    : Nat
  tFirst      : Nat
  tCount      : Nat
  trees       : List (Nat × Nat)
  mask        : Bytes
  rows        : Bytes
  queries     : Bytes
  length      : Nat
  deriving DecidableEq, Repr, Inhabited

/-- Query element formats by QFMT; other codes are no format. -/
def qfmtElem : Nat → Elem
  | 0 => .fp32 | 1 => .bf16 | 2 => .fp16 | 3 => .e4m3 | _ => .e5m2

/-- Append row formats by AFMT. -/
def afmtElem : Nat → Elem
  | 0 => .bf16 | 1 => .fp16 | _ => .e4m3

/-- The next multiple of 8. -/
def up8 (n : Nat) : Nat := (n + 7) / 8 * 8

/-- Where a letter's parts lie (R57, R59): ticket, subtree list, mask, append rows, queries, end. -/
structure PartOffs where
  ticket : Nat
  trees  : Nat
  mask   : Nat
  rows   : Nat
  qs     : Nat
  stop   : Nat
  rowLen : Nat
  deriving DecidableEq, Repr

/-- The offsets of the parts a header declares, for pages of `p` tokens; an absent part takes no room. -/
def partOffs (bs : Bytes) (p : Nat) : PartOffs :=
  let w48 := leAt bs 0x48 8
  let dcode := bits w48 12 4
  let qcount := bits w48 16 8
  let ac := bits w48 24 4
  let w58 := leAt bs 0x58 8
  let place (pos size : Nat) : Nat × Nat := if size = 0 then (pos, pos) else (up8 pos, up8 pos + size)
  let t := place 128 (if bitAt (leAt bs 4 4) 18 then 16 else 0)
  let s := place t.2 (if bitAt w58 0 then 4 * bits w58 8 8 else 0)
  let m := place s.2 (if bits w48 32 2 = 1 then bits (leAt bs 0x70 8) 24 24 * qcount * p / 8 else 0)
  let rowLen := dKey dcode * (afmtElem (bits w48 28 4)).width / 8
  let a := place m.2 (ac * rowsOf dcode * rowLen)
  let q := place a.2 (qcount * dKey dcode * (qfmtElem (bits w48 4 4)).width / 8)
  ⟨t.1, s.1, m.1, a.1, q.1, q.2, rowLen⟩

/-- Read a letter; `p` is the page token count of its sequence (0 where the node does not know the sequence). -/
def decLetter (bs : Bytes) (p : Nat) : Letter :=
  let w4 := leAt bs 4 4
  let fl := bits w4 16 8
  let w48 := leAt bs 0x48 8
  let w58 := leAt bs 0x58 8
  let w70 := leAt bs 0x70 8
  let o := partOffs bs p
  let ac := bits w48 24 4
  let dcode := bits w48 12 4
  let tk := bitAt fl 2
  let cut (from' to' : Nat) : Bytes := (bs.drop from').take (to' - from')
  { kind := leAt bs 0 1, epoch := bits w4 0 16, anchored := bitAt fl 0, finalise := bitAt fl 1, ticket := tk,
    bias := bitAt fl 3, scoresOnly := bitAt fl 4, letterId := leAt bs 8 8, seq := leAt bs 0x10 8,
    layer := leAt bs 0x18 2, kvHead := leAt bs 0x1A 2, step := leAt bs 0x1C 4, key := leAt bs 0x20 8,
    retPc := leAt bs 0x28 4, mailbox := leAt bs 0x2C 2, retNs := leAt bs 0x2E 2, deadline := leAt bs 0x30 8,
    pmTick := leAt bs 0x38 6, pmStamp := leAt bs 0x40 8, recipe := bits w48 0 4, qfmt := bits w48 4 4,
    qcompute := bits w48 8 2, ofmt := bits w48 10 2, dcode := dcode, qcount := bits w48 16 8, appendCount := ac,
    afmt := bits w48 28 4, maskKind := bits w48 32 2, topk := bits w48 40 7,
    scale := BitVec.ofNat 32 (leAt bs 0x50 4), param := BitVec.ofNat 32 (leAt bs 0x54 4),
    subtrees := bitAt w58 0, firstOrd := bits w58 16 24, ordCount := bits w58 40 24, maskKey := leAt bs 0x60 8,
    maskOffset := leAt bs 0x68 6, maskFirst := bits w70 0 24, maskCount := bits w70 24 24,
    origin := leAt bs 0x78 4,
    mergePc := if tk then leAt bs o.ticket 4 else 0, ticketId := if tk then leAt bs (o.ticket + 4) 4 else 0,
    tFirst := if tk then leAt bs (o.ticket + 8) 3 else 0, tCount := if tk then leAt bs (o.ticket + 11) 3 else 0,
    trees := if bitAt w58 0 then (upTo (bits w58 8 8)).map (fun i =>
      let e := leAt bs (o.trees + 4 * i) 4; (bits e 0 5, bits e 8 24)) else [],
    mask := if bits w48 32 2 = 1 then cut o.mask (o.mask + bits w70 24 24 * bits w48 16 8 * p / 8) else [],
    rows := cut o.rows (o.rows + ac * rowsOf dcode * o.rowLen),
    queries := cut o.qs o.stop,
    length := leAt bs 2 2 }

/-- The ordinals a list of aligned subtrees covers, in order. -/
def treeOrds (l : List (Nat × Nat)) : List Nat :=
  (l.map fun t => span (t.2 * 2 ^ t.1) (2 ^ t.1)).flatten

/-- The ordinals a letter covers, ascending (R59, R61). -/
def Letter.ords (l : Letter) : List Nat :=
  if l.subtrees then treeOrds l.trees else span l.firstOrd l.ordCount

/-- The first covered ordinal (R121). -/
def Letter.first (l : Letter) : Nat :=
  if l.subtrees then (match l.trees with | [] => 0 | t :: _ => t.2 * 2 ^ t.1) else l.firstOrd

/-- Past the last covered ordinal. -/
def Letter.stopOrd (l : Letter) : Nat :=
  if l.subtrees then (match l.trees.getLast? with | none => 0 | some t => (t.2 + 1) * 2 ^ t.1)
  else l.firstOrd + l.ordCount

/-- The steps of the tokens an APPEND part carries, in order (R65). -/
def Letter.appendSteps (l : Letter) : List Nat :=
  (upTo l.appendCount).map fun i => l.step + 1 + i - l.appendCount

/-- Subtrees are disjoint, ascending and below 2^24 (R59). -/
def treesOk : Nat → List (Nat × Nat) → Bool
  | _, [] => true
  | lo, (lv, ix) :: r =>
    decide (lv ≤ 24) && decide (lo ≤ ix * 2 ^ lv) && decide ((ix + 1) * 2 ^ lv ≤ 2 ^ 24) &&
      treesOk ((ix + 1) * 2 ^ lv) r

/-- Are the padding bytes between two offsets zero (R59)? -/
def zeroPad (bs : Bytes) (a b : Nat) : Bool := ((bs.drop a).take (b - a)).all (· == 0)

/-- The BAD_FORMAT checks of R57 to R60, R67, R82, R97 and R108 that the letter alone decides; `fmt` is the page
format of its sequence where known. The rules name no status for a MASK_OFFSET that is no multiple of 32 (R58) and for a
TICKET_ID of 0 (R82): BAD_FORMAT is the model's choice for both (DESIGN CHOICE, log entries 77 and 78). -/
def letterBadFormat (bs : Bytes) (l : Letter) (p : Nat) (fmt : Option PageFmt) : Bool :=
  let w4 := leAt bs 4 4
  let w48 := leAt bs 0x48 8
  let w58 := leAt bs 0x58 8
  let o := partOffs bs p
  let att := l.kind = 1 ∨ l.kind = 3
  let rsv : Bool := bits w4 21 3 ≠ 0 ∨ bits w4 24 8 ≠ 0 ∨ leAt bs 0x3E 2 ≠ 0 ∨ bits w48 34 6 ≠ 0 ∨
    bits w48 47 17 ≠ 0 ∨ bits w58 1 7 ≠ 0 ∨ leAt bs 0x6E 2 ≠ 0 ∨ leAt bs 0x76 2 ≠ 0 ∨ leAt bs 0x7C 4 ≠ 0
  let enc : Bool := ¬(l.kind = 1 ∨ l.kind = 2 ∨ l.kind = 3) ∨ leAt bs 1 1 ≠ 1 ∨ 4 < l.qfmt ∨ 1 < l.qcompute ∨
    l.ofmt = 3 ∨ 5 < l.dcode ∨ 2 < l.afmt ∨ l.maskKind = 3
  let app : Bool := l.kind = 2 ∧ (l.qcount ≠ 0 ∨ l.recipe ≠ 0 ∨ l.maskKind ≠ 0 ∨ bits w4 16 8 ≠ 0 ∨ l.subtrees ∨
    l.qfmt ≠ 0 ∨ l.qcompute ≠ 0 ∨ l.ofmt ≠ 0 ∨ l.topk ≠ 0 ∨ l.scale ≠ 0 ∨ l.param ≠ 0 ∨
    (p ≠ 0 ∧ l.appendCount ≠ 0 ∧ l.appendCount ≤ l.step + 1 ∧
      (l.firstOrd ≠ (l.step + 1 - l.appendCount) / p ∨ l.firstOrd + l.ordCount ≠ l.step / p + 1)))
  let ctx : Bool := (l.kind ≠ 3 ∧ l.origin ≠ 0) ∨ (l.kind = 3 ∧ (l.anchored ∨ l.finalise ∨ l.ticket)) ∨
    (l.ticket ∧ (l.finalise ∨ l.anchored)) ∨ (l.maskKind ≠ 2 ∧ (l.maskKey ≠ 0 ∨ l.maskOffset ≠ 0)) ∨
    (l.maskKind = 2 ∧ l.maskOffset % 32 ≠ 0) ∨ (l.maskKind = 0 ∧ (l.maskFirst ≠ 0 ∨ l.maskCount ≠ 0)) ∨
    (l.subtrees ∧ (l.firstOrd ≠ 0 ∨ l.ordCount ≠ 0)) ∨ (!l.subtrees ∧ bits w58 8 8 ≠ 0) ∨
    (l.appendCount = 0 ∧ l.afmt ≠ 0)
  let parts : Bool := (l.subtrees ∧ !(treesOk 0 l.trees)) ∨
    (l.subtrees ∧ (upTo l.trees.length).any fun i => bits (leAt bs (o.trees + 4 * i) 4) 5 3 ≠ 0) ∨
    (l.ticket ∧ (l.ticketId = 0 ∨ leAt bs (o.ticket + 14) 2 ≠ 0)) ∨
    !(zeroPad bs (o.trees + 4 * l.trees.length) o.mask) ∨
    !(zeroPad bs (o.mask + l.mask.length) o.rows) ∨ !(zeroPad bs (o.rows + l.rows.length) o.qs)
  let rcp : Bool := att ∧ recipeParams l.recipe l.dcode l.topk l.scale l.param l.bias l.scoresOnly = 1
  let qc : Bool := decide att && (match fmt with
    | some f => f.fold == 0 && (f.elem == .bf16 || f.elem == .fp16) && l.qcompute == 1
    | none => false)
  rsv || enc || app || ctx || parts || rcp || qc

/-- The BAD_LENGTH checks of R57 to R59, R82 and R108 that the letter alone decides. An append part with STEP + 1 below
APPEND_COUNT would name steps below 0; the rules are silent on it, and BAD_LENGTH is the model's choice (DESIGN CHOICE,
log entry 79). -/
def letterBadLength (bs : Bytes) (l : Letter) (p : Nat) : Bool :=
  let o := partOffs bs p
  let att := l.kind = 1 ∨ l.kind = 3
  let known : Bool := p ≠ 0 ∨ l.maskKind ≠ 1
  l.length < 128 ∨ 9216 < l.length ∨ l.length ≠ bs.length ∨ (known ∧ l.length ≠ o.stop) ∨
    8192 < l.queries.length ∨ (att ∧ (l.qcount = 0 ∨ 64 < l.qcount)) ∨ 8 < l.appendCount ∨
    (l.kind = 2 ∧ l.appendCount = 0) ∨ (l.appendCount ≠ 0 ∧ l.step + 1 < l.appendCount) ∨
    (l.subtrees ∧ (l.trees.length = 0 ∨ 8 < l.trees.length)) ∨ (!l.subtrees ∧ l.ordCount = 0) ∨
    (l.maskKind ≠ 0 ∧ l.maskCount = 0) ∨ (l.ticket ∧ l.tCount = 0) ∨
    (att ∧ recipeParams l.recipe l.dcode l.topk l.scale l.param l.bias l.scoresOnly = 2)

/-- Encode a letter (the copies an anchor sends, R80, and forwarded letters). -/
def encLetter (l : Letter) : Bytes :=
  let fl := b2n l.anchored + 2 * b2n l.finalise + 4 * b2n l.ticket + 8 * b2n l.bias + 16 * b2n l.scoresOnly
  let part (acc b : Bytes) : Bytes := if b = [] then acc else padTo (up8 acc.length) acc ++ b
  let tk := if l.ticket then leBytes 4 l.mergePc ++ leBytes 4 l.ticketId ++ leBytes 3 l.tFirst ++ leBytes 3 l.tCount
      ++ [0, 0] else []
  let tr := (l.trees.map fun t => leBytes 4 (t.1 + t.2 * 256)).flatten
  let w48 := l.recipe + l.qfmt * 2 ^ 4 + l.qcompute * 2 ^ 8 + l.ofmt * 2 ^ 10 + l.dcode * 2 ^ 12 + l.qcount * 2 ^ 16 +
    l.appendCount * 2 ^ 24 + l.afmt * 2 ^ 28 + l.maskKind * 2 ^ 32 + l.topk * 2 ^ 40
  let w58 := b2n l.subtrees + (if l.subtrees then l.trees.length * 256 else l.firstOrd * 2 ^ 16 + l.ordCount * 2 ^ 40)
  let hdr (len : Nat) : Bytes :=
    leBytes 1 l.kind ++ [1] ++ leBytes 2 len ++ leBytes 2 l.epoch ++ leBytes 1 fl ++ [0] ++ leBytes 8 l.letterId ++
    leBytes 8 l.seq ++ leBytes 2 l.layer ++ leBytes 2 l.kvHead ++ leBytes 4 l.step ++ leBytes 8 l.key ++
    leBytes 4 l.retPc ++ leBytes 2 l.mailbox ++ leBytes 2 l.retNs ++ leBytes 8 l.deadline ++ leBytes 8 l.pmTick ++
    leBytes 8 l.pmStamp ++ leBytes 8 w48 ++ leBytes 4 l.scale.toNat ++ leBytes 4 l.param.toNat ++ leBytes 8 w58 ++
    leBytes 8 l.maskKey ++ leBytes 8 l.maskOffset ++ leBytes 8 (l.maskFirst + l.maskCount * 2 ^ 24) ++
    leBytes 8 l.origin
  let body := part (part (part (part (part (hdr 0) tk) tr) l.mask) l.rows) l.queries
  hdr body.length ++ body.drop 128

/-- The mask bit of a key: ordinal, query row, token (R62). -/
def maskBit (l : Letter) (mask : Bytes) (p o j t : Nat) : Bool :=
  if l.maskKind = 0 ∨ o < l.maskFirst ∨ l.maskFirst + l.maskCount ≤ o then true
  else bitAt (leAt mask ((o - l.maskFirst) * (l.qcount * (p / 8)) + j * (p / 8) + t / 8) 1) (t % 8)

/-- Merge space of one pending record of a letter in bytes (R80, R83, R123). -/
def mergeBytes (qcount dcode topk : Nat) : Nat := qcount * (8 + 4 * dOut dcode + 8 * topk)

/-- One record of a reply: a subtree, its first query row, its status and flags, and one entry per query row. -/
structure Record where
  level   : Nat
  index   : Nat
  firstQ  : Nat
  status  : Nat
  final   : Bool
  masked  : Bool
  entries : List Partial
  deriving DecidableEq, Repr, Inhabited

/-- First ordinal of a record. -/
def Record.lo (r : Record) : Nat := r.index * 2 ^ r.level
/-- Past its last ordinal. -/
def Record.hi (r : Record) : Nat := (r.index + 1) * 2 ^ r.level
/-- Did any entry meet a NaN (RFLAGS bit 0)? -/
def Record.nan (r : Record) : Bool := r.entries.any (·.nan)

/-- Encode one query entry (R69). -/
def encEntry (ofmt topk : Nat) (e : Partial) : Bytes :=
  leBytes 4 e.m.toNat ++ leBytes 4 e.l.toNat ++ encOut ofmt e.o ++
    ((topFill topk e.top).map fun t => leBytes 4 t.1.toNat ++ leBytes 4 t.2).flatten

/-- Encode a record header and its entries from row `firstQ` on (R69). -/
def encRecord (ofmt topk : Nat) (r : Record) : Bytes :=
  let es := (r.entries.map (encEntry ofmt topk)).flatten
  leBytes 4 (r.level + r.index * 256) ++ leBytes 1 r.firstQ ++ leBytes 1 r.entries.length ++ leBytes 1 r.status ++
    leBytes 1 (b2n r.nan + 2 * b2n r.final + 4 * b2n r.masked) ++ leBytes 4 es.length ++ leBytes 4 0 ++ es

/-- A reply header without the fields each frame fixes for itself (table Reply header). -/
structure ReplyHdr where
  kind     : Nat
  status   : Nat
  nan      : Bool
  final    : Bool
  letterId : Nat
  sender   : Nat
  mailbox  : Nat
  retNs    : Nat
  deadline : Nat
  sentTick : Nat
  epoch    : Nat
  detail   : Nat
  qcount   : Nat
  ofmt     : Nat
  dcode    : Nat
  topk     : Nat
  ticketId : Nat
  origin   : Nat
  tFirst   : Nat
  tCount   : Nat
  deriving DecidableEq, Repr, Inhabited

/-- Encode one frame of a reply. -/
def encFrame (h : ReplyHdr) (idx cnt nrec : Nat) (body : Bytes) : Bytes :=
  leBytes 1 h.kind ++ [1] ++ leBytes 2 (64 + body.length) ++ leBytes 1 h.status ++
    leBytes 1 (b2n h.nan + 2 * b2n h.final) ++ leBytes 1 idx ++ leBytes 1 cnt ++ leBytes 8 h.letterId ++
    leBytes 4 h.sender ++ leBytes 2 h.mailbox ++ leBytes 2 h.retNs ++ leBytes 8 h.deadline ++
    leBytes 8 (h.sentTick % 2 ^ 48 + h.epoch * 2 ^ 48) ++
    leBytes 8 (h.detail % 2 ^ 32 + h.qcount * 2 ^ 32 + nrec * 2 ^ 40 + h.ofmt * 2 ^ 48 + h.dcode * 2 ^ 50 +
      h.topk * 2 ^ 54) ++
    leBytes 4 h.ticketId ++ leBytes 4 h.origin ++ leBytes 8 (h.tFirst + h.tCount * 2 ^ 24) ++ body

/-- The room for records in a frame (R70). -/
def frameRoom : Nat := 9216 - 64

/-- Split a record that fits no empty frame by query rows, the first piece taking what fits in `room` (R70). -/
def splitRecord (ofmt topk : Nat) (r : Record) : Nat → Nat → List Record
  | 0, _ => [r]
  | fuel + 1, room =>
    let esz := (encEntry ofmt topk (r.entries.getD 0 (identP 0))).length
    let n := min ((room - 16) / max esz 1) r.entries.length
    if n = 0 then splitRecord ofmt topk r fuel frameRoom
    else if n = r.entries.length then [r]
    else { r with entries := r.entries.take n } ::
      splitRecord ofmt topk { r with entries := r.entries.drop n, firstQ := r.firstQ + n } fuel frameRoom

/-- Fill frames in record order (R70): each frame is its records' count and bytes, the count within the eight bits of RECORDS
(R68; DEDUCED, log entry 114). -/
def fillFrames (ofmt topk : Nat) (rs : List Record) : List (Nat × Bytes) :=
  let step (acc : List (Nat × Bytes)) (r : Record) : List (Nat × Bytes) :=
    match acc with
    | [] => [(1, encRecord ofmt topk r)]
    | (n, b) :: rest =>
      let e := encRecord ofmt topk r
      if b.length + e.length ≤ frameRoom ∧ n < 255 then (n + 1, b ++ e) :: rest else (1, e) :: (n, b) :: rest
  let all := rs.foldl (fun acc r =>
    let room := match acc with | [] => frameRoom | (n, b) :: _ => if n < 255 then frameRoom - b.length else frameRoom
    let whole := (encRecord ofmt topk r).length ≤ frameRoom
    (if whole then [r] else splitRecord ofmt topk r (2 * r.entries.length + 2) room).foldl step acc) []
  all.reverse

/-- The frames of a reply. A reply without records is one frame with the header alone. -/
def replyFrames (h : ReplyHdr) (rs : List Record) : List Bytes :=
  match fillFrames h.ofmt h.topk rs with
  | [] => [encFrame h 0 1 0 []]
  | fs => fs.zipIdx.map fun f => encFrame h f.2 fs.length f.1.1 f.1.2

/-- Read one entry of a received FP32 record. -/
def decEntry (d topk : Nat) (bs : Bytes) : Partial :=
  let f (off : Nat) : F32 := BitVec.ofNat 32 (leAt bs off 4)
  let r : Partial := ⟨f 0, f 4, (upTo d).map fun i => f (8 + 4 * i),
    (upTo topk).map fun i => (f (8 + 4 * d + 8 * i), leAt bs (12 + 4 * d + 8 * i) 4), false⟩
  { r with nan := r.hasNaN }

/-- Read the records of a received PARTIAL frame (FP32, R78). -/
def decRecords (d topk : Nat) : Nat → Bytes → List Record
  | 0, _ => []
  | n + 1, bs =>
    let qn := leAt bs 5 1
    let len := leAt bs 8 4
    let esz := if qn = 0 then 0 else len / qn
    let d' := if qn = 0 then d else (esz - 8 - 8 * topk) / 4
    { level := bits (leAt bs 0 1) 0 5, index := leAt bs 1 3, firstQ := leAt bs 4 1, status := leAt bs 6 1,
      final := bitAt (leAt bs 7 1) 1, masked := bitAt (leAt bs 7 1) 2,
      entries := (upTo qn).map fun i =>
        let e := decEntry d' topk ((bs.drop (16 + i * esz)).take esz)
        { e with nan := e.nan || bitAt (leAt bs 7 1) 0 } } ::
      decRecords d topk n (bs.drop (16 + len))

/-- Read the header of a received PARTIAL or REPLY frame. -/
def decReplyHdr (bs : Bytes) : ReplyHdr :=
  let w := leAt bs 0x28 8
  { kind := leAt bs 0 1, status := leAt bs 4 1, nan := bitAt (leAt bs 5 1) 0, final := bitAt (leAt bs 5 1) 1,
    letterId := leAt bs 8 8, sender := leAt bs 0x10 4, mailbox := leAt bs 0x14 2, retNs := leAt bs 0x16 2,
    deadline := leAt bs 0x18 8, sentTick := leAt bs 0x20 6, epoch := leAt bs 0x26 2, detail := leAt bs 0x28 4,
    qcount := bits w 32 8, ofmt := bits w 48 2, dcode := bits w 50 4, topk := bits w 54 7,
    ticketId := leAt bs 0x30 4, origin := leAt bs 0x34 4, tFirst := leAt bs 0x38 3, tCount := leAt bs 0x3B 3 }

/-- The records of a received frame. -/
def decFrameRecords (bs : Bytes) : List Record :=
  let h := decReplyHdr bs
  decRecords (dOut h.dcode) h.topk (leAt bs 0x2D 1) (bs.drop 64)

/-- A received reply frame that breaks its layout (R7, R57): wrong version, length or reserved bits. -/
def replyBad (bs : Bytes) : Bool :=
  leAt bs 1 1 ≠ 1 ∨ leAt bs 2 2 ≠ bs.length ∨ bs.length < 64 ∨ bits (leAt bs 5 1) 2 6 ≠ 0 ∨
    bits (leAt bs 0x28 8) 61 3 ≠ 0 ∨ leAt bs 0x3E 2 ≠ 0

/-- The maximal aligned subtrees of a set of ordinals, ascending (R71): siblings both present merge into their
parent, level by level. `go lvl ixs` climbs from a list of ascending indices at one level. -/
def maxTrees (ords : List Nat) : List (Nat × Nat) :=
  sortOn (fun t => t.2 * 2 ^ t.1) (go 24 0 ords)
where
  pair : List Nat → List Nat × List Nat
    | a :: b :: r => if a % 2 = 0 ∧ b = a + 1 then
        let (u, k) := pair r; (a / 2 :: u, k)
      else let (u, k) := pair (b :: r); (u, a :: k)
    | [a] => ([], [a])
    | [] => ([], [])
  go : Nat → Nat → List Nat → List (Nat × Nat)
    | 0, lv, ixs => ixs.map fun i => (lv, i)
    | n + 1, lv, ixs =>
      let (u, k) := pair ixs
      (k.map fun i => (lv, i)) ++ (if u = [] then [] else go n (lv + 1) u)

/-- Failure records for a set of ordinals that failed for one reason (R71). -/
def failRecords (status : Nat) (ords : List Nat) : List Record :=
  (maxTrees ords).map fun t => ⟨t.1, t.2, 0, status, false, false, []⟩

/-- The reply status that a set of records gives for a coverage (R72). -/
def recordsStatus (rs : List Record) : Nat :=
  let fails := rs.filter fun r => r.status ≠ stDone
  let dones := rs.filter fun r => r.status = stDone
  match fails with
  | [] => stDone
  | f :: _ => if dones ≠ [] then stDonePartial
    else if fails.all fun r => r.status == f.status then f.status else stDonePartial

/-- The records a reply carries for a set of records (R72): none when every one failed for the same reason. -/
def sentRecords (rs : List Record) : List Record :=
  match rs with
  | [] => []
  | r :: _ =>
    if rs.all fun x => x.status != stDone && x.status == r.status then [] else sortOn (fun x => x.lo) rs

end Sys2Proof.Machine
end

