-- ==== Sys2Proof/Machine/State.lean ====
section
/-!
DEFINITION. The state of the node as plain data: one structure per part of the spec, `Node` over them all, and
`State` with the queue of waiting commands. Registers that hold no structured state are fields of one register file
(`Machine/Regs.lean` gives their places and reset values).
-/

namespace Sys2Proof.Machine

/-- The four parts (table Parts and their units, R1). -/
inductive Part where
  | vxa8032 | vxa8032c | vxa4016 | vxa2008
  deriving DecidableEq, Repr, Inhabited

/-- What is fixed when a package is built: part, stepping, serial number, identity hash, and read-only tables whose
contents form no interface (the known-answer digests of R442). -/
structure Ident where
  part     : Part
  stepping : Nat
  serial   : Nat
  idHash   : List Nat
  kat      : Map Nat          -- expected digest by seed, plus 256 for the folded variant
  deriving DecidableEq, Repr, Inhabited

/-- The servo states of the table Meridian states. -/
inductive MerState where
  | free | acquire | locked | holdover | unlocked
  deriving DecidableEq, Repr, Inhabited

/-- What a port last heard in a time exchange and how its attempts stand (R31, R37, R39, R55). -/
structure TimePort where
  good     : Nat              -- consecutive exchanges within ±2 ns, or valid exchanges of an attempt
  missed   : Nat              -- consecutive missed exchanges
  differ   : Bool             -- the last exchange carried other tick parameters
  mismatch : Bool             -- no time is taken from the port (R31)
  epochOff : Bool             -- the last exchange after a boundary carried another map epoch (R346)
  skewGood : Nat              -- consecutive exchanges within 40 ns while out of a lock (R55)
  outOfLock : Bool            -- removed from its lock for skew (R55)
  leaving  : Bool             -- leaves its lock at the next boundary
  t1       : Nat              -- sent time-exchange stamp awaiting its answer, or PTP origin stamp
  seqId    : Nat              -- sequence number of the next time message
  offset   : Int              -- last offset measured on the port, units of 1/65,536 ns
  delay    : Int              -- last path delay measured on the port, units of 1/65,536 ns (R30)
  sentAt   : Option Nat       -- MER_NS when the last exchange message left (R30)
  rxSent   : Nat              -- the neighbour's last message: its departure stamp, returned in the next message sent
  rxHere   : Nat              -- and its arrival stamp here
  stamps   : List Nat         -- PTP: Sync origin and arrival, own delay request's departure, peer path delay
  mgmt     : Nat              -- PTP management messages ignored (R32)
  upAt     : Option Nat       -- when the link of an acquiring node's source came UP, until R459's record is due
  deriving DecidableEq, Repr, Inhabited

/-- The Meridian time base and the tick generator (R26 to R55). -/
structure TimeSt where
  now       : Nat             -- MER_NS
  frac      : Nat             -- MER_FRAC
  latch     : Nat             -- high half latched by the last low-half read (R56)
  latchFrac : Nat             -- MER_NOW_FRAC latched with it
  latchTick : Nat             -- high half of TICK_NOW latched by its last low-half read (R56)
  st        : MerState
  everLocked : Bool           -- ticks are generated once LOCKED was first reached (R38)
  upstream  : Nat             -- index in the chart's list: 0 primary, 1 to 3 alternates
  attempt   : Option Nat      -- index being tried (R39)
  attemptAt : Nat             -- when the attempt began, or in ACQUIRE the present port was taken up
  source    : Bool            -- a time source is regained or held
  good      : Nat             -- consecutive exchanges within ±2 ns on the upstream port (R37)
  errEst    : Nat
  lockedErr : Nat             -- value of the estimate when the source was lost
  hops      : Nat
  lostAt    : Nat             -- when the present HOLDOVER or UNLOCKED episode began
  growAt    : Nat             -- when the source was last lost: MER_ERR_EST grows from lockedErr since then
  offset    : Int             -- last measured offset, units of 1/65,536 ns
  slewing   : Bool
  slewAt    : Nat             -- time of the last measurement the servo took: a slew may use the time since (R41)
  stepBy    : Option Int      -- a pending Meridian step, units of 1/65,536 ns (R41)
  lastPps   : Option Nat      -- time of the last TIME_PPS_IN pulse
  ppsMiss   : Nat
  period    : Nat             -- TICK_PERIOD
  origin    : Nat             -- TICK_ORIGIN
  tick      : Nat             -- number of the current tick
  barTick   : Option Nat      -- last tick run before a backward step (R42)
  ports     : Map TimePort
  deriving DecidableEq, Repr, Inhabited

/-- One record of a chart section: its type, its index and its value as 8 B words (R341, R342). -/
structure ChartRec where
  rtype : Nat
  index : Nat
  words : List Nat
  deriving DecidableEq, Repr, Inhabited

/-- One section of the composition. -/
structure ChartSec where
  typ  : Nat
  recs : List ChartRec
  deriving DecidableEq, Repr, Inhabited

/-- CHART_STATUS.STATE. -/
inductive ChartState where
  | empty | verifying | waiting | inForce | rejected
  deriving DecidableEq, Repr, Inhabited

/-- A host command in progress: its post box, tag and index, for its completion (R310). -/
structure CmdRef where
  box  : Nat
  tag  : Nat
  idx  : Nat
  deriving DecidableEq, Repr, Inhabited

/-- A staged overlay (R345). -/
structure Overlay where
  cmd       : CmdRef
  namedTick : Nat
  newEpoch  : Nat
  serial    : Nat
  secVer    : Nat
  comp      : List ChartSec
  period    : Nat             -- tick period after it
  sections  : List Nat        -- sections it carries
  digest    : Bytes           -- SHA-384 of its signed bytes (R373)
  deriving DecidableEq, Repr, Inhabited

/-- The composition in force and what is staged (R344 to R353). -/
structure ChartSt where
  st        : ChartState
  comp      : List ChartSec
  epoch     : Nat
  switchTick : Option Nat     -- S, when an overlay has switched
  switchNs  : Nat
  retireAt  : Option Nat      -- tick of the pending retirement boundary (R351)
  serial    : Nat
  ovlSerial : Nat
  chartVer  : Nat             -- SECURITY_VERSION of the chart (R354)
  secVer    : Nat             -- SECURITY_VERSION of the chart or overlay that took effect last (R371)
  loading   : Bytes           -- image under verification
  checking  : List (CmdRef × Nat × Bytes) -- OVERLAY_APPLYs whose image is being checked (R353), oldest first: IMAGE_LEN, image
  staged    : List Overlay
  deriving DecidableEq, Repr, Inhabited

/-- Partition states (R357). -/
inductive PartState where
  | free | active | destroying
  deriving DecidableEq, Repr, Inhabited

/-- One partition. -/
structure PartSt where
  st      : PartState
  gen     : Nat
  quads   : Nat               -- mask of the quads it owns
  destroy : Option CmdRef     -- the PARTITION_DESTROY to complete
  filled  : Nat               -- bytes filled so far for it
  deriving DecidableEq, Repr, Inhabited

/-- Quad states (R355). -/
inductive QuadState where
  | unassigned | assigned | clearing | scrubbing | offline
  deriving DecidableEq, Repr, Inhabited

/-- Granule classes (R216). -/
inductive GClass where
  | free | frame | system | host | retired | retirePending
  deriving DecidableEq, Repr, Inhabited

/-- A run of granules of one class, keyed by quad × 2^24 + first granule; `owner` is the sequence it serves, `kind`
what a SYSTEM run holds. -/
structure GRun where
  len   : Nat
  cls   : GClass
  owner : Nat
  kind  : Nat
  deriving DecidableEq, Repr, Inhabited

/-- What a SYSTEM run holds: 1 table page, 2 heat page, 3 sequence directory, 4 T2 store, 5 crash dump, 6 Survey
ring, 7 key table, 8 context backing store (R216, R360). -/
abbrev SysKind := Nat

/-- One quad: its stack, its controller and its scrub. -/
structure QuadSt where
  st        : QuadState
  owner     : Nat
  returning : Bool            -- trained again after OFFLINE with a scrub owed (R360)
  goOffline : Bool            -- goes OFFLINE at the next boundary (R214)
  failedCh  : Nat             -- mask of channels that failed training
  tempDie   : Nat
  tempStack : Nat
  maxStack  : Nat
  guardMv   : Nat             -- lowest guard band of the last 1 ms
  x2        : Bool            -- refresh doubled
  hot       : Bool
  critical  : Bool
  selfRefresh : Bool          -- stack in self-refresh (R388)
  clearLeft : Bool            -- on-die clearing still to finish
  ceSeen    : List (Nat × Nat) -- recent corrected errors: granule, tick (R220)
  retireReq : List (Nat × Bool) -- granules to retire at the next boundary, and whether for a corrected error
  retired   : List Nat        -- the retirement list (R220)
  patrolAt  : Nat             -- when the last patrol pass started
  patrolLeft : Nat            -- granules it has still to read
  fetched   : Nat             -- granules admission reads in the current tick (R203, R221)
  migSlots  : Nat             -- granules the migration engine has moved in the current tick
  nmeSlots  : Nat             -- slots near-memory operations have used in the current tick
  nmeLast   : Nat             -- and in the last one (NME_STATUS.SLOTS_LAST)
  passes    : Nat             -- passes admitted in the current tick
  load      : Nat             -- committed cycles in the current tick
  paused    : Bool            -- MIG_CTL.PAUSE
  deriving DecidableEq, Repr, Inhabited

/-- An open sequence (R172 to R175). -/
structure SeqRec where
  desc      : SeqDesc
  partition : Nat
  list      : List Nat
  tables    : Map Nat         -- table pages: level × 2^32 + prefix ↦ quad × 2^24 + granule + 1
  place     : Nat             -- its record in the directory, counted from the first (R174)
  lostTables : List Nat       -- table pages unreadable (R186)
  dirLost   : Bool            -- its directory record is unreadable
  deriving DecidableEq, Repr, Inhabited

/-- Leaf states (R176). -/
inductive LeafState where
  | none | allocated | open | sealed | moving | swapped | dropped | redirect
  deriving DecidableEq, Repr, Inhabited

/-- A leaf entry (R176) with the heat record of its page (R197). -/
structure Leaf where
  st       : LeafState
  postcode : Nat
  quad     : Nat
  granule  : Nat              -- first granule, or the T3 granule index
  count    : Nat
  epoch    : Nat
  shared   : Bool
  pinned   : Bool
  poisoned : Bool
  hot      : Bool
  heat     : Nat              -- COUNT of the heat record
  lastTick : Nat              -- last tick with an admitted row
  refill   : Bool             -- allocated again over a DROPPED slot and not yet full (R181)
  deriving DecidableEq, Repr, Inhabited

/-- Where the answer to a letter goes. -/
inductive ReplyTo where
  | requester | anchor | ticket
  deriving DecidableEq, Repr, Inhabited

/-- What one query row got from one tile range of one page: the merge unit's input (R93, R135). -/
structure Piece where
  ord   : Nat
  row   : Nat
  lo    : Nat
  tiles : Nat
  part  : Partial
  deriving DecidableEq, Repr, Inhabited

/-- A letter's merge context on its lead sheet (R122, R135). -/
structure LetterCtx where
  sheet     : Nat
  partition : Nat
  letter    : Letter
  source    : Nat             -- SRC of the packet it came in
  entropy   : Nat
  replyTo   : ReplyTo
  p         : Nat             -- page tokens
  folded    : Bool
  bytes     : Nat             -- merge space reserved
  pieces    : List Piece
  fails     : List (Nat × Nat) -- failed ordinals with their reason
  idents    : List Nat        -- covered ordinals whose partial is the identity
  elsewhere : List Nat        -- covered ordinals not homed on this node
  detail    : Nat             -- DETAIL of the last share that failed
  whole     : Option (Nat × Nat) -- whole-letter status and detail
  deriving DecidableEq, Repr, Inhabited

/-- A share of a letter on one sheet, collected or held (R122, R123, R131); it holds its store lines until its letter is
replied to, also after it has ended. -/
structure Share where
  id        : Nat
  ctx       : Nat
  sheet     : Nat
  partition : Nat
  port      : Nat             -- global ingress port; 16 when it has none
  at'       : Nat             -- collection time
  arrival   : Nat             -- order of arrival
  tick      : Nat             -- tick it is collected for
  ords      : List Nat        -- covered ordinals homed on the sheet
  homes     : List (Nat × Nat) -- quad of each ordinal it names, as collected
  appends   : List Nat        -- steps of the tokens it carries
  lines     : Nat
  held      : Bool
  gapHeld   : Bool
  travelling : Bool           -- on the die-to-die links, not yet collected
  admitted  : Bool            -- its passes run in the current tick, or have run
  ended     : Bool            -- it completed with a status of its own
  deriving DecidableEq, Repr, Inhabited

/-- A page's copy in a sheet's staging (R125 to R127), keyed by its frame. -/
structure Staged where
  sheet     : Nat
  partition : Nat
  granules  : Nat
  have'     : Nat             -- granules that have landed, from the first on
  waiting   : Bool            -- in the fetch queue, without a reservation
  order     : Nat             -- place in the fetch queue
  lower     : Bool            -- read from T2 or T3
  data      : Bytes           -- the bytes that have landed
  reading   : Bool            -- the READs of its tiles are posted to its T2 store (R195)
  tiles     : Map Bytes       -- the tiles those READs have brought
  broken    : Bool            -- a READ came back with an error
  deriving DecidableEq, Repr, Inhabited

/-- A pass dispatched to a core (R91 to R94, R131). Rows name a letter context and its query row. -/
structure Pass where
  core      : Nat
  frame     : Nat
  seqKey    : Nat             -- leaf key through which the page's geometry is read
  key       : PassKey
  rows      : List (Nat × Nat × Nat)   -- context, query row, ordinal
  lo        : Nat
  tiles     : Nat
  cycles    : Nat
  running   : Bool
  startAt   : Nat             -- when it began to run
  bias      : Bytes           -- the bias area as it stood at the boundary (R170)
  fromT0    : Bool
  masks     : List (Nat × Nat × Bytes) -- KEYED mask bits read when the pass starts: context, ordinal, bits (R62)
  deriving DecidableEq, Repr, Inhabited

/-- CORE_STATUS.STATE beyond what admission can tell. -/
inductive CoreMode where
  | normal | hung | resetting
  deriving DecidableEq, Repr, Inhabited

/-- A page's copy in a core's T0 area (R115): the room it takes, and the page's bytes; no bytes until it is written. -/
structure T0Copy where
  size : Nat
  data : Bytes
  deriving DecidableEq, Repr, Inhabited

/-- One core's state beside its registers. -/
structure CoreSt where
  mode      : CoreMode
  fenceHost : Bool            -- fenced by CORE_CTL.FENCE
  fenceAbft : Bool            -- fenced by ABFT_RUN
  fenceKat  : Bool            -- fenced after failed known-answer tests or repeated hangs (R413, R443)
  abftRun   : Nat
  stuck     : Bool            -- forms no partial until the boundary after a control-area error (R116)
  hangs     : List Nat        -- MER_NS of its hangs of the last second (R413)
  resetAt   : Nat             -- when its level-2 reset started
  katRuns   : Nat
  katFails  : Nat
  katConsec : Nat
  katPartner : Nat
  katGot    : Option Nat      -- digest of its running test, while its partner's is awaited
  katNow    : Option (Nat × Bool × Nat) -- running test: seed, folded, partner (or 2^10 for none)
  katTick   : Option Nat      -- of a pair's lower core: the tick at which its test last fell due (R442)
  t0        : Map T0Copy      -- tier-0 copies, by frame
  scratch   : Map Nat         -- scratchpad bytes a debugger has written: byte + 1, by offset
  zeroTo    : Nat             -- every other byte below this offset is known to be 0
  badWords  : List Nat        -- 8 B words with an uncorrected error
  deriving DecidableEq, Repr, Inhabited

/-- A tier-0 promoted page (R137 to R139), keyed by frame. -/
structure T0Page where
  partition : Nat
  granules  : Nat
  cores     : List Nat
  usableAt  : Nat             -- first tick at which the copies may be read
  lastTick  : Nat             -- last tick with an admitted row
  rowsNow   : Nat
  rowsPrev  : Nat
  deriving DecidableEq, Repr, Inhabited

/-- An anchor or ticket context (R80 to R86). -/
structure MergeCtx where
  ticket    : Bool
  requester : Nat
  ident     : Nat             -- LETTER_ID, or TICKET_ID
  sheet     : Nat
  partition : Nat
  letterId  : Nat
  key       : Nat             -- KEY of the anchored letter; 0 for a ticket, whose frames carry none (`OfficeSt.tickets`)
  mailbox   : Nat
  entropy   : Nat
  retNs     : Nat
  deadline  : Nat
  qcount    : Nat
  dcode     : Nat
  topk      : Nat
  ofmt      : Nat
  recipe    : Nat
  param     : F32
  finalise  : Bool
  folded    : Bool
  ords      : List (Nat × Nat) -- covered ranges: first, count
  tFirst    : Nat
  tCount    : Nat
  records   : List Record
  bytes     : Nat             -- merge space it holds
  copies    : List (Nat × Nat × List Nat) -- an anchor's copies: page node, LENGTH, ordinals
  details   : List (Nat × Nat) -- first DETAIL received with each status
  live      : Bool            -- false: a tombstone
  deriving DecidableEq, Repr, Inhabited

/-- What a letter on this node that names a ticket merged here says of the ticket's letter: its partition and KEY. -/
structure TicketLetter where
  requester : Nat
  ticketId  : Nat
  partition : Nat
  key       : Nat
  deadline  : Nat
  deriving DecidableEq, Repr, Inhabited

/-- A refusal-table entry (R85). -/
structure Refusal85 where
  sheet     : Nat
  slot      : Nat
  requester : Nat
  ticketId  : Nat
  deadline  : Nat
  deriving DecidableEq, Repr, Inhabited

/-- A route cache entry (R178). -/
structure RouteEnt where
  sheet     : Nat
  set       : Nat
  partition : Nat
  leafKey   : Nat
  epoch     : Nat
  deriving DecidableEq, Repr, Inhabited

/-- A walk cache entry: the upper entry that names a table page of a sequence (R178). -/
structure WalkEnt where
  sheet : Nat
  seq   : Nat
  table : Nat
  deriving DecidableEq, Repr, Inhabited

/-- A letter past its checks whose translation waits for table walks (R121, R136, R178). -/
structure WalkWait where
  sheet   : Nat               -- its lead or anchor sheet
  ingress : Nat
  port    : Nat
  src     : Nat
  entropy : Nat
  at'     : Nat               -- when its checks were passed (R46)
  anchored : Bool             -- it stands in the anchor dispatch queue (R136)
  bytes   : Bytes
  keys    : List Nat          -- leaf keys still to be walked
  deriving DecidableEq, Repr, Inhabited

/-- The sorting offices, cores and merge units of all sheets. -/
structure OfficeSt where
  nextId    : Nat
  ctxs      : Map LetterCtx
  shares    : List Share
  staged    : Map Staged
  passes    : List Pass
  merges    : List MergeCtx
  refusals  : List Refusal85
  tickets   : List TicketLetter -- own letters of tickets this node merges, until their deadlines
  t0        : Map T0Page
  bad       : Map Nat         -- pages that failed in this tick, by staging key: the status their ordinals receive
  routeCache : List RouteEnt
  walkCache : List WalkEnt
  walks     : List WalkWait   -- oldest first
  hashing   : List Nat        -- leaf keys of pages whose CONTENT_HASH is being computed
  deriving DecidableEq, Repr, Inhabited

/-- PORT_STATUS.STATE (R247). -/
inductive PortState where
  | disabled | training | keying | up | retraining | failed
  deriving DecidableEq, Repr, Inhabited

/-- A packet waiting at an egress. -/
structure Queued where
  pkt   : Packet
  group : Nat                 -- partition it is arbitrated for, 32 for the transit group (R363)
  holds : Option Nat          -- ingress port whose buffer a forwarded frame still occupies (R256)
  came  : Nat                 -- HOPS it came with: this node counts only once it has forwarded the frame (R251, R263)
  deriving DecidableEq, Repr, Inhabited

/-- A frame sent and not yet acknowledged, in the retry buffer (R254). -/
structure Unacked where
  sq      : Nat
  pkt     : Packet
  lockSeq : Nat
  deriving DecidableEq, Repr, Inhabited

/-- One direction-pair security association: a native port has one, a switched port one per peer (R259, R267). -/
structure Assoc where
  keyed    : Bool
  txKey    : Bytes            -- key of the frames sent
  rxKey    : Bytes            -- key of the frames received, newest epoch
  oldKey   : Bytes            -- the epoch before it, while its frames are accepted
  epoch    : Nat              -- KEY_EPOCH of the frames sent
  rxEpoch  : Nat              -- newest KEY_EPOCH received under
  keyAt    : Nat              -- when the key was made
  txFctr   : Nat
  rxFctr   : Nat              -- last accepted counter, plus 1
  window   : Nat              -- switched replay window: bit i for counter rxFctr - 1 - i
  oldLive  : Bool             -- frames of the epoch before are accepted
  oldUntil : Option Nat       -- end of that acceptance, from the first frame of the new epoch
  oldRx    : Nat              -- replay state of the old epoch
  oldWindow : Nat
  nextKey  : Option Bytes     -- transmit key of the next epoch: the next frame sent begins it
  peer     : Nat              -- the neighbour's postcode
  hello    : Option (Nat × Nat × Bytes) -- own HELLO: number of its ephemeral key, when it was sent, its bytes
  peerHello : Option (HelloMsg × Bytes)
  rekey    : Bool             -- the exchange in progress is a rekey
  retryAt  : Option Nat       -- next attempt after a failed exchange
  deriving DecidableEq, Repr, Inhabited

/-- One fabric port, keyed by global port. -/
structure PortSt where
  st        : PortState
  width     : Nat
  lanes     : Nat             -- mask of healthy lanes
  fails1    : Nat             -- failed retrains at width 1
  limit     : Nat             -- widest width a retrain may choose
  txSeq     : Nat             -- SEQ of the next DATA frame
  rxSeq     : Nat             -- next SEQ accepted
  lastAck   : Nat             -- last SEQ acknowledged to the neighbour
  nakOpen   : Bool            -- discarding until the missing SEQ arrives
  nakDue    : Bool            -- the next LINK frame carries NAK
  unacked   : List Unacked
  resendFrom : Option Nat     -- index in the retry buffer of the next frame to resend
  resends   : Nat             -- resends of one SEQ without progress
  resendSeq : Nat
  ackAt     : Nat             -- since when the oldest unacknowledged frame has waited for its acknowledgement (R254)
  lost      : Nat             -- unacknowledged frames discarded by restarts of the link layer (R267)
  icmp      : Nat             -- ICMPv6 messages counted and ignored (R258)
  txCredits : List Nat        -- credits held, by class
  rxReturn  : List Nat        -- credits to return, by class
  queues    : List (List Queued) -- egress queues, by class
  lastAt    : Nat             -- when the last valid frame arrived
  ackDue    : Bool            -- acknowledgement or credits have changed
  lastLinkAt : Nat            -- when the last LINK frame left
  windowAt  : Nat             -- start of the 10 µs arbitration window
  used      : List Nat        -- time used in it, by class
  deficits  : Map Nat         -- deficit round robin counters: class × 64 + group
  skip      : Map Nat         -- turn of the round robin, by class
  assocs    : Map Assoc       -- keyed by peer-table entry, 0 for a native port
  frankTimes : List Nat       -- times of the last franking failures, newest first (R269)
  dlnAt     : Nat             -- start of the 1 µs notice window (by sheet, on its first port)
  dlnN      : Nat
  lastHdr   : Bytes           -- Ethernet, IPv6 and UDP headers of the last frame of a switched port (R258)
  lastTx    : Bytes           -- last DATA frame handed to the lanes
  lastLink  : Bytes           -- last LINK frame sent
  lastKeyx  : Bytes           -- last KEYX frame sent
  lastRaw   : List Bytes      -- packets last sent outside Opward (PTP, Neighbor Advertisement), in order
  deriving DecidableEq, Repr, Inhabited

/-- A lock's transmit and receive state, keyed by the lock group (R248). -/
structure LockSt where
  txSeq   : Nat
  member  : Nat               -- member whose turn it is
  inTurn  : Nat               -- frames it has taken in this turn
  rxSeq   : Nat
  waiting : List (Nat × Nat × Option Packet) -- LOCK_SEQ, ingress port, packet (none for a discarded one): frames
                              -- beyond a gap
  gapAt   : Option Nat
  skips   : Nat               -- gaps skipped
  deriving DecidableEq, Repr, Inhabited

/-- Queue-pair states (R274). -/
inductive QpState where
  | free | reset | ready | error
  deriving DecidableEq, Repr, Inhabited

/-- What a courier operation does (R275). -/
inductive CrKind where
  | write | read | send | fetchAdd | compareSwap | wait
  deriving DecidableEq, Repr, Inhabited

/-- Who an operation completes to: a host command, or one of the node's own users (R298). -/
inductive CrUser where
  | host (cmd : CmdRef)
  | migration (move : Nat)
  | t2 (move : Nat)
  | stage (order tile : Nat)  -- a page read from a T2 store into staging: its place in the fetch queue, the tile
  | nme (quad op : Nat)
  | pool (ext : Nat)
  | none
  deriving DecidableEq, Repr, Inhabited

/-- One courier operation of a queue pair (R275, R289). -/
structure CrOp where
  user    : CrUser
  kind    : CrKind
  msn     : Nat
  sealed' : Bool
  fence   : Bool
  len     : Nat
  loc     : Nat               -- local address
  src     : Bytes             -- source bytes held on the host's side, or given by the node
  pathAt  : Option Nat        -- the path its packets start on, where the operation names one (R195)
  key     : Nat
  addr    : Nat
  op1     : Nat
  op2     : Nat
  started : Bool
  startAt : Nat
  psn0    : Nat               -- first PSN
  psns    : Nat               -- how many PSNs it takes
  doneN   : Nat               -- bytes landed or read
  status  : Nat               -- first failing status
  detail  : Nat
  result  : Nat
  finished : Bool
  deriving DecidableEq, Repr, Inhabited

/-- One packet sent and not yet acknowledged (R288, R289). -/
structure SentPkt where
  psn     : Nat
  msn     : Nat
  pkt     : Packet
  bytes   : Nat               -- data bytes it carries or asks for
  path    : Nat
  sentAt  : Nat
  resends : Nat
  rnr     : Nat               -- consecutive RNR_CONTEXT answers
  notBefore : Nat
  passed  : Nat               -- packets above it acknowledged while it is not
  toSend  : Bool              -- waiting for its pace or its resend time
  deriving DecidableEq, Repr, Inhabited

/-- A received packet waiting in poste restante (R291, R293, R297). -/
structure Parked where
  pkt   : Packet
  bytes : Nat
  why   : Nat                 -- 1 context, 2 SEAL or FENCE, 3 ORDERED, 4 a line the host holds
  deriving DecidableEq, Repr, Inhabited

/-- A queue-pair context. -/
structure QpSt where
  st        : QpState
  partition : Nat
  ordered   : Bool
  pin       : Bool
  ring      : Nat
  slotLog2  : Nat
  slotsLog2 : Nat
  peerPc    : Nat
  peerQpn   : Nat
  paths     : Nat
  entropy   : Nat
  txPsn     : Nat
  rxBase    : Nat
  rxMap     : Nat             -- bit i: PSN rxBase + i is done
  compCnt   : Nat
  recvCnt   : Nat
  freed     : Nat             -- consumed-message count written by the receiver
  peerFreed : Nat             -- the peer's count as the last ACK gave it
  sendCnt   : Nat             -- SENDs sent since the last reset
  msn       : Nat
  rate      : Nat             -- in units of 100 MB/s × 256
  nextAt    : Nat             -- when the next paced packet may leave
  winEnd    : Nat             -- PSN whose acknowledgement ends the congestion window
  winN      : Nat
  winM      : Nat
  ceEcho    : Nat             -- CE-marked data packets since the last ACK
  sinceAck  : Nat             -- placements since the last ACK
  ackAt     : Option Nat      -- when the oldest unacknowledged placement was made
  watermark : Option Nat      -- sealed watermark
  ops       : List CrOp
  sent      : List SentPkt
  held      : List Parked
  atomics   : List (Nat × Nat) -- PSN and old value of the last 64 atomics
  suspended : List (Nat × Nat) -- path and end of its suspension
  pathTo    : List (Nat × Nat) -- path and time of its last timeout
  resident  : Bool
  fetching  : Bool
  lastUse   : Nat
  ending    : Nat             -- 0 none, 1 QP_RESET, 2 QP_DESTROY under way
  endCmd    : Option CmdRef
  closeAt   : Option Nat      -- when ERROR was entered by an ORDERED pair, or CLOSE sent
  closeSent : Bool
  closeMsn  : Nat             -- the failing operation of an ORDERED close
  errComp   : Nat             -- COMP_CNT when ERROR was entered (R277)
  resp      : List (Nat × Nat × Bytes) -- READ_RESP and ATOMIC_RESP packets waiting for their pace: target, ENTROPY, packet
  peerSlot  : Nat             -- slot geometry of the peer's receive ring, as the node knows it (log entry 105)
  peerSlots : Nat
  usedAt    : Nat             -- when the context was last used (R298)
  endAt     : Nat             -- when the PKT_LIFETIME wait of a reset ends
  lastMsn   : Nat             -- MSN of the last operation placed whole (receiver)
  user      : Option CrUser   -- the node's own user of the pair
  deriving DecidableEq, Repr, Inhabited

/-- A memory key entry (R279, R280). -/
structure KeyEnt where
  valid     : Bool
  nextGen   : Nat
  gone      : Bool            -- retired index
  gen       : Nat
  secret    : Nat
  kind      : Nat             -- 0 EXTENT, 1 SEQUENCE
  rights    : Nat             -- bit 0 READ, 1 WRITE, 2 ATOMIC, 3 ATTEND, 4 APPEND
  srcPrefix : Nat
  srcLen    : Nat
  base      : Nat
  size      : Nat
  partition : Nat
  extent    : Option Nat      -- pooled extent it joins (R332)
  withdrawn : Bool
  deriving DecidableEq, Repr, Inhabited

/-- Where a migration-engine move stands (R205, R210, R211). -/
inductive MovePhase where
  | queued | offered | tiles | verify | commit | committed | done | failed
  deriving DecidableEq, Repr, Inhabited

/-- What kind of move. -/
inductive MoveKind where
  | out | into | local' | swapOut | swapIn | relocate
  deriving DecidableEq, Repr, Inhabited

/-- One move of the migration engines (R203 to R211). -/
structure Move where
  kind     : MoveKind
  phase    : MovePhase
  quad     : Nat              -- quad whose engine runs it
  moveId   : Nat              -- MOVE_ID; for an inbound move the source's
  leafKey  : Nat
  partition : Nat
  cmd      : Option Nat       -- MIGRATE it belongs to (key of its group)
  peer     : Nat              -- other node's postcode
  destQuad : Nat
  anyQuad  : Bool
  frame    : Nat              -- frame allocated at the destination of a local move or inbound move
  target   : Nat              -- T3 granule index, or T2 store × 2^32 + granule
  toT2     : Bool
  count    : Nat
  key      : Nat              -- write key
  tiles    : Nat              -- tiles written so far
  part     : Nat              -- granules of the next tile already read in spare slots (R203)
  resent   : Bool
  commits  : Nat
  switchAt : Nat              -- S
  answered : Bool             -- COMMITTED answered or received
  readyAt  : Option Nat       -- switches at the first boundary after this time
  waitAt   : Nat              -- start of the wait that MIG_TIMEOUT bounds
  hdr      : Bytes            -- page header as offered
  also     : List (Nat × Bool) -- inbound: further slots that map the shared frame, and whether each was a redirect
  cancelled : Bool
  fail     : Nat              -- failing status that ends it at the next boundary, with its DETAIL
  detail   : Nat
  live     : Bool             -- inbound: went live at B(S) and may still be cancelled
  deriving DecidableEq, Repr, Inhabited

/-- A MIGRATE in progress: its completion and how many of its moves remain (R204). -/
structure MigCmd where
  cmd    : CmdRef
  left   : Nat
  moved  : Nat
  status : Nat
  detail : Nat
  deriving DecidableEq, Repr, Inhabited

/-- One allocated range in a T2 store or the T3 window (R193, R194). -/
structure LowSpace where
  partition : Nat
  store     : Nat             -- index of the T2_STORE record, or 2^16 for the T3 window
  start     : Nat
  len       : Nat
  leafKey   : Nat
  deriving DecidableEq, Repr, Inhabited

/-- Migration and lower tiers. -/
structure MigSt where
  nextId  : Nat
  moves   : Map Move
  cmds    : Map MigCmd
  low     : List LowSpace
  again   : List Nat          -- partitions whose policy goes on after a failed swap-out (R211)
  decayAt : Nat               -- tick of the last halving of the heat counts, plus 1 (R197)
  deriving DecidableEq, Repr, Inhabited

/-- A near-memory engine operation (R221 to R224), or a scrub the quad runs. -/
structure NmeOp where
  quad      : Nat
  cmd       : Option CmdRef
  partition : Nat
  op        : Nat             -- 0 FILL, 1 COPY, 2 COMPARE, 3 REDUCE
  addrA     : Nat
  addrB     : Nat
  len       : Nat
  dir       : Nat
  rop       : Nat
  ifmt      : Nat
  ofmt      : Nat
  word      : Nat
  remote    : Nat
  aux       : Nat
  active    : Bool
  scrub     : Nat             -- 0 a command, 1 tenant switch, 2 PARTITION_SCRUB, 3 extent, by `who`
  who       : Nat
  byCores   : Bool            -- over the core write path (R225)
  fail      : Nat             -- failing status found at its start
  need      : Nat             -- slots of its quad it takes (R221)
  done      : Nat             -- slots it had used by the last boundary
  deriving DecidableEq, Repr, Inhabited

/-- A PARTITION_SCRUB in progress. -/
structure ScrubCmd where
  cmd   : CmdRef
  left  : Nat
  bytes : Nat
  broken : Bool              -- a fill of it was stopped (R224)
  deriving DecidableEq, Repr, Inhabited

/-- The near-memory engines of all quads. -/
structure NmeSt where
  nextId : Nat
  ops    : Map NmeOp
  scrubs : Map ScrubCmd
  deriving DecidableEq, Repr, Inhabited

/-- One rule of the rule section (R237). -/
structure Rule where
  value    : Nat
  mask     : Nat
  priority : Nat
  action   : Nat
  counter  : Nat
  deriving DecidableEq, Repr, Inhabited

/-- One content entry (R231), keyed by set × 16 + way. -/
structure Content where
  hkey    : Nat
  partition : Nat
  gen     : Nat
  quad    : Nat
  granule : Nat
  fresh   : Bool              -- inserted at the present boundary
  deriving DecidableEq, Repr, Inhabited

/-- One Gazetteer slice. -/
structure SliceSt where
  content : Map Content       -- valid entries
  rules   : Map Rule          -- occupied indexes
  routes  : List (Nat × Nat × Nat × List Nat) -- VALUE, PREFIX_LEN, KIND, ports
  result  : Nat               -- GZ_RULE_STATUS.RESULT
  resIdx  : Nat
  resMoves : Nat
  updates : List Nat          -- when the update slots in use come free, in sixths of a ns: a cycle is five (R229)
  ruleEnd : Nat               -- when the rule operation ends (GZ_RULE_STATUS.BUSY)
  lookAt  : Nat               -- cycle in which the last lookup entered a slot
  lookIn  : Nat               -- lookups that entered in it
  deriving DecidableEq, Repr, Inhabited

/-- Post-box states (R317). -/
inductive BoxState where
  | disabled | enabled | draining | error
  deriving DecidableEq, Repr, Inhabited

/-- A boundary command waiting for its boundary (R312). -/
structure BoxWait where
  cmd     : CmdRef
  op      : Nat               -- OPCODE
  bytes   : Bytes             -- the 64 B command
  data    : Bytes             -- what stood at the host address it names
  at'     : Nat               -- fetch time
  atTick  : Option Nat
  ready   : Nat               -- HINT SHARE: when pre-verification finishes (R234)
  seen    : List Nat          -- HINT SHARE: content entries pre-read, as slice × 2^20 + index
  deriving DecidableEq, Repr, Inhabited

/-- A posted command that a fence holds back, or that waits for a free completion (R308, R309). -/
structure Posted where
  bytes : Bytes
  data  : Bytes
  deriving DecidableEq, Repr, Inhabited

/-- A post box beside its registers (R306 to R318). -/
structure BoxSt where
  st       : BoxState
  err      : Nat              -- ERR_CODE
  tail     : Nat
  head     : Nat
  done     : Nat
  cplFree  : Nat
  rrTail   : Nat
  rrFree   : Nat
  inflight : Nat
  suppress : Bool             -- completions suppressed by RESET
  clearing : Bool             -- DISABLED with indices cleared when INFLIGHT is 0
  posted   : List Posted      -- commands the host has posted and the node has not fetched
  fence    : Option Posted    -- a fetched fenced command that has not started
  irqUntil : Nat              -- end of the interrupt hold-off
  irqPend  : Bool
  deriving DecidableEq, Repr, Inhabited

/-- HP_STATUS.HOST. -/
inductive HostState where
  | waiting | active | orphan
  deriving DecidableEq, Repr, Inhabited

/-- One line the directory records (R319). -/
structure DirLine where
  em      : Bool
  granted : Nat               -- order of its grant
  way     : Nat
  snooped : Option Nat        -- a snoop awaits its answer since this time
  write   : Bool              -- the waiting access is a write of the whole line
  deriving DecidableEq, Repr, Inhabited

/-- The host port (R300 to R324). -/
structure HostSt where
  link      : Bool
  modules   : Nat             -- mask of active modules
  everUp    : Bool
  ide       : Bool
  rate      : Nat             -- data rate in GT/s
  st        : HostState
  monitoring : Bool
  beat      : Bool            -- a write arrived in the present period
  misses    : Nat
  boxes     : Map BoxSt
  waiting   : List BoxWait    -- boundary commands fetched and not yet applied
  mem       : Map Byte        -- host memory as the node last wrote it
  noticeTail : Nat
  ringWaits : List (Nat × Bytes) -- ring writes that wait for a line the host holds EM (R320)
  dir       : Map DirLine     -- keyed by line address
  grants    : Nat             -- order of the next grant
  dirWaits  : List (Nat × Bool) -- host requests, line and exclusive, waiting for a victim's recall (R319)
  t3Lost    : Bool
  quiesce   : Bool            -- ORPHAN under QUIESCE (R323)
  quiesced  : Bool            -- its boundary has come
  lastRead  : Option (Nat × Bytes × Bool) -- last CXL.mem answer: address, line, poison
  ur        : Nat             -- accesses completed with Unsupported Request
  regData   : Nat             -- data of the last control-window read
  snoops    : List (Nat × Bool) -- back-invalidate snoops sent, not answered: line, data wanted
  msi       : Map Nat         -- interrupts raised, by MSI-X vector (R318)
  deriving DecidableEq, Repr, Inhabited

/-- Extent states (R338). -/
inductive ExtState where
  | free | granted | withdrawing | scrubbing
  deriving DecidableEq, Repr, Inhabited

/-- A pooled extent (R331 to R338). -/
structure ExtSt where
  st        : ExtState
  partition : Nat
  base      : Nat
  size      : Nat
  rights    : Nat
  gPrefix   : Nat
  gLen      : Nat
  leaseMs   : Nat
  expiry    : Nat
  key       : Nat             -- grant key
  keys      : List Nat        -- indices of its keys
  cmd       : Option CmdRef   -- the EXTENT_WITHDRAW to complete
  drained   : Bool
  stalled   : Bool
  deriving DecidableEq, Repr, Inhabited

/-- An EXTENT_RENEW awaiting its answer (R333). -/
structure RenewSt where
  cmd    : CmdRef
  server : Nat
  reqId  : Nat
  at'    : Nat
  deriving DecidableEq, Repr, Inhabited

/-- The shared pool. -/
structure PoolSt where
  exts   : Map ExtSt
  renews : List RenewSt
  nextReq : Nat
  deriving DecidableEq, Repr, Inhabited

/-- The courier: queue pairs, keys and the contexts' residency. -/
structure CourierSt where
  qps      : Map QpSt
  keys     : Map KeyEnt
  userQps  : List (Nat × Nat × Nat × Nat) -- user kind, peer, partition, QPN (R298)
  useTick  : Nat
  inbox    : List (Nat × Bytes) -- messages received for the node's own users: sender and bytes
  done     : List (CrUser × Nat × Nat × Nat) -- completions of the node's own users: status, DETAIL, RESULT
  deriving DecidableEq, Repr, Inhabited

/-- Security states (R377). -/
inductive SecState where
  | blank | owned | returned
  deriving DecidableEq, Repr, Inhabited

/-- A debug token as decoded (table Debug token). -/
structure Token where
  level      : Nat
  secVer     : Nat
  notBefore  : Nat
  notAfter   : Nat
  partitions : Nat
  serial     : Nat
  deriving DecidableEq, Repr, Inhabited

/-- A verified SEC_CMD waiting for its boundary (R377, R382), or a RETURN whose scrub runs (R378). -/
inductive SecWork where
  | own (ecdsa lms : Nat)
  | ret
  | reprovision
  | token (object : Bytes) (tk : Token)
  | lower (arg : Nat)
  | returning (left : Nat)
  deriving DecidableEq, Repr, Inhabited

/-- Security state, rollback counters, tokens and the attestation key's index (R367 to R385). -/
structure SecSt where
  st         : SecState
  ownerEcdsa : Nat            -- owner area: hash of the owner's P-384 key
  ownerLms   : Nat
  ownerAbsent : Bool          -- the owner area has no verifying copy (R368)
  ctrFw      : Nat            -- rollback counters (R371)
  ctrChart   : Nat
  ctrDebug   : Nat
  lmsNext    : Nat
  resEnd     : Nat
  nextTree   : Bool           -- the next lower HSS tree is generated
  nonceNo    : Nat            -- how many values SEC_NONCE has taken; its value is `Config.secNonce nonceNo`
  busy       : Bool
  work       : Option SecWork
  level      : Nat
  token      : Option Token
  pendingTok : Option Token   -- DL3 pending (R383)
  destroying : Nat            -- partitions whose destruction the pending token waits for
  chartByOwner : Bool         -- the chart in force verified under the owner's keys (R377)
  mChart     : Bytes          -- measurement 3
  mOverlays  : Bytes          -- measurement 4
  mFirmware  : Bytes          -- measurement 2
  deriving DecidableEq, Repr, Inhabited

/-- One SPDM session (R372). -/
structure SpdmSession where
  ident : Nat
  estab : Bool                -- FINISH done
  keyNo : Nat                 -- KEY_UPDATEs applied
  beats : Nat
  deriving DecidableEq, Repr, Inhabited

/-- What the responder last answered on a connection: the response code or an error, its body, and whether it is
signed. -/
structure SpdmAnswer where
  code   : Nat
  error  : Nat
  body   : Bytes
  signed : Bool
  hssIdx : Nat
  deriving DecidableEq, Repr, Inhabited

/-- One SPDM connection: 0 MCTP over I3C, 1 CXL.io DOE. -/
structure SpdmConn where
  version  : Nat              -- negotiated version, 0 before GET_VERSION
  stage    : Nat              -- 0 none, 1 version, 2 capabilities, 3 algorithms
  l1       : Bytes            -- transcript the next signed response covers
  last     : SpdmAnswer
  lastHash : Bytes            -- message hash of the last signed response
  lastIdx  : Nat              -- HSS index of its second signature
  sessions : List SpdmSession
  nextSess : Nat
  ideKeys  : List Bytes       -- key programming of CXL IDE_KM
  deriving DecidableEq, Repr, Inhabited

/-- Power states and operating points (R24, R386 to R391, R475). -/
structure PowerSt where
  op        : Nat             -- operating point in force
  opPower   : Nat             -- point asked for by R24
  opThermal : Nat             -- point asked for by R219 and R475
  opStack   : Nat             -- R219's part of it
  opDie     : Nat             -- R475's part of it
  raising   : Option Nat      -- faster point whose rails ramp
  settled   : Bool            -- every rail has settled
  limit     : Nat             -- PWR_CFG.OP_LIMIT in effect
  parkWant  : Nat             -- PWR_CTL.PARK in effect
  standby   : Bool            -- Standby in effect
  parked    : Nat             -- sheets in Park
  waking    : Nat             -- sheets whose cores power up
  thermPark : Nat             -- sheets parked by R219
  diePark   : Nat             -- sheets parked by R475
  dozed     : Nat             -- sheets that dozed in the current tick
  avg       : Nat
  belowAt   : Option Nat      -- since when power has been 5% below TDP
  coolStackAt : Option Nat    -- since when every stack is below 83 °C
  coolDieAt : Option Nat      -- since when every quad is below 97 °C
  coolHubAt : Option Nat      -- since when the hub is below 97 °C
  stackStepAt : Nat           -- last step of R219
  dieStepAt : Nat             -- last step of R475
  hubHot    : Bool            -- the hub rule holds OP3
  hubTemp   : Nat
  deriving DecidableEq, Repr, Inhabited

/-- Why a scope is halted: DBG_STATUS.CAUSE. -/
abbrev HaltCause := Nat

/-- A scheduled HOLD, RELEASE or STEP (R406). -/
structure HoldAt where
  kind : Nat                  -- 1 HOLD, 2 RELEASE, 3 STEP
  tick : Nat
  own  : Bool                 -- the node's own RESUME or STEP under PROPAGATE
  deriving DecidableEq, Repr, Inhabited

/-- One breakpoint's four words (R407). -/
structure Bp where
  ctl : Nat
  a   : Nat
  b   : Nat
  c   : Nat
  deriving DecidableEq, Repr, Inhabited

/-- The debug port (R396 to R407). -/
structure DebugSt where
  ir        : Nat             -- instruction in force
  refused   : Bool
  dr        : Nat             -- what the selected data register captures, but for the debug bus
  outputs   : Nat             -- 0 driven by the node, 1 by EXTEST, 2 held by CLAMP, 3 floating (HIGHZ)
  data      : Nat
  addr      : Nat
  space     : Nat
  status    : Nat
  halted    : Bool
  cause     : HaltCause
  bpHit     : Nat
  haltTick  : Nat
  scopeParts : Bool           -- SCOPE
  propagate : Bool
  freezeIo  : Bool
  list      : Nat
  partitions : Nat
  wantHalt  : Nat             -- highest cause wanted at the next boundary, 0 none
  wantBp    : Nat
  wantRun   : Bool            -- RESUME or STEP at the next boundary
  stepping  : Bool            -- halts again at the following boundary
  sched     : List HoldAt
  sent      : Nat
  honoured  : Nat
  ignored   : Nat
  bps       : Map Bp
  frozen    : List Nat        -- cores frozen by a RECIPE_STEP breakpoint
  deriving DecidableEq, Repr, Inhabited

/-- An abort window (R427). -/
structure AbortWin where
  value   : Nat
  mask    : Nat
  til     : Nat
  applied : Bool              -- its boundary has passed
  deriving DecidableEq, Repr, Inhabited

/-- A reset waiting for its boundary (R419). -/
structure ResetReq where
  level  : Nat
  target : Nat
  cause  : Nat
  cmd    : Option CmdRef
  deriving DecidableEq, Repr, Inhabited

/-- Errors, hangs, resets and aborts (R408 to R428). -/
structure ErrSt where
  noAdmit    : Bool           -- a FATAL error stops admission from the next boundary (R412)
  fatalNew   : Bool           -- its first boundary has not come
  fatalSrc   : Option (Nat × Nat) -- source and sheet of the error awaiting its reset
  fatalAt    : Nat
  lastFatal  : Option (Nat × Nat) -- source of the FATAL that started the last level 4
  lastFirst  : Nat            -- first tick after it
  resets     : List ResetReq
  level1     : List (CmdRef × Nat) -- level-1 resets of post boxes not yet complete: command, box
  level2     : List (CmdRef × Nat) -- level-2 resets whose core is not ready: command, core
  level3     : List (CmdRef × Nat) -- level-3 resets not yet complete: command, partition
  warmAt     : Option Nat     -- level 4 runs since
  aborts     : List AbortWin
  abortId    : Nat
  missed     : Map Nat        -- consecutive boundary reports missed, by sheet
  d2dDown    : List (Nat × Nat) -- die-to-die links down
  deriving DecidableEq, Repr, Inhabited

/-- A Survey record without its number (table Survey record). -/
structure SurvRec where
  cls      : Nat
  severity : Nat
  summary  : Bool
  source   : Nat
  event    : Nat
  ns       : Nat
  tick     : Nat
  part     : Option Nat
  core     : Nat
  quad     : Nat
  sheet    : Nat
  port     : Nat
  lane     : Nat
  tempQuad : Nat
  tempStack : Nat
  vcore    : Nat
  op       : Nat
  passes   : Nat
  load     : Nat
  guard    : Nat
  data0    : Nat
  data1    : Nat
  data2    : Nat
  deriving DecidableEq, Repr, Inhabited

/-- Drops of one class since its last summary (R439). -/
structure DropSt where
  count  : Nat
  first  : Nat
  last   : Nat
  record : SurvRec            -- source and scope of the first dropped record
  deriving DecidableEq, Repr, Inhabited

/-- A SURVEY_READ in progress (R446). -/
structure SurvRead where
  cmd   : CmdRef
  hbm   : Bool
  dest  : Nat
  bytes : Bytes
  deriving DecidableEq, Repr, Inhabited

/-- A known-answer test waiting for room (R442). -/
structure KatDue where
  core    : Nat               -- lower core of the pair
  seed    : Nat
  dueTick : Nat
  done    : Nat               -- bit 0: the lower core has run, bit 1: its partner
  deriving DecidableEq, Repr, Inhabited

/-- The Survey (R433 to R449). -/
structure SurveySt where
  queue    : List SurvRec     -- formed, on their way to the hub
  tokens   : List Nat         -- by class
  rxTokens : Nat
  refillAt : Nat              -- Meridian millisecond of the last refill
  drops    : List DropSt      -- by class
  laid     : Bool             -- the log ring is laid out (R457)
  lost     : Bool             -- RING_LOST
  histo    : Map Byte         -- the SRAM copy of the histograms, by MRAM address
  warned   : Map Nat          -- time of the last threshold record, by kind and unit, plus 1
  kats     : List KatDue
  flushUntil : Option Nat     -- when the histogram flush in progress ends
  reads    : List SurvRead
  trace    : Nat              -- SVY_TRACE_CFG in effect
  replays  : Map Nat          -- die-to-die replays counted, by sheet × 4 + link (R19)
  deriving DecidableEq, Repr, Inhabited

/-- The PLDM responder (R448). -/
structure PldmSt where
  receiver : Option Nat
  tid      : Nat
  wants    : List (Nat × Nat) -- granted effecters to apply at the next boundary
  hostWrote : Nat             -- registers the host has written since the last boundary: bit 0 OP_LIMIT, bit 1 STANDBY
  answer   : List Nat         -- completion code and data of the last response
  events   : Nat              -- platform events sent
  lastEvent : Bytes
  deriving DecidableEq, Repr, Inhabited

/-- The MRAM (R368): the byte areas that are not sealed, and the log and reset words kept with them. -/
structure MramSt where
  bytes    : Map Byte
  logNext  : Nat
  logWraps : Nat
  sumNext  : Nat
  lastLevel : Nat
  lastCause : Nat
  lastTick : Nat
  l2       : Nat
  l3       : Nat
  l4       : Nat
  l5       : Nat
  mirror   : List (Nat × Nat) -- retirement mirror: quad, granule (R220)
  deriving DecidableEq, Repr, Inhabited

/-- Start-up (R450 to R463). -/
structure BootSt where
  rom      : Bool             -- the ROM runs; only the ID_ and CAP_ registers answer (R452)
  romSlot  : Nat              -- slot being tried
  slotsBad : Bool             -- both slots failed
  startNs  : Nat              -- MER_NS when the latest start began
  done     : Nat
  failStep : Nat
  failCode : Nat
  slot     : Nat
  warm     : Bool
  chartMs  : Nat
  hbmMs    : Nat
  lockMs   : Nat
  readyMs  : Nat
  fwVer    : Nat              -- SECURITY_VERSION of the firmware running
  fwBytes  : Bytes            -- signed bytes of the image running
  ownerErr : Bool             -- UNSEAL_FAIL of the state area: only REPROVISION (R459)
  sheetsUp : Nat              -- sheets powered
  stopped  : Bool             -- R455 stopped the start-up
  trained  : Bool             -- step 8 has ended
  hbmReady : Bool             -- step 9 has ended
  laid     : Bool             -- step 10 is done
  late     : Bool             -- READY_TIMEOUT has written its record
  deriving DecidableEq, Repr, Inhabited

/-- The signal lands (R468 to R476). -/
structure PinSt where
  pwrGood  : Bool
  resetLow : Bool             -- NODE_RESET_N is low
  avsEn    : Nat              -- AVS_EN[7:0]
  pwrcycLow : Bool            -- TRAY_PWRCYC_REQ_N is low
  thermLow : Bool             -- THERMTRIP_N is low
  tripHeld : Option (Nat × Nat) -- always-on record of the trip: sensor, °C
  ppsOut   : Option Nat       -- TIME_PPS_OUT is high until
  deriving DecidableEq, Repr, Inhabited

/-- A write of CORE_CTL, SO_CTL, XL_CTL or MIG_CTL, which takes effect at the next boundary (R118, R140, R187,
R212). -/
inductive CtlAct where
  | coreFence (core : Nat) | coreUnfence (core : Nat) | coreClear (core : Nat)
  | soClear (sheet : Nat) | demote (sheet : Nat) | xlClear (sheet : Nat) | flushRc (sheet : Nat)
  | migClear (quad : Nat) | pause (quad : Nat) (on : Bool)
  deriving DecidableEq, Repr, Inhabited

/-- The node: everything but the queue of waiting commands. -/
structure Node where
  ident     : Ident
  pins      : PinSt
  boot      : BootSt
  regs      : Map Nat         -- register fields that differ from their reset value, keyed by BAR0 address × 64 + bit
  mram      : MramSt
  hbm       : Map Byte        -- HBM bytes, by address (R215); an unlisted byte is 0 (R456)
  poison    : List Nat        -- poisoned bursts, ascending burst numbers (R217)
  time      : TimeSt
  chart     : ChartSt
  parts     : Map PartSt
  quads     : Map QuadSt
  granules  : Map GRun
  seqs      : Map SeqRec      -- open sequences, by SEQ
  leaves    : Map Leaf        -- by sequence number × 2^32 + slot
  rowsNow   : Map Nat         -- admitted rows by frame in the current tick (R137)
  rowsPrev  : Map Nat         -- and in the tick before
  office    : OfficeSt
  cores     : Map CoreSt
  ports     : Map PortSt
  locks     : Map LockSt
  courier   : CourierSt
  mig       : MigSt
  nme       : NmeSt
  gz        : Map SliceSt
  host      : HostSt
  pool      : PoolSt
  sec       : SecSt
  spdm      : Map SpdmConn
  power     : PowerSt
  dbg       : DebugSt
  err       : ErrSt
  survey    : SurveySt
  pldm      : PldmSt
  portMode  : Nat             -- PART_PORT_CFG.MODE in effect (R363)
  waits     : List CtlAct     -- control writes that wait for the next boundary
  loop      : List (Nat × Packet) -- packets the node has sent to itself, on their way inside the package, and the sheet
                              -- that sent each
  freeCtr   : Nat             -- the model's own: how many free values have been used
  deriving DecidableEq, Repr, Inhabited

/-- The machine: the node and the commands waiting for it, first in, first out. -/
structure State where
  node    : Node
  pending : List Instr
  deriving DecidableEq, Repr

/-- Why a step stops with a fault. -/
inductive Fault where
  /-- A command names a unit (sheet, quad, core, port, module, register window) that the part does not have; such an
  event cannot occur (R1, R4). Raised by every meaning that acts on a named unit. Safe: the machine stops. -/
  | absentUnit
  deriving DecidableEq, Repr

/-- Why a step is refused. -/
inductive Refusal where
  /-- The model has no meaning for the command. Raised by `exec` alone. Safe: nothing can be proved past it. -/
  | notModelled (mnemonic : String)
  deriving DecidableEq, Repr

/-- The node right after reset: power has come on a VXA-8032 of the first production stepping (DESIGN CHOICE, log entry
48: R4 gives ID_PART.STEPPING per die set, with 0x01 the first production stepping) with a BLANK MRAM, NODE_RESET_N is high, the hub's
ROM begins step 1 of the cold start (R450, R453), and the test port holds IDCODE (R390). Every other field is the first
value of its type: numbers 0, lists empty, every register field at its reset value (the file `regs` lists none). -/
def Node.reset : Node :=
  let n : Node := default
  { n with
    ident := { n.ident with stepping := 1 }
    pins := { n.pins with pwrGood := true }
    boot := { n.boot with rom := true }
    dbg := { n.dbg with ir := 2 } }

/-- The state right after reset: nothing waits. -/
def State.reset : State := ⟨Node.reset, []⟩

end Sys2Proof.Machine
end

