-- ==== Sys2Proof/Machine/Ops.lean ====
section
/-!
DEFINITION. The named operations every command shares: the units a part has, the register file, HBM bytes and poison,
granules, the chart's values, Meridian time and ticks, free values.
-/

namespace Sys2Proof.Machine

/-! ## Lifting a change of the node to the machine -/

/-- The node after a change: what was fixed when the package was built stays (R1). -/
def Node.change (n : Node) (f : Node → Node) : Node := { f n with ident := n.ident }

/-- The node changes and the queue does not. -/
def State.on (s : State) (f : Node → Node) : Host.Outcome State Fault Refusal := .next { s with node := s.node.change f }

/-- As `State.on` when the part has the named unit; no such event exists otherwise. -/
def State.onUnit (s : State) (present : Bool) (f : Node → Node) : Host.Outcome State Fault Refusal :=
  if present then s.on f else .fault .absentUnit

/-- Do something only under a condition. -/
def Node.when (n : Node) (c : Bool) (f : Node → Node) : Node := if c then f n else n

/-! ## Units (R1, R4, R13) -/

/-- PART_CODE (R1). -/
def Part.code : Part → Nat
  | .vxa8032 => 0x8032 | .vxa8032c => 0x8C32 | .vxa4016 => 0x4016 | .vxa2008 => 0x2008

/-- Sheets of a part (R1). -/
def Part.sheets : Part → Nat
  | .vxa4016 => 4 | .vxa2008 => 2 | _ => 8

/-- Is the fold codec present (R1)? -/
def Part.fold : Part → Bool
  | .vxa2008 => false | _ => true

/-- Is the Gazetteer content section present (R1)? -/
def Part.content : Part → Bool
  | .vxa8032c => false | _ => true

/-- Are the near-memory engines present (R1)? -/
def Part.nme : Part → Bool
  | .vxa8032c => false | _ => true

/-- TDP in watts (R23). -/
def Part.tdp : Part → Nat
  | .vxa8032 => 4400 | .vxa8032c => 4250 | .vxa4016 => 2250 | .vxa2008 => 1150

def Node.nSheets (n : Node) : Nat := n.ident.part.sheets
def Node.nQuads (n : Node) : Nat := 4 * n.nSheets
def Node.nCores (n : Node) : Nat := 100 * n.nSheets
def Node.nPorts (n : Node) : Nat := 2 * n.nSheets
def Node.hasSheet (n : Node) (s : Nat) : Bool := decide (s < n.nSheets)
def Node.hasQuad (n : Node) (q : Nat) : Bool := decide (q < n.nQuads)
def Node.hasCore (n : Node) (c : Nat) : Bool := decide (c < n.nCores)
def Node.hasPort (n : Node) (p : Nat) : Bool := decide (p < n.nPorts)

/-- The quad of a global core. -/
def coreQuad (c : Nat) : Nat := c / 100 * 4 + c % 100 / 25
/-- The 25 cores of a quad. -/
def quadCores (q : Nat) : List Nat := span (q * 25) 25
/-- The sheet of a quad. -/
def quadSheet (q : Nat) : Nat := q / 4
/-- The quads of a sheet. -/
def sheetQuads (s : Nat) : List Nat := span (s * 4) 4

/-! ### Die-to-die links (R17, R18) -/

/-- Sheets in a row (table Sheet rows): two rows of half the sheets each. -/
def Node.rowLen (n : Node) : Nat := n.nSheets / 2
/-- The row of a sheet, 0 for A. -/
def Node.rowOf (n : Node) (s : Nat) : Nat := s / n.rowLen
/-- Are two sheets row neighbours (R17)? -/
def Node.neighbours (n : Node) (a b : Nat) : Bool := n.rowOf a == n.rowOf b && (a + 1 == b || b + 1 == a)

/-- The sheet at the far end of a sheet's link: 1 to the lower, 2 to the higher row neighbour (ERR_FATAL_INFO.LINK). -/
def Node.linkPeer (n : Node) (s link : Nat) : Option Nat :=
  if link = 1 ∧ 0 < s ∧ n.neighbours (s - 1) s then some (s - 1)
  else if link = 2 ∧ n.neighbours s (s + 1) ∧ n.hasSheet (s + 1) then some (s + 1)
  else none

/-- Has a sheet the named die-to-die link: 0 to the hub, 1 and 2 to its row neighbours? -/
def Node.hasLink (n : Node) (s link : Nat) : Bool := n.hasSheet s && (link == 0 || (n.linkPeer s link).isSome)

/-- The links a transfer between two sheets crosses, each named by a sheet and its link (R18): along the row, or by the hub. -/
def Node.linkPath (n : Node) (a b : Nat) : List (Nat × Nat) :=
  if a = b then []
  else if n.rowOf a = n.rowOf b then (span (min a b) (max a b - min a b)).map fun s => (s, 2)
  else [(a, 0), (b, 0)]

/-- Is a link down, named from either end? -/
def Node.linkBroken (n : Node) (x : Nat × Nat) : Bool :=
  n.err.d2dDown.any fun d => d == x || (n.linkPeer d.1 d.2 == some x.1 && n.linkPeer x.1 x.2 == some d.1)

/-! ## The register file (R6, R304) -/

/-- Window bases in BAR0 (table Control window). -/
def sheetBase (s : Nat) : Nat := 0x1000000 + s * 0x200000
def portBase (p : Nat) : Nat := sheetBase (p / 2) + 0x10100 + p % 2 * 0x100
def quadBase (q : Nat) : Nat := sheetBase (q / 4) + 0x80000 + q % 4 * 0x20000
def coreBase (c : Nat) : Nat := quadBase (coreQuad c) + 0x10000 + c % 25 * 0x400
def boxBase (b : Nat) : Nat := 0x100000 + b * 0x100

/-- The key of a field whose window starts at `base`. -/
def Fld.key (f : Fld) (base : Nat) : Nat := (base + f.addr) * 64 + f.lo

/-- The value of a register field. -/
def Node.rd (n : Node) (f : Fld) (base : Nat) : Nat := mapGetD f.reset n.regs (f.key base)

/-- Write a register field, cut to its width. -/
def Node.wr (n : Node) (f : Fld) (base v : Nat) : Node :=
  { n with regs := mapSetD f.reset n.regs (f.key base) (v % 2 ^ f.width) }

/-- Count in a saturating counter field. -/
def Node.inc (n : Node) (f : Fld) (base k : Nat) : Node :=
  { n with regs := mapSetD f.reset n.regs (f.key base) (min (n.rd f base + k) (2 ^ f.width - 1)) }

/-- Give every field of a list its reset value: what CLEAR_CNT does to counters. -/
def Node.clr (n : Node) (fs : List Fld) (base : Nat) : Node :=
  forEach fs n fun n f => { n with regs := mapErase n.regs (f.key base) }

/-! ## Free values -/

/-- A fresh value the spec leaves open: what it is nobody can prove. -/
def Node.fresh (n : Node) : Nat × Node := ((Config.freeValue n.freeCtr).toNat, { n with freeCtr := n.freeCtr + 1 })

/-! ## Structured state by unit -/

def Node.quad (n : Node) (q : Nat) : QuadSt := mapGet n.quads q
def Node.modQuad (n : Node) (q : Nat) (f : QuadSt → QuadSt) : Node := { n with quads := mapMod n.quads q f }
def Node.core (n : Node) (c : Nat) : CoreSt := mapGet n.cores c
def Node.modCore (n : Node) (c : Nat) (f : CoreSt → CoreSt) : Node := { n with cores := mapMod n.cores c f }
def Node.port (n : Node) (p : Nat) : PortSt := mapGet n.ports p
def Node.modPort (n : Node) (p : Nat) (f : PortSt → PortSt) : Node := { n with ports := mapMod n.ports p f }
def Node.part (n : Node) (p : Nat) : PartSt := mapGet n.parts p
def Node.modPart (n : Node) (p : Nat) (f : PartSt → PartSt) : Node := { n with parts := mapMod n.parts p f }
def Node.box (n : Node) (b : Nat) : BoxSt := mapGet n.host.boxes b
def Node.modBox (n : Node) (b : Nat) (f : BoxSt → BoxSt) : Node :=
  { n with host := { n.host with boxes := mapMod n.host.boxes b f } }
def Node.qp (n : Node) (q : Nat) : QpSt := mapGet n.courier.qps q
def Node.modQp (n : Node) (q : Nat) (f : QpSt → QpSt) : Node :=
  { n with courier := { n.courier with qps := mapMod n.courier.qps q f } }
def Node.gzSlice (n : Node) (s : Nat) : SliceSt := mapGet n.gz s
def Node.modSlice (n : Node) (s : Nat) (f : SliceSt → SliceSt) : Node := { n with gz := mapMod n.gz s f }
def Node.ext (n : Node) (e : Nat) : ExtSt := mapGet n.pool.exts e
def Node.modExt (n : Node) (e : Nat) (f : ExtSt → ExtSt) : Node :=
  { n with pool := { n.pool with exts := mapMod n.pool.exts e f } }
def Node.modTime (n : Node) (f : TimeSt → TimeSt) : Node := { n with time := f n.time }
def Node.modOffice (n : Node) (f : OfficeSt → OfficeSt) : Node := { n with office := f n.office }
def Node.modMig (n : Node) (f : MigSt → MigSt) : Node := { n with mig := f n.mig }
def Node.modHost (n : Node) (f : HostSt → HostSt) : Node := { n with host := f n.host }
def Node.modSec (n : Node) (f : SecSt → SecSt) : Node := { n with sec := f n.sec }
def Node.modPower (n : Node) (f : PowerSt → PowerSt) : Node := { n with power := f n.power }
def Node.modDebug (n : Node) (f : DebugSt → DebugSt) : Node := { n with dbg := f n.dbg }
def Node.modErr (n : Node) (f : ErrSt → ErrSt) : Node := { n with err := f n.err }
def Node.modSurvey (n : Node) (f : SurveySt → SurveySt) : Node := { n with survey := f n.survey }
def Node.modBoot (n : Node) (f : BootSt → BootSt) : Node := { n with boot := f n.boot }
def Node.modChart (n : Node) (f : ChartSt → ChartSt) : Node := { n with chart := f n.chart }
def Node.modMram (n : Node) (f : MramSt → MramSt) : Node := { n with mram := f n.mram }
def Node.modPins (n : Node) (f : PinSt → PinSt) : Node := { n with pins := f n.pins }

/-! ## HBM bytes (R215, R217) -/

/-- The HBM address of a quad's granule. -/
def granAddr (quad g : Nat) : Nat := quad * 2 ^ 36 + g * 4096
/-- Quad and granule of an HBM address. -/
def addrQuad (a : Nat) : Nat := a / 2 ^ 36
def addrGran (a : Nat) : Nat := a % 2 ^ 36 / 4096
/-- First reserved granule of a stack: 48 GiB less 8 MiB (R216). -/
def reservedGran : Nat := 12580864

/-- One byte of HBM. -/
def Node.hbmByte (n : Node) (a : Nat) : Byte := mapGetD 0 n.hbm a
/-- `len` bytes of HBM. -/
def Node.hbmRead (n : Node) (a len : Nat) : Bytes := (upTo len).map fun i => n.hbmByte (a + i)
/-- A little-endian number in HBM. -/
def Node.hbmNat (n : Node) (a len : Nat) : Nat := leNat (n.hbmRead a len)

/-- Write one byte, keeping the canonical form of the map. -/
def hbmSet (m : Map Byte) (a : Nat) (b : Byte) : Map Byte := mapSetD 0 m a b

/-- Write bytes from an address up. -/
def hbmPut : Map Byte → Nat → Bytes → Map Byte
  | m, _, [] => m
  | m, a, b :: bs => hbmPut (hbmSet m a b) (a + 1) bs

/-- Write bytes into HBM. -/
def Node.hbmWrite (n : Node) (a : Nat) (bs : Bytes) : Node := { n with hbm := hbmPut n.hbm a bs }

/-- Fill a range with zeros: its bytes are no longer listed, and its bursts no longer poisoned (R223). -/
def Node.hbmZero (n : Node) (a len : Nat) : Node :=
  { n with hbm := mapKeep (fun k _ => decide (k < a) || decide (a + len ≤ k)) n.hbm
           poison := n.poison.filter fun b => decide (b * 32 + 32 ≤ a) || decide (a + len ≤ b * 32) }

/-- The burst numbers a range touches. -/
def burstsOf (a len : Nat) : List Nat := if len = 0 then [] else span (a / 32) ((a + len - 1) / 32 - a / 32 + 1)

/-- Is some burst of a range poisoned? -/
def Node.poisoned (n : Node) (a len : Nat) : Bool :=
  decide (len ≠ 0) && n.poison.any fun b => decide (a < b * 32 + 32) && decide (b * 32 < a + len)

/-- Put a number into an ascending list without repeats. -/
def insNat (x : Nat) : List Nat → List Nat
  | [] => [x]
  | y :: ys => if x < y then x :: y :: ys else if x = y then y :: ys else y :: insNat x ys

/-- Poison every burst of a range. -/
def Node.poisonRange (n : Node) (a len : Nat) : Node :=
  { n with poison := forEach (burstsOf a len) n.poison fun l b => insNat b l }

/-- Clear the poison of every burst wholly inside a range (R411). -/
def Node.unpoison (n : Node) (a len : Nat) : Node :=
  { n with poison := n.poison.filter fun b => !(decide (a ≤ b * 32) && decide (b * 32 + 32 ≤ a + len)) }

/-- A write by an agent: whole bursts lose their poison, partial ones keep it (R217, R321). -/
def Node.hbmStore (n : Node) (a : Nat) (bs : Bytes) : Node := (n.hbmWrite a bs).unpoison a bs.length

/-! ## Granules (R216), as runs keyed by quad × 2^24 + first granule -/

/-- The run that holds a granule, with its key. -/
def Node.runAt (n : Node) (quad g : Nat) : Option (Nat × GRun) :=
  (n.granules.find? fun p => decide (p.1 / 2 ^ 24 = quad ∧ p.1 % 2 ^ 24 ≤ g ∧ g < p.1 % 2 ^ 24 + p.2.len))

/-- The class of a granule; an unlisted granule is FREE, the last 8 MiB SYSTEM. -/
def Node.classOf (n : Node) (quad g : Nat) : GClass :=
  if reservedGran ≤ g then .system
  else match n.runAt quad g with
    | some r => r.2.cls
    | none => .free

/-- The codes of R216. -/
def GClass.code : GClass → Nat
  | .free => 0 | .frame => 1 | .system => 2 | .host => 3 | .retired => 4 | .retirePending => 5

/-- Take a range out of the runs, splitting those it cuts. -/
def cutRuns (quad g len : Nat) (m : Map GRun) : Map GRun :=
  m.flatMap fun p =>
    let q := p.1 / 2 ^ 24
    let a := p.1 % 2 ^ 24
    let b := a + p.2.len
    if q ≠ quad ∨ b ≤ g ∨ g + len ≤ a then [p]
    else
      (if a < g then [(p.1, { p.2 with len := g - a })] else []) ++
      (if g + len < b then [(quad * 2 ^ 24 + g + len, { p.2 with len := b - (g + len) })] else [])

/-- Give a range of granules a class. -/
def Node.setClass (n : Node) (quad g len : Nat) (cls : GClass) (owner kind : Nat) : Node :=
  if len = 0 then n
  else
    let m := cutRuns quad g len n.granules
    { n with granules := if cls = .free then m else mapInsert m (quad * 2 ^ 24 + g) ⟨len, cls, owner, kind⟩ }

/-- Does a run lie in a hosted T2 store? -/
def GRun.isStore (r : GRun) : Bool := (r.cls == .system || r.cls == .retirePending) && r.kind == 4

/-- The runs of a quad in ascending order: first granule and run. -/
def Node.quadRuns (n : Node) (quad : Nat) : List (Nat × GRun) :=
  (n.granules.filter fun p => decide (p.1 / 2 ^ 24 = quad)).map fun p => (p.1 % 2 ^ 24, p.2)

/-- First fit (R180): the lowest run of `len` free granules of a quad. -/
def firstFit (len : Nat) : Nat → List (Nat × GRun) → Option Nat
  | from', [] => if from' + len ≤ reservedGran then some from' else none
  | from', (a, r) :: rest =>
    if from' + len ≤ a then some from' else firstFit len (max from' (a + r.len)) rest

/-- A free run of a quad, if there is one. -/
def Node.findFree (n : Node) (quad len : Nat) : Option Nat := firstFit len 0 (n.quadRuns quad)

/-- Highest fit: the highest free run that ends at or below a limit. -/
def highFit (len lim : Nat) (runs : List (Nat × GRun)) : Option Nat :=
  let gaps := (runs.foldl (fun (acc : Nat × List (Nat × Nat)) r => (max acc.1 (r.1 + r.2.len), (acc.1, r.1) :: acc.2))
    (0, []))
  let all := (gaps.1, lim) :: gaps.2
  (all.find? fun g => decide (g.1 + len ≤ min g.2 lim)).map fun g => min g.2 lim - len

/-- Granules of one class on a quad. -/
def Node.countClass (n : Node) (quad : Nat) (cls : GClass) : Nat :=
  ((n.quadRuns quad).filter fun r => decide (r.2.cls = cls)).foldl (fun a r => a + r.2.len) 0

/-- Granules of a quad that are FREE. -/
def Node.freeGranules (n : Node) (quad : Nat) : Nat :=
  reservedGran - (n.quadRuns quad).foldl (fun a r => a + r.2.len) 0

/-! ## Chart values (R341, R342) -/

/-- Word `k` of a record of the composition in force, or its default where the record or word is absent. -/
def compWord (comp : List ChartSec) (typ rtype index k dflt : Nat) : Nat :=
  match (comp.find? fun s => s.typ == typ) with
  | none => dflt
  | some s =>
    match s.recs.find? fun r => r.rtype == rtype && r.index == index with
    | none => dflt
    | some r => r.words.getD k dflt

/-- The record itself. -/
def compRec (comp : List ChartSec) (typ rtype index : Nat) : Option ChartRec :=
  (comp.find? fun s => s.typ == typ).bind fun s => s.recs.find? fun r => r.rtype == rtype && r.index == index

/-- All records of a type. -/
def compRecs (comp : List ChartSec) (typ rtype : Nat) : List ChartRec :=
  match comp.find? fun s => s.typ == typ with
  | none => []
  | some s => s.recs.filter fun r => r.rtype == rtype

/-- Word of the composition in force. -/
def Node.cw (n : Node) (typ rtype index k dflt : Nat) : Nat := compWord n.chart.comp typ rtype index k dflt

def Node.guardNs (n : Node) : Nat := n.cw 6 3 0xFFFF 0 20
def Node.spanNs (n : Node) : Nat := n.cw 6 4 0xFFFF 0 50000
def Node.postcode (n : Node) : Nat := n.cw 7 1 0xFFFF 0 0
def Node.hasChart (n : Node) : Bool := decide (n.chart.st = .inForce)
/-- The roles of a quad: bit 0 PAGE, 1 ANCHOR, 2 POOL. -/
def Node.roles (n : Node) (quad : Nat) : Nat := n.cw 2 1 quad 0 0
/-- A distribution list's postcodes (section 0x08). -/
def Node.distList (n : Node) (id : Nat) : List Nat :=
  match compRec n.chart.comp 8 1 id with
  | none => []
  | some r => (upTo (r.words.getD 0 0)).map fun i => bits (r.words.getD (1 + i / 2) 0) (32 * (i % 2)) 32
/-- A fold table as the chart's record lays it out (R151): MODE, PARTITIONS and one entry per byte. -/
def Node.foldTableRec (n : Node) (id : Nat) : Option ChartRec := compRec n.chart.comp 3 2 id

/-! ## Meridian time and ticks (R26, R43 to R48) -/

/-- The present MER_NS. -/
def Node.now (n : Node) : Nat := n.time.now

/-- Time moves on to `t`; it never moves back by a command. -/
def Node.at (n : Node) (t : Nat) : Node := { n with time := { n.time with now := max n.time.now t } }

/-- Are ticks generated (R38)? -/
def Node.ticking (n : Node) : Bool := n.time.everLocked && decide (n.time.period ≠ 0)

/-- The index of the tick that a time falls in, by the schedule in force (R43); its number is the low 48 bits. -/
def Node.tickAt (n : Node) (t : Nat) : Nat :=
  if n.time.period = 0 then 0 else (t + 2 ^ 64 - n.time.origin) % 2 ^ 64 / n.time.period

/-- a - b of two tick numbers as a signed 48-bit value (R44). -/
def tickDiff (a b : Nat) : Int := sdiff 48 a b

/-- B(k) of R43 for a 48-bit tick number: that of the tick of this number nearest to now (R44). -/
def Node.boundary (n : Node) (k : Nat) : Nat :=
  let i := n.tickAt n.now
  toUnsigned 64 ((n.time.origin : Int) + ((i : Int) + tickDiff k i) * n.time.period)

/-- The boundary of the tick in force: what has come by then has been applied at a boundary; 0 while there are no ticks. -/
def Node.tickStart (n : Node) : Nat := if n.ticking then n.boundary n.time.tick else 0

/-- Effective guard (table Meridian states, R51). -/
def Node.guardNow (n : Node) : Nat :=
  n.guardNs + (match n.time.st with
    | .holdover => n.time.errEst
    | .unlocked => n.cw 6 9 0xFFFF 0 40
    | _ => 0)

/-- Sheets of the node in ascending order. -/
def Node.sheetList (n : Node) : List Nat := upTo n.nSheets
def Node.quadList (n : Node) : List Nat := upTo n.nQuads
def Node.coreList (n : Node) : List Nat := upTo n.nCores
def Node.portList (n : Node) : List Nat := upTo n.nPorts

/-- The partition that owns a quad, if it is ASSIGNED (R355). -/
def Node.quadOwner (n : Node) (quad : Nat) : Option Nat :=
  if (n.quad quad).st = .assigned then some (n.quad quad).owner else none

/-- The quads of a partition in ascending order. -/
def Node.partQuads (n : Node) (p : Nat) : List Nat := n.quadList.filter fun q => bitAt (n.part p).quads q

/-- The partition's page-role quads on this node, ascending (R182). -/
def Node.pageQuads (n : Node) (p : Nat) : List Nat := (n.partQuads p).filter fun q => bitAt (n.roles q) 0

end Sys2Proof.Machine
end

