-- ==== Sys2Proof/Machine/Ecc.lean ====
section
/-!
DEFINITION. The HBM controller's code (R217): the field, the tag byte, the Reed-Solomon check symbols and the decoder.
-/

namespace Sys2Proof.Machine

/-- Multiplication by α = 0x02 in GF(2^8) with field polynomial 0x11D. -/
def gfDouble (x : Nat) : Nat := if x < 128 then 2 * x else (2 * x) ^^^ 0x11D

/-- Multiplication in the field. -/
def gfMul (a b : Nat) : Nat :=
  ((upTo 8).foldl (fun (acc : Nat × Nat) i => (if bitAt b i then acc.1 ^^^ acc.2 else acc.1, gfDouble acc.2)) (0, a)).1

/-- α^k. -/
def gfPow : Nat → Nat
  | 0 => 1
  | k + 1 => gfDouble (gfPow k)

/-- A polynomial, highest coefficient first, at a point of the field. -/
def gfEval (x : Nat) (cs : List Nat) : Nat := cs.foldl (fun r c => gfMul r x ^^^ c) 0

/-- The tag byte: POISON in bit 7, the folded granule and burst offset below it. -/
def tagByte (g o : Nat) (poison : Bool) : Nat :=
  (bits g 0 7 ^^^ bits g 7 7 ^^^ bits g 14 7 ^^^ bits g 21 3 ^^^ bits o 5 7) + b2n poison * 128

/-- The three coefficients below x^3 of the generator (x - 1)(x - α)(x - α²). -/
def eccGen : Nat × Nat × Nat :=
  let (a, b, c) := (gfPow 0, gfPow 1, gfPow 2)
  (a ^^^ b ^^^ c, gfMul a b ^^^ gfMul a c ^^^ gfMul b c, gfMul (gfMul a b) c)

/-- The check bytes of 33 symbols: the remainder of their polynomial times x^3. -/
def eccCheck (cs : List Nat) : List Nat :=
  let r := cs.foldl (fun (r : Nat × Nat × Nat) c =>
    let f := c ^^^ r.1
    (r.2.1 ^^^ gfMul f eccGen.1, r.2.2 ^^^ gfMul f eccGen.2.1, gfMul f eccGen.2.2)) (0, 0, 0)
  [r.1, r.2.1, r.2.2]

/-- The codeword of a burst: data bytes, tag byte, check bytes; symbol i is the coefficient of x^(35 - i). -/
def eccWord (data : List Nat) (tag : Nat) : List Nat := (data ++ [tag]) ++ eccCheck (data ++ [tag])

/-- A codeword with errors: each adds a value to a symbol. -/
def withErrors (w : List Nat) (errors : List SymErr) : List Nat :=
  errors.foldl (fun w e => w.modify e.symbol fun x => x ^^^ e.value % 256) w

/-- What a codeword decodes to: the word, and the symbol that was corrected; none with two symbols in error. One symbol is in
error where the three syndromes are successive powers, and its place is the ratio. -/
def eccDecode (w : List Nat) : Option (List Nat × Option Nat) :=
  let s0 := gfEval (gfPow 0) w
  let s1 := gfEval (gfPow 1) w
  let s2 := gfEval (gfPow 2) w
  if s0 = 0 ∧ s1 = 0 ∧ s2 = 0 then some (w, none)
  else if s0 = 0 ∨ s1 = 0 ∨ gfMul s1 s1 ≠ gfMul s0 s2 then none
  else ((upTo 36).find? fun j => gfMul s0 (gfPow j) == s1).map fun j => (w.modify (35 - j) fun x => x ^^^ s0, some (35 - j))

/-- The outcomes of the table Decode outcomes. -/
inductive Decoded where
  | sound
  | corrected (symbol : Nat) (data : List Nat)
  | failed (tag : Bool)         -- two symbols in error, or a tag that does not match
  | poisoned
  deriving DecidableEq, Repr

/-- The outcome of reading a word where the tag byte's low bits are to be `tag`. A word whose POISON is set carries it
forward whether or not a symbol was corrected (log entry 94). -/
def eccOutcome (w : List Nat) (tag : Nat) : Decoded :=
  match eccDecode w with
  | none => .failed false
  | some (d, fixed) =>
    let t := d.getD 32 0
    if t % 128 ≠ tag % 128 then .failed true
    else if 128 ≤ t then .poisoned
    else match fixed with
      | none => .sound
      | some i => .corrected i (d.take 32)

end Sys2Proof.Machine
end

