-- ==== Sys2Proof/Machine/Gcm.lean ====
section
/-!
DEFINITION. AES-256 (FIPS 197) and GCM (SP 800-38D) over the 96-bit nonces and 128-bit tags of the fabric's franking (R265).
-/

namespace Sys2Proof.Machine

/-! ## AES-256 -/

/-- Multiplication by x in the field of AES (polynomial 0x11B). -/
def aesDouble (x : Nat) : Nat := if x < 128 then 2 * x else (2 * x) ^^^ 0x11B

/-- Multiplication in that field. -/
def aesMul (a b : Nat) : Nat :=
  ((upTo 8).foldl (fun (acc : Nat × Nat) i => (if bitAt b i then acc.1 ^^^ acc.2 else acc.1, aesDouble acc.2)) (0, a)).1

/-- Squared `k` times and multiplied on the way: x^(2^(k+1) - 2), which for k = 7 is the inverse, with 0 for 0. -/
def aesInv (x : Nat) : Nat :=
  ((upTo 7).foldl (fun (acc : Nat × Nat) _ => let s := aesMul acc.2 acc.2; (aesMul acc.1 s, s)) (1, x)).1

/-- An S-box entry: the inverse and the affine map. -/
def aesSubOf (x : Nat) : Nat :=
  let v := aesInv x
  let rot (k : Nat) : Nat := (v * 2 ^ k) % 256 ^^^ v / 2 ^ (8 - k)
  v ^^^ rot 1 ^^^ rot 2 ^^^ rot 3 ^^^ rot 4 ^^^ 0x63

/-- The S-box. -/
def aesBox : List Nat := (upTo 256).map aesSubOf
def aesSub (x : Nat) : Nat := aesBox.getD x 0

/-- Byte-wise sum of two blocks or words. -/
def addBytes (a b : List Nat) : List Nat := List.zipWith (· ^^^ ·) a b

/-- The 60 words of a 256-bit key's schedule. -/
def aesWords (key : List Nat) : List (List Nat) :=
  (span 8 52).foldl (fun ws i =>
    let prev := ws.getD (i - 1) []
    let t := if i % 8 = 0 then addBytes ((prev.drop 1 ++ prev.take 1).map aesSub) [aesPow (i / 8 - 1), 0, 0, 0]
      else if i % 8 = 4 then prev.map aesSub else prev
    ws ++ [addBytes (ws.getD (i - 8) []) t]) ((upTo 8).map fun i => (key.drop (4 * i)).take 4)
where
  aesPow : Nat → Nat
    | 0 => 1
    | k + 1 => aesDouble (aesPow k)

/-- The round keys. -/
def aesKeys (key : List Nat) : List (List Nat) :=
  let ws := aesWords key
  (upTo 15).map fun r => ((upTo 4).map fun c => ws.getD (4 * r + c) []).flatten

/-- ShiftRows over a state in column order. -/
def aesShift (s : List Nat) : List Nat := (upTo 16).map fun i => s.getD ((i + 4 * (i % 4)) % 16) 0

/-- MixColumns. -/
def aesMix (s : List Nat) : List Nat :=
  (upTo 16).map fun i =>
    let c := i / 4 * 4
    let b (k : Nat) : Nat := s.getD (c + (i + k) % 4) 0
    aesDouble (b 0) ^^^ aesDouble (b 1) ^^^ b 1 ^^^ b 2 ^^^ b 3

/-- Encrypt one block under the round keys of a 256-bit key. -/
def aesBlock (keys : List (List Nat)) (block : List Nat) : List Nat :=
  let s := (span 1 13).foldl (fun s r => addBytes (aesMix (aesShift (s.map aesSub))) (keys.getD r []))
    (addBytes block (keys.getD 0 []))
  addBytes (aesShift (s.map aesSub)) (keys.getD 14 [])

/-! ## GCM -/

/-- Bytes as numbers, and a big-endian value of them. -/
def byteNats (bs : Bytes) : List Nat := bs.map BitVec.toNat
def beVal (l : List Nat) : Nat := l.foldl (fun a b => a * 256 + b) 0
/-- A value as big-endian bytes. -/
def beNats (n v : Nat) : List Nat := ((upTo n).map fun i => v / 256 ^ i % 256).reverse

/-- Multiplication in GF(2^128) with the leftmost bit the coefficient of 1. -/
def ghashMul (x y : Nat) : Nat :=
  ((upTo 128).foldl (fun (acc : Nat × Nat) i =>
    (if bitAt x (127 - i) then acc.1 ^^^ acc.2 else acc.1,
     if acc.2 % 2 = 1 then acc.2 / 2 ^^^ 0xE1 * 2 ^ 120 else acc.2 / 2)) (0, y)).1

/-- The blocks of a byte string, the last filled up with zeros. -/
def blocks16 (l : List Nat) : List (List Nat) :=
  (upTo ((l.length + 15) / 16)).map fun i =>
    let b := (l.drop (16 * i)).take 16
    b ++ List.replicate (16 - b.length) 0

/-- GHASH of associated data and ciphertext. -/
def ghash (h : Nat) (aad cipher : List Nat) : Nat :=
  let bs := blocks16 aad ++ blocks16 cipher ++ [beNats 8 (8 * aad.length) ++ beNats 8 (8 * cipher.length)]
  bs.foldl (fun y b => ghashMul (y ^^^ beVal b) h) 0

/-- The key stream applied to a text: counter blocks from 2 on. -/
def gcmCtr (keys : List (List Nat)) (nonce text : List Nat) : List Nat :=
  ((blocks16 text).zipIdx.map fun b => addBytes b.1 (aesBlock keys (nonce ++ beNats 4 (b.2 + 2)))).flatten.take text.length

/-- The tag of a ciphertext. -/
def gcmTag (keys : List (List Nat)) (nonce aad cipher : List Nat) : List Nat :=
  addBytes (aesBlock keys (nonce ++ beNats 4 1)) (beNats 16 (ghash (beVal (aesBlock keys (List.replicate 16 0))) aad cipher))

def natBytes (l : List Nat) : Bytes := l.map (BitVec.ofNat 8)

/-- Encrypt and frank: ciphertext and tag. -/
def gcmSeal (key nonce aad plain : Bytes) : Bytes :=
  let keys := aesKeys (byteNats key)
  let c := gcmCtr keys (byteNats nonce) (byteNats plain)
  natBytes (c ++ gcmTag keys (byteNats nonce) (byteNats aad) c)

/-- Check the tag and decrypt: none for a wrong tag. -/
def gcmOpen (key nonce aad sealed : Bytes) : Option Bytes :=
  let keys := aesKeys (byteNats key)
  let c := byteNats (sealed.take (sealed.length - 16))
  if sealed.length < 16 ∨ gcmTag keys (byteNats nonce) (byteNats aad) c ≠ byteNats (sealed.drop (sealed.length - 16)) then none
  else some (natBytes (gcmCtr keys (byteNats nonce) c))

end Sys2Proof.Machine
end

