-- ==== Sys2Proof/Machine/Flags.lean ====
section
/-!
DEFINITION. What an error leaves behind: status bits and error capture (each block's rule), severities and counts
(R408, R409, R431), Survey records with their snapshot and tokens (R434 to R440), ERROR breakpoints (R407).
-/

namespace Sys2Proof.Machine

/-- Is every listed field of the 64-bit register at an address zero? -/
def Node.regZero (n : Node) (addr : Nat) : Bool :=
  n.regs.all fun p => !(decide (addr * 64 ≤ p.1) && decide (p.1 < addr * 64 + 64))

/-- Write several fields of one window. -/
def Node.wrs (n : Node) (base : Nat) (l : List (Fld × Nat)) : Node := forEach l n fun n w => n.wr w.1 base w.2

/-- Set a status bit; the capture fields are written only when the status register was clear. -/
def Node.flag (n : Node) (f : Fld) (base : Nat) (capture : List (Fld × Nat)) : Node :=
  let first := n.regZero (base + f.addr)
  let n := n.wr f base 1
  if first then n.wrs base capture else n

/-- TICK and KIND of an error capture: the present tick and the bit's number. -/
def Node.capTick (n : Node) (tick kind : Fld) (bit : Nat) : List (Fld × Nat) := [(tick, n.time.tick), (kind, bit)]

/-- Arithmetic cycles in a time at an operating point (table Arithmetic clock by operating point), truncated. -/
def cyclesIn (ns op : Nat) : Nat := ns * (match op with | 0 => 170 | 1 => 145 | 2 => 120 | _ => 90) / 100

/-- The arithmetic budget of a tick in cycles at an operating point (R47): (period - 80 ns) × clock, truncated. -/
def budgetAt (period op : Nat) : Nat := cyclesIn (period - 80) op

/-- TICK_BUDGET in force. -/
def Node.budget (n : Node) : Nat := budgetAt n.time.period n.power.op

/-- Is a core fenced for any of its reasons (R114)? -/
def CoreSt.fenced (c : CoreSt) : Bool := c.fenceHost || c.fenceAbft || c.fenceKat

/-- Does a quad's near-memory work run over its cores (R225)? -/
def Node.coreScrub (n : Node) (q : Nat) : Bool := n.nme.ops.any fun p => p.2.quad == q && p.2.byCores && p.2.active

/-- Are a quad's cores parked: Park, wake-up, OFFLINE or a scrub over the core write path (R130, R214, R225, R386)? -/
def Node.quadParked (n : Node) (q : Nat) : Bool :=
  bitAt n.power.parked (quadSheet q) || bitAt n.power.waking (quadSheet q) || (n.quad q).st == .offline ||
    n.coreScrub q

/-- May a core take passes (R130)? -/
def Node.coreUsable (n : Node) (c : Nat) : Bool :=
  !(n.core c).fenced && (n.core c).mode == .normal && !n.quadParked (coreQuad c)

/-- The usable cores of a quad. -/
def Node.usableCores (n : Node) (q : Nat) : List Nat := (quadCores q).filter n.coreUsable

/-! ## Survey records -/

/-- What a record is about. -/
inductive RecScope where
  | core (c : Nat) | quad (q : Nat) | sheet (s : Nat) | port (p lane : Nat) | hub
  deriving DecidableEq, Repr

/-- The hottest quad of a sheet, the lowest number on ties. -/
def Node.hottest (n : Node) (s : Nat) : Nat :=
  (sheetQuads s).foldl (fun a q => if (n.quad a).tempDie < (n.quad q).tempDie then q else a) (4 * s)

/-- Fill a record's scope fields and snapshot (R435). The sheet's VCORE is a measured voltage, a free value. -/
def Node.snap (n : Node) (sc : RecScope) (r : SurvRec) : SurvRec × Node :=
  let withQuad (q : Nat) (r : SurvRec) : SurvRec × Node :=
    let (v, n) := n.fresh
    let s := n.quad q
    let cap := (n.usableCores q).length * n.budget
    ({ r with tempQuad := s.tempDie % 256, tempStack := s.tempStack % 256, vcore := v % 1024, op := n.power.op,
              passes := s.passes % 65536, load := if cap = 0 then 0 else min (s.load * 100 / cap) 255,
              guard := s.guardMv % 256 }, n)
  match sc with
  | .core c => withQuad (coreQuad c) { r with core := c, quad := coreQuad c, sheet := c / 100 }
  | .quad q => withQuad q { r with quad := q, sheet := quadSheet q }
  | .sheet s => withQuad (n.hottest s) { r with sheet := s }
  | .port p lane => withQuad (n.hottest (p / 2)) { r with sheet := p / 2, port := p, lane := lane }
  | .hub => ({ r with op := n.power.op }, n)

/-- Tokens of a class left. -/
def Node.tokens (n : Node) (cls : Nat) : Nat := n.survey.tokens.getD cls 0

/-- Replace one element of a list, filling with a default up to it. -/
def listPut {α : Type} (d : α) : List α → Nat → α → List α
  | [], 0, v => [v]
  | [], i + 1, v => d :: listPut d [] i v
  | _ :: xs, 0, v => v :: xs
  | x :: xs, i + 1, v => x :: listPut d xs i v

/-- A record is dropped: counted with its first and last time (R439). -/
def Node.dropRec (n : Node) (r : SurvRec) : Node :=
  let d := n.survey.drops.getD r.cls default
  let d' : DropSt := { d with count := d.count + 1, last := n.now,
                              first := if d.count = 0 then n.now else d.first,
                              record := if d.count = 0 then r else d.record }
  let n := n.modSurvey fun s => { s with drops := listPut default s.drops r.cls d' }
  let n := n.inc R.SVY_CLASS_CNT_DROPPED (8 * r.cls) 1
  let n := if d.count = 0 then n.wr R.SVY_DROP_FIRST_MER_NS (8 * r.cls) n.now else n
  n.wr R.SVY_DROP_LAST_MER_NS (8 * r.cls) n.now

/-- Form a record at its source (R436, R439, R440): it takes its token, or is dropped. Before the log ring is laid
out HEALTH and TRACE records are dropped (R459), and with the ring lost every record is (R441). An ALARM event sets
ALERT either way. -/
def Node.form (n : Node) (sc : RecScope) (r : SurvRec) : Node :=
  let (r, n) := n.snap sc { r with ns := n.now, tick := n.time.tick }
  let n := if r.cls = 0 then n.wr R.SVY_STATUS_ALERT 0 1 else n
  if n.survey.lost || (!n.survey.laid && decide (2 ≤ r.cls)) then n.dropRec r
  else if n.tokens r.cls = 0 && n.survey.laid then n.dropRec r
  else n.modSurvey fun s =>
    { s with queue := s.queue ++ [r], tokens := listPut 0 s.tokens r.cls (s.tokens.getD r.cls 0 - 1) }

/-- A record of a class about an error of a severity. -/
def mkRec (cls severity source event : Nat) (part : Option Nat) (d0 d1 d2 : Nat) : SurvRec :=
  { (default : SurvRec) with cls := cls, severity := severity, source := source, event := event, part := part,
                             data0 := d0, data1 := d1, data2 := d2 }

/-- Count an error by severity (R408, R431): 1 CORRECTED, 2 DEFERRED, 3 CONTAINED, 4 FATAL. -/
def Node.countSev (n : Node) (sev : Nat) : Node :=
  match sev with
  | 1 => (n.wr R.ERR_STATUS_CORRECTED 0 1).inc R.ERR_CNT_CORRECTED 0 1
  | 2 => (n.wr R.ERR_STATUS_DEFERRED 0 1).inc R.ERR_CNT_DEFERRED 0 1
  | 3 => (n.wr R.ERR_STATUS_CONTAINED 0 1).inc R.ERR_CNT_CONTAINED 0 1
  | 4 => n.inc R.ERR_CNT_FATAL 0 1
  | _ => n

/-- An error of severity CONTAINED or DEFERRED: counted, and a FAULT record written (R436). -/
def Node.faultRec (n : Node) (sc : RecScope) (sev source event : Nat) (part : Option Nat) (d0 d1 d2 : Nat) : Node :=
  (n.countSev sev).form sc (mkRec 1 sev source event part d0 d1 d2)

/-- An ALARM record. -/
def Node.alarmRec (n : Node) (sc : RecScope) (sev source event : Nat) (d0 d1 d2 : Nat) : Node :=
  (n.countSev sev).form sc (mkRec 0 sev source event none d0 d1 d2)

/-- A HEALTH record. -/
def Node.healthRec (n : Node) (sc : RecScope) (source event d0 d1 d2 : Nat) : Node :=
  n.form sc (mkRec 2 0 source event none d0 d1 d2)

/-- Three words the spec does not state: what DATA0 to DATA2 hold for most events (R435, R437). -/
def Node.fresh3 (n : Node) : Nat × Nat × Nat × Node :=
  let (a, n) := n.fresh
  let (b, n) := n.fresh
  let (c, n) := n.fresh
  (a, b, c, n)

/-- A FAULT record whose DATA words the spec does not state. -/
def Node.fault (n : Node) (sc : RecScope) (sev source event : Nat) (part : Option Nat) : Node :=
  let (a, b, c, n) := n.fresh3
  n.faultRec sc sev source event part a b c

/-- An ALARM record whose DATA words the spec does not state. -/
def Node.alarm (n : Node) (sc : RecScope) (sev source event : Nat) : Node :=
  let (a, b, c, n) := n.fresh3
  n.alarmRec sc sev source event a b c

/-- A HEALTH record whose DATA words the spec does not state. -/
def Node.health (n : Node) (sc : RecScope) (source event : Nat) : Node :=
  let (a, b, c, n) := n.fresh3
  n.healthRec sc source event a b c

/-- A TRACE record when SVY_TRACE_CFG selects its kind and the level is DL2 or above (R436, R449). What a trace
record's EVENT and DATA words hold is not stated: free values. -/
def Node.traceRec (n : Node) (sel : Nat) (sc : RecScope) (part : Option Nat) : Node :=
  if bitAt n.survey.trace sel && decide (2 ≤ n.sec.level) then
    let (e, n) := n.fresh
    let (a, n) := n.fresh
    let (b, n) := n.fresh
    let (c, n) := n.fresh
    n.form sc (mkRec 3 0 0x10 (e % 65536) part a b c)
  else n

/-- A threshold record at most once per second for each unit while its condition lasts (R434); `key` names kind and
unit. -/
def Node.oncePerSecond (n : Node) (key : Nat) (f : Node → Node) : Node :=
  let last := mapGet n.survey.warned key
  if last ≠ 0 ∧ n.now < last - 1 + 1000000000 then n
  else f (n.modSurvey fun s => { s with warned := mapSet s.warned key (n.now + 1) })

/-! ## Breakpoints on errors (R407) -/

/-- Is a partition in the halt scope? In OWNED the scope holds only partitions the token names (R384, R402). -/
def Node.inScope (n : Node) (p : Nat) : Bool :=
  (!n.dbg.scopeParts || bitAt n.dbg.partitions p) &&
    (n.sec.st != .owned || n.sec.token.any fun t => bitAt t.partitions p)

/-- Is a partition halted (R404)? -/
def Node.haltedPart (n : Node) (p : Nat) : Bool := n.dbg.halted && n.inScope p

/-- Is a halt wanted already, its cause kept at the highest (R403)? -/
def Node.wantHalt (n : Node) (cause bp : Nat) : Node :=
  n.modDebug fun d => { d with wantHalt := max d.wantHalt cause, wantBp := d.wantBp ||| bp }

/-- An error event of the class mask: every enabled ERROR breakpoint that names it hits. -/
def Node.errorBp (n : Node) (bit : Nat) : Node :=
  if n.sec.level < 3 then n
  else forEach (upTo 8) n fun n k =>
    let b : Bp := mapGet n.dbg.bps k
    if bitAt b.ctl 0 && decide (bits b.ctl 1 3 = 3) && bitAt b.a bit then n.wantHalt 3 (2 ^ k) else n

/-! ## Block errors -/

/-- CORE_ error: status, capture of tick and kind. `bit` is the bit of CORE_ERR_STATUS. -/
def Node.coreErr (n : Node) (c bit : Nat) (more : List (Fld × Nat)) : Node :=
  let f := [R.CORE_ERR_STATUS_ABFT, R.CORE_ERR_STATUS_SPAD_CE, R.CORE_ERR_STATUS_SPAD_UE, R.CORE_ERR_STATUS_CANCEL,
    R.CORE_ERR_STATUS_FOLD_DAMAGE].getD bit R.CORE_ERR_STATUS_ABFT
  n.flag f (coreBase c) (n.capTick R.CORE_ERR_TICK_TICK R.CORE_ERR_TICK_KIND bit ++ more)

/-- SO_ error. -/
def Node.soErr (n : Node) (s bit part quad : Nat) : Node :=
  let f := [R.SO_ERR_STATUS_STAGE_CE, R.SO_ERR_STATUS_STAGE_UE, R.SO_ERR_STATUS_STORE_UE, R.SO_ERR_STATUS_MERGE_UE,
    R.SO_ERR_STATUS_MERGE_CE].getD bit R.SO_ERR_STATUS_STAGE_CE
  n.flag f (sheetBase s) (n.capTick R.SO_ERR_INFO_TICK R.SO_ERR_INFO_KIND bit ++
    [(R.SO_ERR_INFO_PARTITION, part), (R.SO_ERR_INFO_QUAD, quad)])

/-- XL_ error. -/
def Node.xlErr (n : Node) (s bit quad level part granule slotHigh : Nat) : Node :=
  let f := [R.XL_ERR_STATUS_TABLE_UE, R.XL_ERR_STATUS_DIR_UE, R.XL_ERR_STATUS_RC_PARITY, R.XL_ERR_STATUS_DIR_FULL,
    R.XL_ERR_STATUS_ALLOC_FAIL].getD bit R.XL_ERR_STATUS_TABLE_UE
  n.flag f (sheetBase s) (n.capTick R.XL_ERR_INFO_TICK R.XL_ERR_INFO_KIND bit ++
    [(R.XL_ERR_INFO_QUAD, quad), (R.XL_ERR_INFO_LEVEL, level), (R.XL_ERR_INFO_PARTITION, part),
     (R.XL_ERR_ADDR_GRANULE, granule), (R.XL_ERR_ADDR_SLOT_HIGH, slotHigh)])

/-- MIG_ error. -/
def Node.migErr (n : Node) (q bit part seq slot peer : Nat) : Node :=
  let f := [R.MIG_ERR_STATUS_HASH_MISMATCH, R.MIG_ERR_STATUS_TIMEOUT, R.MIG_ERR_STATUS_T2_LOST,
    R.MIG_ERR_STATUS_T3_LOST, R.MIG_ERR_STATUS_T3_POISON, R.MIG_ERR_STATUS_SRC_UE, R.MIG_ERR_STATUS_CANCELLED].getD bit
    R.MIG_ERR_STATUS_TIMEOUT
  n.flag f (quadBase q) (n.capTick R.MIG_ERR_INFO_TICK R.MIG_ERR_INFO_KIND bit ++
    [(R.MIG_ERR_INFO_PARTITION, part), (R.MIG_ERR_SEQ_SEQ, seq), (R.MIG_ERR_SLOT_SLOT, slot),
     (R.MIG_ERR_SLOT_PEER, peer)])

/-- HBM_ error. -/
def Node.hbmErr (n : Node) (q bit pc bank granule offset symbol : Nat) : Node :=
  let f := [R.HBM_ERR_STATUS_CE, R.HBM_ERR_STATUS_UE, R.HBM_ERR_STATUS_ADDR_TAG, R.HBM_ERR_STATUS_RETIRED,
    R.HBM_ERR_STATUS_TRAIN_FAIL, R.HBM_ERR_STATUS_HOT, R.HBM_ERR_STATUS_CRITICAL, R.HBM_ERR_STATUS_RETIRE_FULL].getD bit
    R.HBM_ERR_STATUS_CE
  n.flag f (quadBase q) (n.capTick R.HBM_ERR_INFO_TICK R.HBM_ERR_INFO_KIND bit ++
    [(R.HBM_ERR_INFO_PC, pc), (R.HBM_ERR_INFO_BANK, bank), (R.HBM_ERR_ADDR_GRANULE, granule),
     (R.HBM_ERR_ADDR_OFFSET, offset), (R.HBM_ERR_ADDR_SYMBOL, symbol)])

/-- NME_ error. -/
def Node.nmeErr (n : Node) (q bit part status : Nat) : Node :=
  let f := [R.NME_ERR_STATUS_POISON, R.NME_ERR_STATUS_REMOTE, R.NME_ERR_STATUS_ABORTED].getD bit
    R.NME_ERR_STATUS_POISON
  n.flag f (quadBase q) (n.capTick R.NME_ERR_INFO_TICK R.NME_ERR_INFO_KIND bit ++
    [(R.NME_ERR_INFO_PARTITION, part), (R.NME_ERR_INFO_STATUS, status)])

/-- GZ_ error. -/
def Node.gzErr (n : Node) (s bit index : Nat) : Node :=
  let f := [R.GZ_ERR_STATUS_CONTENT_PE, R.GZ_ERR_STATUS_RULE_CE, R.GZ_ERR_STATUS_RULE_UE, R.GZ_ERR_STATUS_ROUTE_CE,
    R.GZ_ERR_STATUS_ROUTE_UE].getD bit R.GZ_ERR_STATUS_CONTENT_PE
  n.flag f (sheetBase s) (n.capTick R.GZ_ERR_INFO_TICK R.GZ_ERR_INFO_KIND bit ++ [(R.GZ_ERR_INDEX_INDEX, index)])

/-- PORT_ error. -/
def Node.portErr (n : Node) (p bit lane : Nat) : Node :=
  let f := [R.PORT_ERR_STATUS_LANE_FAULT, R.PORT_ERR_STATUS_WIDTH_CHANGED, R.PORT_ERR_STATUS_RETRAIN,
    R.PORT_ERR_STATUS_FAILED, R.PORT_ERR_STATUS_KEY_FAIL, R.PORT_ERR_STATUS_FRANK_BURST, R.PORT_ERR_STATUS_LOCK_SKIP,
    R.PORT_ERR_STATUS_STACK_MISMATCH, R.PORT_ERR_STATUS_CHECK_FAIL].getD bit R.PORT_ERR_STATUS_LANE_FAULT
  n.flag f (portBase p) (n.capTick R.PORT_ERR_INFO_TICK R.PORT_ERR_INFO_KIND bit ++ [(R.PORT_ERR_INFO_LANE, lane)])

/-- CR_ error on a sheet. -/
def Node.crErr (n : Node) (s bit part status qpn peer : Nat) : Node :=
  let f := [R.CR_ERR_STATUS_KEY_FAULT, R.CR_ERR_STATUS_RETRY_LIMIT, R.CR_ERR_STATUS_RNR_LIMIT,
    R.CR_ERR_STATUS_ORDERED_CLOSE, R.CR_ERR_STATUS_CONTEXT_UE, R.CR_ERR_STATUS_PR_UE, R.CR_ERR_STATUS_PROTOCOL].getD bit
    R.CR_ERR_STATUS_PROTOCOL
  n.flag f (sheetBase s) (n.capTick R.CR_ERR_INFO_TICK R.CR_ERR_INFO_KIND bit ++
    [(R.CR_ERR_INFO_PARTITION, part), (R.CR_ERR_INFO_STATUS, status), (R.CR_ERR_QP_QPN, qpn),
     (R.CR_ERR_QP_PEER, peer)])

/-- Raise an MSI-X vector (R318). -/
def Node.raiseVector (n : Node) (v : Nat) : Node := n.modHost fun h => { h with msi := mapMod h.msi v (· + 1) }

/-- HP_ error; setting a bit of HP_ERR_STATUS signals vector 2,047 (R318). -/
def Node.hpErr (n : Node) (bit addr : Nat) : Node :=
  let f := [R.HP_ERR_STATUS_LINK_DOWN, R.HP_ERR_STATUS_MODULE_DOWN, R.HP_ERR_STATUS_HB_MISSED,
    R.HP_ERR_STATUS_HOST_FAILED, R.HP_ERR_STATUS_HDM_HOLE, R.HP_ERR_STATUS_WRITE_DENIED, R.HP_ERR_STATUS_BAD_ACCESS,
    R.HP_ERR_STATUS_REPLY_DROP].getD bit R.HP_ERR_STATUS_LINK_DOWN
  let was := n.rd f 0
  let n := n.flag f 0 (n.capTick R.HP_ERR_INFO_TICK R.HP_ERR_INFO_KIND bit ++ [(R.HP_ERR_ADDR_ADDR, addr)])
  if was = 0 then n.raiseVector 2047 else n

/-- POOL_ error. -/
def Node.poolErr (n : Node) (bit ext : Nat) : Node :=
  let f := [R.POOL_ERR_STATUS_EXPIRED, R.POOL_ERR_STATUS_RENEW_REFUSED, R.POOL_ERR_STATUS_SCRUB_STALLED].getD bit
    R.POOL_ERR_STATUS_EXPIRED
  n.flag f 0 (n.capTick R.POOL_ERR_INFO_TICK R.POOL_ERR_INFO_KIND bit ++ [(R.POOL_ERR_INFO_EXTENT_ID, ext)])

end Sys2Proof.Machine
end

