-- ==== Sys2Proof/Machine/Histo.lean ====
section
/-!
DEFINITION. The Survey's lifetime histograms (R433, R444): counters in the hub's SRAM, kept by their MRAM address, written to
MRAM by a flush (R445).
-/

namespace Sys2Proof.Machine

/-- Addresses of the histogram entries (R444). -/
def histCoreAt (c : Nat) : Nat := 0x690000 + c * 512
def histLaneAt (p lane : Nat) : Nat := 0x6F4000 + (p * 8 + lane) * 256
def histQuadAt (q : Nat) : Nat := 0x6FC000 + q * 512
def histChannelAt (q ch : Nat) : Nat := 0x700000 + (q * 16 + ch) * 1024
def histUcieAt (m : Nat) : Nat := 0x780000 + m * 1024
def histNodeAt : Nat := 0x781000

/-- A little-endian number of the histograms. -/
def Node.histGet (n : Node) (a w : Nat) : Nat := leNat ((upTo w).map fun i => mapGetD 0 n.survey.histo (a + i))
/-- Store one. -/
def Node.histPut (n : Node) (a w v : Nat) : Node :=
  n.modSurvey fun s => { s with histo := hbmPut s.histo a (leBytes w v) }
/-- Count in a saturating counter. -/
def Node.histInc (n : Node) (a w k : Nat) : Node := n.histPut a w (min (n.histGet a w + k) (256 ^ w - 1))
/-- Keep the lowest value ever; 0 stands for none yet (log entry 32). -/
def Node.histMin (n : Node) (a w v : Nat) : Node :=
  let x := n.histGet a w
  if x = 0 ∨ v < x then n.histPut a w v else n
/-- Keep the highest value ever. -/
def Node.histMax (n : Node) (a w v : Nat) : Node := if n.histGet a w < v then n.histPut a w v else n

/-- The bin of a temperature. -/
def tempBin (t : Nat) : Nat :=
  if t < 60 then 0 else if t < 70 then 1 else if t < 80 then 2 else if t < 85 then 3 else if t < 90 then 4
  else if t < 95 then 5 else if t < 100 then 6 else 7

/-- A core event counted by the snapshot of its event: kind 0 ABFT, 1 KAT_FAIL, 2 KAT_PASS. -/
def Node.histCore (n : Node) (c kind : Nat) : Node :=
  let s := n.quad (coreQuad c)
  let cap := (n.usableCores (coreQuad c)).length * n.budget
  let pct := if cap = 0 then 0 else min (s.load * 100 / cap) 100
  let quart := if pct ≤ 25 then 0 else if pct ≤ 50 then 1 else if pct ≤ 75 then 2 else 3
  let n := n.histInc (histCoreAt c + kind * 0x80 + (tempBin s.tempDie * 4 + quart) * 4) 4 1
  n.histInc (histCoreAt c + 0x180 + kind * 0x10 + n.power.op * 4) 4 1

/-- One millisecond of power: residency of the operating point and of the power bin, and the hours powered. -/
def Node.histPower (n : Node) (watts : Nat) : Node :=
  let n := n.histInc (histNodeAt + n.power.op * 8) 8 1
  let n := n.histInc (histNodeAt + 0x20 + min (watts * 16 / n.ident.part.tdp) 15 * 8) 8 1
  let ms := (upTo 4).foldl (fun a i => a + n.histGet (histNodeAt + i * 8) 8) 0
  n.histPut (histNodeAt + 0xB0) 4 (min (ms / 3600000) (2 ^ 32 - 1))

/-- Write bytes to the MRAM. -/
def Node.mramWrite (n : Node) (a : Nat) (bs : Bytes) : Node := n.modMram fun m => { m with bytes := hbmPut m.bytes a bs }

/-- Write the histograms to MRAM (R445). -/
def Node.saveHisto (n : Node) : Node :=
  n.modMram fun m => { m with bytes := n.survey.histo.foldl (fun b p => hbmSet b p.1 p.2) m.bytes }

/-- A flush that is complete at once: every 10 minutes, at Standby entry, before a reset's crash summary (R445). -/
def Node.flushNow (n : Node) : Node := n.saveHisto.wr R.SVY_FLUSH_NS_MER_NS 0 n.now

end Sys2Proof.Machine
end

