-- ==== Sys2Proof/Machine/Pages.lean ====
section
/-!
DEFINITION. Sequences, leaves, table pages, frames and quotas of this node: translation (R173 to R177), placement
(R182, R350), allocation and freeing (R180, R185, R190), page headers, the Gazetteer's content entries (R231 to R235).
-/

namespace Sys2Proof.Machine

/-! ## Leaves and headers -/

/-- The key of a slot of a sequence. -/
def leafKey (seq slot : Nat) : Nat := seq * 2 ^ 32 + slot
def keySeq (k : Nat) : Nat := k / 2 ^ 32
def keySlot (k : Nat) : Nat := k % 2 ^ 32

/-- The key of a frame: quad and first granule. -/
def frameKey (quad g : Nat) : Nat := quad * 2 ^ 24 + g
def frameQuad (f : Nat) : Nat := f / 2 ^ 24
def frameGran (f : Nat) : Nat := f % 2 ^ 24
/-- The HBM address of a frame. -/
def frameAddr (f : Nat) : Nat := granAddr (frameQuad f) (frameGran f)

/-- The STATE codes of a leaf entry (R176). -/
def LeafState.code : LeafState → Nat
  | .none => 0 | .allocated => 1 | .open => 2 | .sealed => 3 | .moving => 4 | .swapped => 5 | .dropped => 6
  | .redirect => 7

def Node.leaf (n : Node) (k : Nat) : Leaf := mapGet n.leaves k
/-- The frame a leaf names. -/
def Leaf.frame (l : Leaf) : Nat := frameKey l.quad l.granule
/-- An open sequence. -/
def Node.seq? (n : Node) (s : Nat) : Option SeqRec := mapFind? n.seqs s
/-- An open sequence whose directory record is readable: any other answers NOT_HOME (R172, R186). -/
def Node.served? (n : Node) (s : Nat) : Option SeqRec := (n.seq? s).filter fun r => !r.dirLost
/-- A sequence open in a partition (R172). -/
def Node.seqIn (n : Node) (s p : Nat) : Option SeqRec := (n.seq? s).filter fun r => r.partition == p
/-- The record of a sequence that a leaf belongs to. -/
def Node.seqRec (n : Node) (s : Nat) : SeqRec := (n.seq? s).getD default
/-- The leaf keys of a sequence, ascending. -/
def Node.seqLeaves (n : Node) (s : Nat) : List Nat := (mapKeys n.leaves).filter fun k => keySeq k == s

/-- The page header in a frame. -/
def Node.hdr (n : Node) (f : Nat) : PageHdr := decPageHdr (n.hbmRead (frameAddr f) 256)
/-- Rewrite the page header whole. -/
def Node.putHdr (n : Node) (f : Nat) (h : PageHdr) : Node := n.hbmStore (frameAddr f) (encPageHdr h)
/-- Change the page header. -/
def Node.modHdr (n : Node) (f : Nat) (g : PageHdr → PageHdr) : Node := n.putHdr f (g (n.hdr f))

/-- The data end of a page from its header (R195). -/
def dataEnd (h : PageHdr) : Nat := frameBytes ((pageFmt h.format).getD ⟨.bf16, false, 0, 64⟩) h.dcode (tokensOf h.tcode) h.bias
/-- Tiles of a page. -/
def tileCount (h : PageHdr) : Nat := ceilDiv (dataEnd h) 8192
/-- Where tile `i` ends. -/
def tileLen (h : PageHdr) (i : Nat) : Nat := min 8192 (dataEnd h - i * 8192)

/-- Does the page whose bytes start at an address hold what its header says? -/
def Node.bytesHashOk (n : Node) (a : Nat) : Bool :=
  let h := decPageHdr (n.hbmRead a 256)
  match pageFmt h.format with
  | none => false
  | some fm => contentHash fm h.dcode (tokensOf h.tcode) h.bias (n.hbmRead a (dataEnd h)) == h.hash

/-- Does a frame hold what its header says? -/
def Node.frameHashOk (n : Node) (f : Nat) : Bool := n.bytesHashOk (frameAddr f)

/-- Is a leaf's page in a T1 frame of this node? -/
def Node.inT1 (n : Node) (l : Leaf) : Bool :=
  match l.st with
  | .allocated | .open | .sealed => true
  | .moving => l.postcode == n.postcode
  | _ => false

/-- The leaves that map a frame (R185). -/
def Node.leavesOf (n : Node) (f : Nat) : List Nat :=
  (n.leaves.filter fun p => n.inT1 p.2 && p.2.frame == f).map Prod.fst

/-! ## Table pages and heat pages (R175, R176, R197) -/

/-- The bytes of a leaf entry. -/
def encLeaf (l : Leaf) : Bytes :=
  leBytes 8 (if l.postcode = 0xFFFFFFFF then l.postcode + l.granule * 2 ^ 32
    else l.postcode + l.quad * 2 ^ 32 + l.granule * 2 ^ 40) ++
  leBytes 8 (l.count + l.epoch * 2 ^ 8 + l.st.code * 2 ^ 24 + b2n l.shared * 2 ^ 27 + b2n l.pinned * 2 ^ 28 +
    b2n l.poisoned * 2 ^ 29 + b2n l.hot * 2 ^ 30)

/-- The key of the table page of a level that serves a slot; level 4 stands for the heat page. -/
def tableKey (level slot : Nat) : Nat :=
  level * 2 ^ 32 + (if level = 4 then slot / 256 else slot / 256 ^ (level + 1))

/-- The frame key of a table page, if it exists. -/
def SeqRec.table (r : SeqRec) (level slot : Nat) : Option Nat :=
  (mapFind? r.tables (tableKey level slot)).map (· - 1)

/-- Is a slot below a lost table page (R186)? -/
def SeqRec.lostSlot (r : SeqRec) (slot : Nat) : Bool := [0, 1, 2, 3].any fun lv => r.lostTables.contains (tableKey lv slot)

/-- Write a slot's leaf entry and heat record into its table and heat pages, when they exist. -/
def Node.syncLeaf (n : Node) (k : Nat) : Node :=
  let l := n.leaf k
  let slot := keySlot k
  let r := n.seqRec (keySeq k)
  let n := match r.table 0 slot with
    | some f => n.hbmWrite (frameAddr f + slot % 256 * 16) (encLeaf l)
    | none => n
  match r.table 4 slot with
  | some f => n.hbmWrite (frameAddr f + slot % 256 * 8) (leBytes 8 (l.heat % 2 ^ 16 + l.lastTick % 2 ^ 48 * 2 ^ 16))
  | none => n

/-- Change a leaf, its entry keeping the epoch it has (heat and counters). -/
def Node.modLeaf (n : Node) (k : Nat) (f : Leaf → Leaf) : Node :=
  { n with leaves := mapMod n.leaves k f }.syncLeaf k

/-- Change a leaf; its EPOCH becomes the map epoch (R176). -/
def Node.setLeaf (n : Node) (k : Nat) (f : Leaf → Leaf) : Node :=
  n.modLeaf k fun l => { f l with epoch := n.chart.epoch }

/-- The route cache loses a slot's entries when its leaf changes (R178). -/
def Node.uncache (n : Node) (k : Nat) : Node :=
  n.modOffice fun o => { o with routeCache := o.routeCache.filter fun e => e.leafKey ≠ k }

/-- Change a leaf and invalidate its cached copies. -/
def Node.changeLeaf (n : Node) (k : Nat) (f : Leaf → Leaf) : Node := (n.setLeaf k f).uncache k

/-- Free a range of granules: RETIRE_PENDING ones become RETIRED (R220). -/
def Node.freeRange (n : Node) (quad g len : Nat) : Node :=
  let pend := (n.quadRuns quad).filter fun r =>
    r.2.cls == .retirePending && decide (r.1 < g + len) && decide (g < r.1 + r.2.len)
  let n := n.setClass quad g len .free 0 0
  forEach pend n fun n r =>
    n.setClass quad (max r.1 g) (min (r.1 + r.2.len) (g + len) - max r.1 g) .retired 0 0

/-- Free one table page of a sequence. -/
def Node.dropTable (n : Node) (seq key : Nat) : Node :=
  let r := n.seqRec seq
  match mapFind? r.tables key with
  | none => n
  | some v =>
    let f := v - 1
    let n := n.freeRange (frameQuad f) (frameGran f) 1
    let n := n.modOffice fun o => { o with walkCache := o.walkCache.filter fun e => !(e.seq == seq && e.table == key) }
    { n with seqs := mapMod n.seqs seq fun r => { r with tables := mapErase r.tables key } }

/-- Is some slot of a range of a sequence held by a leaf entry? -/
def Node.anyLeaf (n : Node) (seq lo len : Nat) : Bool :=
  n.leaves.any fun p => p.2.st != .none && decide (leafKey seq lo ≤ p.1) && decide (p.1 < leafKey seq (lo + len))

/-- Clear the VALID bit of the upper entry that names a table page of a level below the root. -/
def Node.clearUpper (n : Node) (seq level slot : Nat) : Node :=
  match (n.seqRec seq).table (level + 1) slot with
  | none => n
  | some f => n.hbmWrite (frameAddr f + slot / 256 ^ (level + 1) % 256 * 16) (List.replicate 16 0)

/-- Only table pages that hold a valid entry exist, besides the root: drop those a slot's leaf leaves empty, and with
a leaf page its heat page. -/
def Node.pruneTables (n : Node) (k : Nat) : Node :=
  let seq := keySeq k
  let slot := keySlot k
  let level (n : Node) (lv : Nat) : Node :=
    let w := 256 ^ (lv + 1)
    if n.anyLeaf seq (slot / w * w) w then n
    else
      let n := (n.clearUpper seq lv slot).dropTable seq (tableKey lv slot)
      if lv ≠ 0 then n
      else
        let n := n.dropTable seq (tableKey 4 slot)
        { n with leaves := mapKeep (fun k' _ => decide (k' < leafKey seq (slot / w * w)) ||
                                     decide (leafKey seq (slot / w * w + w) ≤ k')) n.leaves }
  level (level (level n 0) 1) 2

/-- A leaf becomes NONE; the slot keeps its heat record while its heat page exists (R197). -/
def Node.clearLeaf (n : Node) (k : Nat) : Node :=
  let n := n.changeLeaf k fun l => { (default : Leaf) with heat := l.heat, lastTick := l.lastTick }
  (n.modLeaf k fun l => { l with epoch := 0 }).pruneTables k

/-! ## The retirement list (R220) -/

/-- Enter a granule in its quad's retirement list and the mirror in MRAM; a full list takes none: RETIRE_FULL and an ALARM. -/
def Node.listRetired (n : Node) (q g : Nat) : Option Node :=
  if 16384 ≤ (n.quad q).retired.length then none
  else
    let n := n.modQuad q fun x => { x with retired := insNat g x.retired }
    some (n.modMram fun m => { m with mirror := m.mirror ++ [(q, g)] })

/-- A granule leaves use: RETIRED, or RETIRE_PENDING while its owner keeps it; it stays as it is when the list is full. -/
def Node.retireOne (n : Node) (q g : Nat) (pending : Bool) (owner kind : Nat) : Node :=
  match n.listRetired q g with
  | some n => ((n.setClass q g 1 (if pending then .retirePending else .retired) owner kind).hbmErr q 3 0 0 g 0 0).fault (.quad q) 0 0x05 3
      none
  | none => (n.hbmErr q 7 0 0 g 0 0).alarm (.quad q) 0 0x05 7

/-! ## Quotas (R190) -/

/-- Does a run count as T1 use: frames, table pages, heat pages and hosted T2 stores? -/
def GRun.inT1 (r : GRun) : Bool :=
  match r.cls with
  | .frame => true
  | .system => r.kind == 1 || r.kind == 2 || r.kind == 4
  | .retirePending => r.kind == 1 || r.kind == 2 || r.kind == 4 || (r.kind == 0 && r.owner != 0)
  | _ => false

/-- T1 granules in use on a quad. -/
def Node.t1OnQuad (n : Node) (q : Nat) : Nat :=
  ((n.quadRuns q).filter fun r => r.2.inT1).foldl (fun a r => a + r.2.len) 0

/-- T1 granules a partition uses. -/
def Node.t1Used (n : Node) (p : Nat) : Nat := (n.partQuads p).foldl (fun a q => a + n.t1OnQuad q) 0

/-- The TIER quotas of a partition: T0, T1, T2 in granules, T3 in bytes (chart section 0x09). -/
def Node.tierQuota (n : Node) (p tier : Nat) : Nat := n.cw 9 1 p tier 0

/-- Granules a partition holds in its T2 stores. -/
def Node.t2Used (n : Node) (p : Nat) : Nat :=
  (n.mig.low.filter fun l => l.partition == p && l.store != 2 ^ 16).foldl (fun a l => a + l.len) 0

/-- Granules a partition holds in the T3 window. -/
def Node.t3Used (n : Node) (p : Nat) : Nat :=
  (n.mig.low.filter fun l => l.partition == p && l.store == 2 ^ 16).foldl (fun a l => a + l.len) 0

/-! ## Placement (R182, R350) -/

/-- A placement-list postcode after the substitution table in force. -/
def substIn (comp : List ChartSec) (pc : Nat) : Nat :=
  match (compRecs comp 7 5).find? fun r => r.words.getD 0 0 == pc with
  | some r => r.words.getD 1 0
  | none => pc

/-- The postcode the placement function names for a slot. -/
def Node.placePc (n : Node) (r : SeqRec) (slot : Nat) : Nat :=
  substIn n.chart.comp (r.list.getD (r.desc.placeIndex slot) 0)

/-- The quad the placement function names on this node; none where the partition has no page-role quad here. -/
def Node.placeQuad (n : Node) (r : SeqRec) (slot : Nat) : Option Nat :=
  let qs := n.pageQuads r.partition
  if qs = [] then none else qs[r.desc.slotOrd slot / 2 ^ r.desc.localLog2 % qs.length]?

/-- Where the home of a slot is (R177): here with a leaf, here without a frame, at another node, or here on a node
that cannot hold it. -/
inductive Home where
  | leaf (l : Leaf) | fresh | away (pc : Nat) | nowhere
  deriving DecidableEq, Repr

/-- The home of a slot of an open sequence. -/
def Node.home (n : Node) (r : SeqRec) (slot : Nat) : Home :=
  let l := n.leaf (leafKey r.desc.seq slot)
  if l.st ≠ .none then .leaf l
  else
    let pc := n.placePc r slot
    if pc ≠ n.postcode then .away pc
    else match n.placeQuad r slot with
      | some _ => .fresh
      | none => .nowhere

/-! ## Allocation (R170, R180, R181) -/

/-- The levels of a slot's path that do not exist yet, from the top, with the heat page (level 4). -/
def SeqRec.missing (r : SeqRec) (slot : Nat) : List Nat := [2, 1, 0, 4].filter fun lv => (r.table lv slot).isNone

/-- One table page: the lowest free granule of the partition's lowest-numbered quad that has one. -/
def Node.tableSpot (n : Node) (p : Nat) : Option (Nat × Nat) :=
  ((n.partQuads p).filter fun q => (n.quad q).st == .assigned).findSome? fun q =>
    (n.findFree q 1).map fun g => (q, g)

/-- Make one table or heat page and enter it in the level above. -/
def Node.addTable (n : Node) (seq p level slot : Nat) : Option Node :=
  match n.tableSpot p with
  | none => none
  | some (q, g) =>
    let n := (n.setClass q g 1 .system seq (if level = 4 then 2 else 1)).hbmZero (granAddr q g) 4096
    let n := { n with seqs := mapMod n.seqs seq fun r =>
                 { r with tables := mapInsert r.tables (tableKey level slot) (frameKey q g + 1) } }
    some (if 2 < level then n
      else match (n.seqRec seq).table (level + 1) slot with
        | none => n
        | some f => n.hbmWrite (frameAddr f + slot / 256 ^ (level + 1) % 256 * 16)
            (leBytes 8 (q + g * 2 ^ 5 + 2 ^ 63) ++ leBytes 8 0))

/-- Make the missing table pages of a slot. -/
def Node.addPath (n : Node) (seq p slot : Nat) : List Nat → Option Node
  | [] => some n
  | lv :: rest => (n.addTable seq p lv slot).bind fun n => n.addPath seq p slot rest

/-- The place of a frame of `G` granules: the quad R182 names, else the partition's other page-role quads in
ascending number (R180). -/
def Node.frameSpot (n : Node) (p quad G : Nat) : Option (Nat × Nat) :=
  let qs := (quad :: (n.pageQuads p).filter (· ≠ quad)).filter fun q => (n.quad q).st == .assigned
  qs.findSome? fun q => (n.findFree q G).map fun g => (q, g)

/-- Set a fresh frame up: its class, its header, zeros in the bias area and the padding before it (R170). -/
def Node.initFrame (n : Node) (d : SeqDesc) (slot quad g : Nat) : Node :=
  let G := d.granules
  let n := n.setClass quad g G .frame d.seq 0
  let n := n.putHdr (frameKey quad g) (freshHdr d slot)
  let e := rowsEnd d.fmt d.dcode d.p
  n.hbmStore (granAddr quad g + e) (List.replicate (frameBytes d.fmt d.dcode d.p d.bias - e) 0)

/-- Allocate a frame and the missing table pages for a slot, on the named quad first; nothing changes when the quota
or the space is lacking. The table pages are placed first (log entry 21). -/
def Node.allocFrame (n : Node) (r : SeqRec) (slot quad : Nat) : Option (Nat × Node) :=
  let p := r.partition
  let miss := r.missing slot
  if n.tierQuota p 1 < n.t1Used p + r.desc.granules + miss.length then none
  else (n.addPath r.desc.seq p slot miss).bind fun n =>
    (n.frameSpot p quad r.desc.granules).map fun (q, g) => (frameKey q g, n.initFrame r.desc slot q g)

/-- XL_ERR_STATUS.ALLOC_FAIL on the sheet of the quad the placement names. -/
def Node.allocFailed (n : Node) (r : SeqRec) (slot : Nat) : Node :=
  let q := (n.placeQuad r slot).getD 0
  n.xlErr (quadSheet q) 4 q 0 r.partition 0 (slot % 2 ^ 32)

/-- Give a slot a fresh frame: leaf ALLOCATED (R179). -/
def Node.allocPage (n : Node) (r : SeqRec) (slot : Nat) : Option Node :=
  match n.placeQuad r slot with
  | none => none
  | some quad => (n.allocFrame r slot quad).map fun (f, n) =>
      n.changeLeaf (leafKey r.desc.seq slot) fun l =>
        { l with st := .allocated, postcode := n.postcode, quad := frameQuad f, granule := frameGran f,
                 count := r.desc.granules, shared := false, pinned := false, poisoned := false }

/-! ## Tier-0 copies and staged copies of a frame -/

/-- Drop a page's tier-0 copies (R139). -/
def Node.dropT0 (n : Node) (f : Nat) : Node :=
  match mapFind? n.office.t0 f with
  | none => n
  | some t =>
    let n := n.modOffice fun o => { o with t0 := mapErase o.t0 f }
    let n := forEach t.cores n fun n c => n.modCore c fun x => { x with t0 := mapErase x.t0 f }
    n.inc R.SO_T0_CNT_DROPPED (sheetBase (quadSheet (frameQuad f))) t.cores.length

/-- Release a frame's staged copy. -/
def Node.unstage (n : Node) (f : Nat) : Node := n.modOffice fun o => { o with staged := mapErase o.staged f }

/-! ## The content section (R231 to R235) -/

/-- HKEY of a page header (R231). -/
def hkeyOf (h : PageHdr) : Nat :=
  leNat ((sha256 (leBytes 4 h.modelId ++ leBytes 2 h.layer ++ leBytes 2 h.kvHead ++ leBytes 32 h.prefixHash)).take 16)

/-- BASE and SETS of a partition on a sheet (R232). -/
def Node.gzBase (n : Node) (sheet p : Nat) : Nat := n.cw 9 4 (sheet * 32 + p) 0 0
def Node.gzSets (n : Node) (sheet p : Nat) : Nat := n.cw 9 4 (sheet * 32 + p) 1 0

/-- The entries of a set: way and entry. -/
def SliceSt.ways (s : SliceSt) (set : Nat) : List (Nat × Content) :=
  (s.content.filter fun e => e.1 / 16 == set).map fun e => (e.1 % 16, e.2)

/-! ### Slots (R228, R229): 16 a cycle, an update taking one of at most four for 4 cycles -/

/-- Time in sixths of a ns. -/
def Node.now6 (n : Node) : Nat := 6 * n.now

/-- Update slots in use. -/
def Node.updating (n : Node) (sheet : Nat) : Nat := ((n.gzSlice sheet).updates.filter fun e => decide (n.now6 < e)).length

/-- Run `k` updates that do not wait for one another: each takes the slot that comes free first. -/
def Node.gzUpdates (n : Node) (sheet k : Nat) : Node :=
  let run (us : List Nat) : List Nat :=
    (sortOn id (padNat 4 us)).zipIdx.map fun u => max u.1 n.now6 + 20 * ((k + 3 - u.2) / 4)
  (n.modSlice sheet fun s => { s with updates := run s.updates }).inc R.GZ_STEAL_CNT_STOLEN (sheetBase sheet) (4 * k)

/-- Run `k` updates one after the other in one slot; the time they end. -/
def Node.gzChain (n : Node) (sheet k : Nat) : Nat × Node :=
  match sortOn id (padNat 4 (n.gzSlice sheet).updates) with
  | [] => (n.now6, n)
  | u :: us =>
    let e := max u n.now6 + 20 * k
    (e, (n.modSlice sheet fun s => { s with updates := e :: us }).inc R.GZ_STEAL_CNT_STOLEN (sheetBase sheet) (4 * k))

/-- A lookup enters the first slot free; a wait is counted (R229). -/
def Node.gzLookup (n : Node) (sheet : Nat) : Node :=
  let s := n.gzSlice sheet
  let c := n.now6 / 5
  let (cyc, used) := if s.lookAt < c ∨ c + 4 < s.lookAt then (c, 0) else (s.lookAt, s.lookIn)
  let (cyc, used) := if used + n.updating sheet < 16 then (cyc, used + 1) else (cyc + 1, 1)
  let n := n.modSlice sheet fun s => { s with lookAt := cyc, lookIn := used }
  if cyc = c then n
  else
    let b := sheetBase sheet
    (n.inc R.GZ_STEAL_CNT_DELAYED b 1).wr R.GZ_STEAL_CNT_DELAY_MAX b (max (n.rd R.GZ_STEAL_CNT_DELAY_MAX b) (min 4 (cyc - c)))

/-- Remove every content entry a test names on a slice, counting the removals. -/
def Node.gzDrop (n : Node) (sheet : Nat) (t : Content → Bool) : Node :=
  let k := ((n.gzSlice sheet).content.filter fun e => t e.2).length
  if k = 0 then n
  else ((n.modSlice sheet fun s => { s with content := mapKeep (fun _ e => !t e) s.content }).gzUpdates sheet k).inc
    R.GZ_CONTENT_UPD_REMOVES (sheetBase sheet) k

/-- Remove the entry of a frame. -/
def Node.gzDropFrame (n : Node) (f : Nat) : Node :=
  n.gzDrop (quadSheet (frameQuad f)) fun e => e.quad == frameQuad f && e.granule == frameGran f

/-- Remove a frame's entry and clear SHARED on every leaf that maps it (R235). -/
def Node.unshare (n : Node) (f : Nat) : Node :=
  forEach (n.leavesOf f) (n.gzDropFrame f) fun n k =>
    if (n.leaf k).shared then n.changeLeaf k fun l => { l with shared := false } else n

/-- Insert an entry in the lowest invalid way of its set; none when there is no room (R232, R235). -/
def Node.gzInsert (n : Node) (sheet p gen hkey f : Nat) : Option Node :=
  let sets := n.gzSets sheet p
  if sets = 0 then none
  else
    let set := n.gzBase sheet p + hkey % 2 ^ 64 % sets
    let used := ((n.gzSlice sheet).ways set).map Prod.fst
    match (upTo 16).find? fun w => !used.contains w with
    | none => none
    | some w =>
      let e : Content := ⟨hkey, p, gen % 2048, frameQuad f, frameGran f, true⟩
      some (((n.modSlice sheet fun s => { s with content := mapInsert s.content (set * 16 + w) e }).gzUpdates sheet 1).inc
        R.GZ_CONTENT_UPD_INSERTS (sheetBase sheet) 1)

/-- The hits of a key: sheet and entry of every slice that holds page-role quads of the partition, lowest sheet first
(R233). -/
def Node.gzHits (n : Node) (p hkey : Nat) : List (Nat × Nat × Content) :=
  let gen := (n.part p).gen % 2048
  (n.sheetList.filter fun s => (n.pageQuads p).any fun q => quadSheet q == s).filterMap fun s =>
    let sets := n.gzSets s p
    if sets = 0 then none
    else
      let set := n.gzBase s p + hkey % 2 ^ 64 % sets
      (((n.gzSlice s).ways set).find? fun e =>
        e.2.hkey == hkey && e.2.partition == p && e.2.gen == gen).map fun e => (s, set * 16 + e.1, e.2)

/-! ## Freeing -/

/-- Free a frame of `G` granules: its entry, copies and granules go. -/
def Node.freeFrame (n : Node) (f G : Nat) : Node :=
  ((((n.gzDropFrame f).dropT0 f).unstage f).freeRange (frameQuad f) (frameGran f) G)

/-- One sequence stops mapping a frame: REFS falls by one, and at 0 the frame is freed (R185). -/
def Node.unmap (n : Node) (f G : Nat) : Node :=
  if 1 < (n.hdr f).refs then n.modHdr f fun h => { h with refs := h.refs - 1 } else n.freeFrame f G

/-- Release the T2 or T3 space of a slot. -/
def Node.freeLow (n : Node) (k : Nat) : Node :=
  n.modMig fun m => { m with low := m.low.filter fun l => l.leafKey ≠ k }

/-- Take a page that is not MOVING off its slot (PAGE_FREE and SEQ_CLOSE columns of R179). -/
def Node.releaseLeaf (n : Node) (k : Nat) : Node :=
  let l := n.leaf k
  let n := match l.st with
    | .allocated | .open | .sealed => n.unmap l.frame l.count
    | .swapped => (n.freeLow k).modOffice fun o => { o with staged := mapErase o.staged (2 ^ 40 + k) }
    | _ => n
  if l.st = .none then n else n.clearLeaf k

/-- Does some leaf map a page that a run of granules belongs to? -/
def Node.mapped (n : Node) (quad g len : Nat) : Bool :=
  n.leaves.any fun p => n.inT1 p.2 && p.2.quad == quad && decide (p.2.granule < g + len) && decide (g < p.2.granule + p.2.count)

/-- Free every granule that the quads' maps still give to a sequence's handle (R186); a frame that other sequences map
stays (R185). -/
def Node.freeByHandle (n : Node) (seq : Nat) : Node :=
  forEach (n.granules.filter fun p => p.2.owner == seq && p.2.kind ≤ 2 &&
      (p.2.cls == .frame || p.2.cls == .system || p.2.cls == .retirePending) &&
      !n.mapped (p.1 / 2 ^ 24) (p.1 % 2 ^ 24) p.2.len) n fun n p =>
    if p.2.cls == .frame then n.freeFrame p.1 p.2.len else n.freeRange (p.1 / 2 ^ 24) (p.1 % 2 ^ 24) p.2.len

/-- Remove a sequence whose leaves are gone: table pages, directory record. -/
def Node.dropSeq (n : Node) (seq : Nat) : Node :=
  let n := { n with leaves := mapKeep (fun k _ => keySeq k != seq) n.leaves }
  let n := forEach (mapKeys (n.seqRec seq).tables) n fun n k => n.dropTable seq k
  let n := n.freeByHandle seq
  { n with seqs := mapErase n.seqs seq }

/-! ## Poison on pages (R116, R160, R196, R217) -/

/-- A page is poisoned: POISONED on every leaf that maps it, its content entry removed, its tier-0 copies dropped. -/
def Node.poisonPage (n : Node) (f : Nat) : Node :=
  let ks := n.leavesOf f
  let n := n.unshare f
  forEach ks n fun n k => n.changeLeaf k fun l => { l with poisoned := true }

/-! ## Opening (R172, R174, R183) -/

/-- Does some failure-domain label occur too often in a placement list (R183)? -/
def Node.fdBreach (n : Node) (list : List Nat) : Bool :=
  let lim := n.cw 7 4 0xFFFF 0 64 * list.length / 256
  let labels := compRecs n.chart.comp 7 3
  let label (kind pc : Nat) : Nat :=
    match labels.find? fun r => r.words.getD 0 0 == pc with
    | some r => r.words.getD (1 + kind) 0 * 2
    | none => pc * 2 + 1
  (upTo 4).any fun kind =>
    let ls := list.map (label kind)
    ls.any fun x => decide (lim < (ls.filter (· == x)).length)

/-- A fold table as its record lays it out. -/
def decFoldTable (ws : List Nat) : FoldTable :=
  ⟨bits (ws.getD 0 0) 6 2, bits (ws.getD 0 0) 32 32,
    (upTo 16).map fun i => bits (ws.getD (1 + i / 8) 0) (8 * (i % 8)) 8⟩

/-- The fold table of an id in force. -/
def Node.foldTable (n : Node) (id : Nat) : Option FoldTable := (n.foldTableRec id).map fun r => decFoldTable r.words

/-- The fold table a page format needs, an empty one for an unfolded format. -/
def Node.foldTableD (n : Node) (id : Nat) : FoldTable := (n.foldTable id).getD ⟨0, 0, []⟩

/-- The fold table a partition may use for a format: present, of the format's mode, naming the partition (R151,
R157). -/
def Node.foldOk (n : Node) (format id p : Nat) : Bool :=
  match pageFmt format with
  | none => true
  | some f =>
    f.fold == 0 || (n.ident.part.fold && match n.foldTableRec id with
      | none => false
      | some r => bits (r.words.getD 0 0) 6 2 == (if f.fold == 4 then 1 else 2) && bitAt (r.words.getD 0 0) (32 + p))

/-- Records the sequence directory has room for (R174). -/
def Node.seqLimit (n : Node) : Nat := n.cw 14 2 0xFFFF 0 262144

/-- The first failing check of SEQ_OPEN: status and detail (R172). -/
def Node.seqOpenCheck (n : Node) (p : Nat) (bs : Bytes) (list : List Nat) : Option (Nat × Nat) :=
  let d := decSeqDesc bs
  let shapes := n.cw 4 2 p 0 0
  let recipes := n.cw 3 1 p 0 0
  let range := if d.rangeLog2 = 0 then n.cw 14 2 0xFFFF 1 40 else d.rangeLog2
  let known := (pageFmt d.format).isSome
  if (known && !bitAt (n.cw 4 1 p 0 0) d.format) || (known && !n.foldOk d.format d.foldTable p) ||
      (decide (d.tcode ≤ 2) && !bitAt shapes (8 + d.tcode)) || (decide (d.dcode ≤ 5) && !bitAt shapes d.dcode) ||
      (decide (d.dcode ≤ 5) && (recipes &&& (if d.dcode = 5 then 0x22 else 0x3D)) == 0) then some (stUnsupported, 0)
  else if !known || seqDescRsv bs || ((pageFmt d.format).any fun f => f.fold == 0 && d.foldTable != 0) ||
      (!d.position && d.blockLog2 != 0) ||
      d.tcode == 3 || decide (5 < d.dcode) || d.seq == 0 || list.contains 0xFFFFFFFF ||
      (decide (0 < d.listCount) && decide (d.listCount ≤ 4096) && n.fdBreach list) then some (stBadFormat, 0)
  else if d.layers = 0 ∨ d.kvHeads = 0 ∨ 2 ^ (range - 16) < d.layers * d.kvHeads * 2 ^ d.spanLog2 ∨
      2 ^ 32 < d.p * 2 ^ d.spanLog2 ∨ d.ordLimit = 0 ∨ 2 ^ d.spanLog2 < d.ordLimit ∨ 16 < d.blockLog2 ∨
      12 < d.localLog2 ∨ 24 < d.spanLog2 ∨ range < 36 ∨ 44 < range ∨ d.listCount = 0 ∨ 4096 < d.listCount ∨
      d.listCount ≤ d.skew ∨ list.length < d.listCount then some (stBadLength, 0)
  else if (n.seq? d.seq).isSome then some (stBadState, 1)
  else if n.seqLimit ≤ n.seqs.length ∨ n.tierQuota p 1 < n.t1Used p + 1 then some (stNoQuota, 0)
  else none

/-- The first free record of the directory from `at'` on, round the table (DESIGN CHOICE, log entry 92). -/
def dirProbe (used : List Nat) (limit : Nat) : Nat → Nat → Nat
  | 0, at' => at'
  | fuel + 1, at' => if used.contains at' then dirProbe used limit fuel ((at' + 1) % limit) else at'

/-- The record a new sequence takes in the directory. -/
def Node.dirPlace (n : Node) (seq : Nat) : Nat :=
  dirProbe (n.seqs.map fun s => s.2.place) n.seqLimit n.seqs.length (Config.dirSlot seq % n.seqLimit)

/-- The HBM address of a directory record of 64 B, where the layout has set the directory out (R174, R457). -/
def Node.dirAddr (n : Node) (r : SeqRec) : Option Nat :=
  (n.granules.find? fun p => p.2.cls == .system && p.2.kind == 3).map fun p => granAddr (p.1 / 2 ^ 24) (p.1 % 2 ^ 24) + 64 * r.place

/-- SEQ_OPEN at its boundary: the directory record and the root table page (R172, R174, R175). -/
def Node.seqOpenAt (n : Node) (p : Nat) (bs listBytes : Bytes) : (Nat × Nat) × Node :=
  let d := decSeqDesc bs
  let list := (upTo (min d.listCount (listBytes.length / 4))).map fun i => leAt listBytes (4 * i) 4
  match n.seqOpenCheck p bs list with
  | some e =>
    (e, if e.1 = stNoQuota ∧ n.seqLimit ≤ n.seqs.length then n.xlErr 0 3 0 4 p 0 0
        else n)
  | none =>
    let r : SeqRec := ⟨d, p, list, [], n.dirPlace d.seq, [], false⟩
    match ({ n with seqs := mapSet n.seqs d.seq r }).addTable d.seq p 3 0 with
    | none => ((stNoQuota, 0), n)
    | some n => ((stDone, 0), n)

end Sys2Proof.Machine
end

