-- ==== Sys2Proof/Machine/Keys.lean ====
section
/-!
DEFINITION. Memory keys (R279 to R283): looking one up, check 4 of R281, the KEY of a letter and of a KEYED mask.
-/

namespace Sys2Proof.Machine

/-- INDEX, GEN and SECRET of a key value. -/
def keyIndex (k : Nat) : Nat := k % 2 ^ 24
def keyGen (k : Nat) : Nat := k / 2 ^ 24 % 256
def keySecretOf (k : Nat) : Nat := k / 2 ^ 32 % 2 ^ 32

/-- The rights of a key by bit. -/
def rtRead : Nat := 0
def rtWrite : Nat := 1
def rtAtomic : Nat := 2
def rtAttend : Nat := 3
def rtAppend : Nat := 4

/-- The entry of a key's index. -/
def Node.keyEnt (n : Node) (k : Nat) : KeyEnt := mapGet n.courier.keys (keyIndex k)

/-- Does a postcode match a prefix of `len` high-order bits? -/
def srcOk (pre len src : Nat) : Bool := decide (len = 0) || pre / 2 ^ (32 - len) == src / 2 ^ (32 - len)

/-- Check 4 of R281 without the partition and the region: VALID, GEN, SECRET, source prefix, rights. -/
def KeyEnt.admits (e : KeyEnt) (k src : Nat) (rights : List Nat) : Bool :=
  e.valid && e.gen == keyGen k && e.secret == keySecretOf k && srcOk e.srcPrefix e.srcLen src &&
    rights.all fun r => bitAt e.rights r

/-- The partition that owns a key's index, if it is registered. -/
def Node.keyOwner (n : Node) (k : Nat) : Option Nat :=
  if (n.keyEnt k).valid then some (n.keyEnt k).partition else none

/-- The KEY check of a letter (R283). -/
def Node.letterKeyOk (n : Node) (l : Letter) (src : Nat) : Bool :=
  let e := n.keyEnt l.key
  e.admits l.key src ((if l.kind ≠ 2 ∧ 0 < l.qcount then [rtAttend] else []) ++
      (if 0 < l.appendCount then [rtAppend] else [])) &&
    e.kind == 1 && e.base == l.seq

/-- The bytes of mask each ordinal takes. -/
def Letter.maskStride (l : Letter) (p : Nat) : Nat := l.qcount * (p / 8)

/-- Is a covered ordinal inside the mask's range? -/
def Letter.masked (l : Letter) (o : Nat) : Bool :=
  l.maskKind != 0 && decide (l.maskFirst ≤ o) && decide (o < l.maskFirst + l.maskCount)

/-- The key check of a KEYED mask over the bytes this node reads for some ordinals (R62, R283). -/
def Node.maskKeyOk (n : Node) (l : Letter) (src owner p : Nat) (ords : List Nat) : Bool :=
  if l.maskKind ≠ 2 then true
  else
    let e := n.keyEnt l.maskKey
    e.admits l.maskKey src [rtRead] && e.kind == 0 && e.partition == owner && !e.withdrawn &&
      (ords.filter l.masked).all fun o => decide (l.maskOffset + (o - l.maskFirst + 1) * l.maskStride p ≤ e.size)

/-- Where an ordinal's KEYED mask bits lie in HBM. -/
def Node.maskAddr (n : Node) (l : Letter) (p o : Nat) : Nat :=
  (n.keyEnt l.maskKey).base + l.maskOffset + (o - l.maskFirst) * l.maskStride p

end Sys2Proof.Machine
end

