-- ==== Sys2Proof/Machine/Packets.lean ====
section
/-!
DEFINITION. Sending Opward packets: route lookup (R240, R241, R261), the egress queues (R256, R257, R363), drops and
dead-letter notices (R52, R263, R264). A packet the route index delivers to this node waits in `loop`.
-/

namespace Sys2Proof.Machine

/-! Payload types (R252). -/
def ptLetter : Nat := 1
def ptReply : Nat := 2
def ptCourier : Nat := 3
def ptDeadLetter : Nat := 4
def ptTime : Nat := 5
def ptAbort : Nat := 6
def ptAlarm : Nat := 7
def ptHold : Nat := 8

/-- Is a class allowed for a payload type (R252): 0 CONTROL, 1 EXPRESS, 2 FIRST, 3 PARCEL? -/
def classOk (ptype cls : Nat) : Bool :=
  match ptype with
  | 1 | 2 | 4 => cls == 1
  | 3 => cls == 2 || cls == 3
  | 5 | 6 | 7 | 8 => cls == 0
  | _ => false

/-- Does the loss of a packet earn a dead-letter notice (table Payload types)? -/
def noticeDue (p : Packet) : Bool := p.ptype == 1 || p.ptype == 2 || (p.ptype == 3 && p.cls == 2)

/-- What the route index answers. -/
inductive Route where
  | forward (ports : List Nat) | deliver | miss
  deriving DecidableEq, Repr

/-- Does a route entry match a postcode? -/
def routeMatch (value len dst : Nat) : Bool := value / 2 ^ (32 - len) == dst / 2 ^ (32 - len)

/-- Longest prefix wins, ties go to the lower index (R241). -/
def routeBest (dst : Nat) : List (Nat × Nat × Nat × List Nat) → Option (Nat × Nat × List Nat) →
    Option (Nat × Nat × List Nat)
  | [], best => best
  | (v, len, kind, ports) :: rest, best =>
    let better : Bool := match best with
      | none => true
      | some b => decide (b.1 < len)
    routeBest dst rest (if routeMatch v len dst && better then some (len, kind, ports) else best)

/-- Look a postcode up in a sheet's route index. -/
def Node.route (n : Node) (sheet dst : Nat) : Route :=
  match routeBest dst (n.gzSlice sheet).routes none with
  | some (_, 0, ports) => .forward ports
  | some (_, 1, _) => .deliver
  | _ => .miss

/-- Is a port in switched mode? -/
def Node.switched (n : Node) (p : Nat) : Bool := n.cw 10 1 p 0 0 == 2
/-- The ports the chart puts into a lock group that can be locked: those of native mode (R259). -/
def Node.lockable (n : Node) (g : Nat) : List Nat :=
  n.portList.filter fun p => n.cw 10 1 p 2 0 == g && !n.switched p
/-- The lock group of a port, 0 for none: a group of two to four native ports (R248, R259, log entry 99). -/
def Node.lockGroup (n : Node) (p : Nat) : Nat :=
  let g := n.cw 10 1 p 2 0
  let ms := n.lockable g
  if ms.contains p ∧ 2 ≤ ms.length ∧ ms.length ≤ 4 then g else 0
def Node.lockMember (n : Node) (p : Nat) : Nat := n.cw 10 1 p 3 0
/-- The ports of a lock in member order. -/
def Node.lockPorts (n : Node) (g : Nat) : List Nat :=
  sortOn n.lockMember (n.portList.filter fun p => n.lockGroup p == g && g != 0)
/-- Does a port carry data frames? -/
def Node.portUp (n : Node) (p : Nat) : Bool := (n.port p).st == .up
/-- Is a member striped over (R55, R248)? -/
def Node.memberIn (n : Node) (p : Nat) : Bool := n.portUp p && !(mapGet n.time.ports p).outOfLock
/-- A port counts as UP; a locked port while any of its members is (R261). -/
def Node.pathUp (n : Node) (p : Nat) : Bool :=
  if n.lockGroup p = 0 then n.portUp p else (n.lockPorts (n.lockGroup p)).any n.portUp

/-- The egress of a forward entry: PORTS[(e + j) mod PORT_COUNT] for the smallest j whose port is UP (R241, R261). -/
def Node.egress (n : Node) (ports : List Nat) (e : Nat) : Option Nat :=
  let c := ports.length
  (((upTo c).map fun j => ports.getD ((e + j) % c) 0).find? n.pathUp)

/-- Put a packet at the end of a port's egress queue of its class; `group` is what R363 arbitrates it for, 32 the
transit group, `came` the HOPS it came with, and `holds` the ingress port whose buffer it occupies. -/
def Node.queueFrom (n : Node) (port : Nat) (p : Packet) (group came : Nat) (holds : Option Nat) : Node :=
  n.modPort port fun s => { s with queues := listPut [] s.queues p.cls (s.queues.getD p.cls [] ++ [⟨p, group, holds, came⟩]) }
/-- Queue a packet of this node's own. -/
def Node.queueAt (n : Node) (port : Nat) (p : Packet) (group : Nat) : Node := n.queueFrom port p group p.hops none

/-- The port whose queue a routed frame joins: member 0 of a lock holds the lock's frames (R248). -/
def Node.queuePort (n : Node) (p : Nat) : Nat :=
  if n.lockGroup p = 0 then p else (n.lockPorts (n.lockGroup p)).headD p

/-- Route a packet of this node's own and queue it. The answer names the reason it is dropped, 0 when it is not. -/
def Node.tryRoute (n : Node) (sheet : Nat) (p : Packet) (group : Nat) : Nat × Node :=
  let n := n.inc R.GZ_ROUTE_CNT_LOOKUPS (sheetBase sheet) 1
  match n.route sheet p.dst with
  | .deliver => (0, { n with loop := n.loop ++ [(sheet, p)] })
  | .miss => (2, n.inc R.GZ_ROUTE_CNT_MISSES (sheetBase sheet) 1)
  | .forward ports =>
    match n.egress ports p.entropy with
    | none => (4, n)
    | some port => (0, n.queueAt (n.queuePort port) p group)

/-- The dead-letter notice for a dropped packet (R263). -/
def Node.notice (n : Node) (p : Packet) (reason : Nat) : Packet :=
  { dst := p.src, src := n.postcode, deadline := n.now + n.cw 10 7 0xFFFF 1 10000, ptype := ptDeadLetter, cls := 1,
    entropy := p.entropy, hops := 0, ce := false,
    payload := leBytes 1 reason ++ leBytes 1 p.cls ++ leBytes 1 p.ptype ++ leBytes 1 p.hops ++
      leBytes 4 n.postcode ++ leBytes 8 n.now ++ leBytes 4 p.dst ++ leBytes 4 0 ++ leBytes 8 p.deadline ++
      padTo 16 p.payload }

/-- Send the notice of a drop at a port, within the sheet's rate (R264); no notice is sent for a lost notice. -/
def Node.sendNotice (n : Node) (port : Nat) (p : Packet) (reason : Nat) : Node :=
  if !noticeDue p then n
  else
    let first := port / 2 * 2
    let s := n.port first
    let fresh : Bool := n.now / 1000 ≠ s.dlnAt
    let used := if fresh then 0 else s.dlnN
    if n.cw 10 7 0xFFFF 0 8 ≤ used then n.inc R.PORT_DLN_CNT_SUPPRESSED (portBase port) 1
    else
      let n := n.modPort first fun s => { s with dlnAt := n.now / 1000, dlnN := used + 1 }
      let n := n.inc R.PORT_DLN_CNT_SENT (portBase port) 1
      (n.tryRoute (port / 2) (n.notice p reason) 32).2

/-- Drop a packet at a port: count it by its reason and send the notice where one is due. -/
def Node.dropAt (n : Node) (port : Nat) (p : Packet) (reason : Nat) : Node :=
  let n := match reason with
    | 1 => n.inc R.PORT_DROP_CNT_EXPIRED (portBase port) 1
    | 2 | 4 | 5 => n.inc R.PORT_DROP_CNT_NO_ROUTE (portBase port) 1
    | 3 => n.inc R.PORT_DROP_CNT_SPAN (portBase port) 1
    | _ => n
  n.sendNotice port p reason

/-- Send a packet of this node's own from a sheet: routed, queued, delivered to itself, or lost with a notice. It has no
ingress port: its notice is counted at the sheet's local port 0 (DESIGN CHOICE, log entry 87). -/
def Node.sendFrom (n : Node) (sheet : Nat) (p : Packet) (group : Nat) : Node :=
  let (reason, n) := n.tryRoute sheet p group
  if reason = 0 then n else n.sendNotice (2 * sheet) p reason

/-- Send from sheet 0 (hub traffic). -/
def Node.sendPkt (n : Node) (p : Packet) (group : Nat) : Node := n.sendFrom 0 p group

/-- A packet with this node as its source. -/
def Node.mkPkt (n : Node) (dst deadline ptype cls entropy : Nat) (payload : Bytes) : Packet :=
  ⟨dst, n.postcode, deadline % 2 ^ 64, ptype, cls, entropy % 65536, 0, false, payload⟩

/-- A link-local frame on one port (R253): DEADLINE is now + 10 µs. -/
def Node.sendLocal (n : Node) (port ptype : Nat) (payload : Bytes) : Node :=
  n.queueAt port (n.mkPkt 0xFFFFFFFF (n.now + 10000) ptype 0 0 payload) 32

end Sys2Proof.Machine
end

