-- ==== Sys2Proof/Machine/Merge.lean ====
section
/-!
DEFINITION. The canonical merge of records (R71, R75 to R79) and the answers a node sends: replies, PARTIAL frames,
failure records (R68 to R74, R81 to R86).
-/

namespace Sys2Proof.Machine

/-! ## Records up the canonical tree -/

/-- The parent of two sibling records. -/
def joinSib (topk : Nat) (a b : Record) : Record :=
  { a with level := a.level + 1, index := a.index / 2, entries := List.zipWith (combine topk) a.entries b.entries }

/-- Pair up siblings in an ascending list of records of one level: the parents, and what stays. -/
def pairUp (topk : Nat) : List Record → List Record × List Record
  | a :: b :: r =>
    if a.index % 2 = 0 ∧ b.index = a.index + 1 then
      let (u, k) := pairUp topk r
      (joinSib topk a b :: u, k)
    else
      let (u, k) := pairUp topk (b :: r)
      (u, a :: k)
  | l => ([], l)

/-- Combine siblings level by level from `lv` up: the maximal subtrees that the records make (R71, R77). -/
def mergeUp (topk : Nat) : Nat → Nat → List Record → List Record
  | 0, _, rs => rs
  | fuel + 1, lv, rs =>
    let here := sortOn (fun r => r.index) (rs.filter fun r => r.level == lv)
    let (u, k) := pairUp topk here
    k ++ mergeUp topk fuel (lv + 1) (u ++ rs.filter fun r => r.level != lv)

/-- The maximal DONE records of a set. -/
def maxRecords (topk : Nat) (rs : List Record) : List Record := mergeUp topk 24 0 rs

/-- The value of a tree node from the records inside it, the identity elsewhere (R75). -/
def nodeVal (topk q d : Nat) (rs : List Record) : Nat → Nat → List Partial
  | 0, i =>
    match rs.find? fun r => r.level == 0 && r.index == i with
    | some r => r.entries
    | none => List.replicate q (identP d)
  | lv + 1, i =>
    match rs.find? fun r => r.level == lv + 1 && r.index == i with
    | some r => r.entries
    | none =>
      let inside := rs.filter fun r => decide (r.level ≤ lv) && decide (r.index / 2 ^ (lv + 1 - r.level) = i)
      if inside = [] then List.replicate q (identP d)
      else List.zipWith (combine topk) (nodeVal topk q d inside lv (2 * i)) (nodeVal topk q d inside lv (2 * i + 1))

/-- The smallest tree node that contains the ordinals `lo .. hi-1`. -/
def containing (lo hi : Nat) : Nat × Nat :=
  match (upTo 25).find? fun lv => lo / 2 ^ lv == (hi - 1) / 2 ^ lv with
  | some lv => (lv, lo / 2 ^ lv)
  | none => (24, 0)

/-- Whole records of subtrees that arrived split by query rows (R70): those with all `q` rows. -/
def joinRows (q : Nat) (rs : List Record) : List Record :=
  let ids := rs.foldl (fun l r => if l.contains (r.level, r.index) then l else l ++ [(r.level, r.index)]) []
  ids.filterMap fun id =>
    let ps := sortOn (fun r => r.firstQ) (rs.filter fun r => r.level == id.1 && r.index == id.2)
    let ps := ps.foldl (fun (l : List Record) r => if l.any fun x => x.firstQ == r.firstQ then l else l ++ [r]) []
    let es := (ps.map (·.entries)).flatten
    match ps with
    | [] => none
    | r :: _ => if es.length < q then none else some { r with firstQ := 0, entries := es.take q }

/-- The FINAL record of a whole coverage (R79). -/
def finalRecord (topk q d : Nat) (recipe : Nat) (param : F32) (folded : Bool) (lo hi : Nat) (rs : List Record) :
    Record :=
  let c := containing lo hi
  let fs := (nodeVal topk q d rs c.1 c.2).map (finalise recipe param folded)
  ⟨c.1, c.2, 0, stDone, true, fs.all (·.2), fs.map (·.1)⟩

/-- The ordinals in no subtree of a list of records. -/
def uncovered (ords : List Nat) (rs : List Record) : List Nat :=
  ords.filter fun o => !(rs.any fun r => decide (r.lo ≤ o) && decide (o < r.hi))

/-- Failure records of ordinals with their reasons, one set of maximal subtrees for each reason (R71). -/
def failsOf (fails : List (Nat × Nat)) : List Record :=
  let reasons := fails.foldl (fun l f => if l.contains f.2 then l else l ++ [f.2]) []
  (reasons.map fun s => failRecords s (sortOn id ((fails.filter fun f => f.2 == s).map Prod.fst))).flatten

/-! ## Sending answers -/

/-- Hand the frames of an answer to the ports of a sheet, on EXPRESS (R68). -/
def Node.sendFrames (n : Node) (sheet dst deadline entropy group : Nat) (frames : List Bytes) : Node :=
  let n := n.traceRec 0 (.sheet sheet) (if group < 32 then some group else none)
  forEach frames n fun n f => n.sendFrom sheet (n.mkPkt dst deadline ptReply 1 entropy f) group

/-- Where a letter's answer goes. -/
def Letter.dest (l : Letter) : ReplyTo → Nat
  | .ticket => l.mergePc
  | _ => l.retPc

/-- The header of a letter's answer (R68): a PARTIAL for an anchor or merge node, else a REPLY. -/
def Node.letterHdr (n : Node) (l : Letter) (dst : ReplyTo) (status detail ofmt : Nat) (nan final : Bool) : ReplyHdr :=
  { kind := if dst = .requester then 0x10 else 0x11, status := status, nan := nan, final := final,
    letterId := l.letterId, sender := n.postcode, mailbox := l.mailbox,
    retNs := if dst = .requester then 0 else l.retNs, deadline := l.deadline, sentTick := n.time.tick,
    epoch := n.chart.epoch, detail := detail, qcount := l.qcount, ofmt := ofmt, dcode := l.dcode, topk := l.topk,
    ticketId := if dst = .ticket then l.ticketId else 0,
    origin := match dst with | .requester => 0 | .anchor => l.origin | .ticket => l.retPc,
    tFirst := if dst = .ticket then l.tFirst else 0, tCount := if dst = .ticket then l.tCount else 0 }

/-- Who a letter's answer goes to. -/
def Letter.replyTo (l : Letter) : ReplyTo :=
  if l.kind = 3 then .anchor else if l.ticket then .ticket else .requester

/-- Answer a letter that failed as a whole (R72, R74). A PARTIAL carries one failure record for each maximal subtree of
the coverage, none where the coverage fields themselves failed. -/
def Node.answerWhole (n : Node) (sheet : Nat) (l : Letter) (entropy group status detail : Nat) (coverOk : Bool) :
    Node :=
  let dst := l.replyTo
  let rs := if dst = .requester ∨ !coverOk then [] else failRecords status l.ords
  let ofmt := if rs = [] then l.ofmt else 1
  n.sendFrames sheet (l.dest dst) l.deadline entropy group
    (replyFrames (n.letterHdr l dst status detail ofmt false false) rs)

/-- Answer a letter with its DONE records (kept in FP32) and failed ordinals (R71, R72, R78, R79). `whole` says that every
covered ordinal is homed here; else some covered ordinal lies in no record, and DONE becomes DONE_PARTIAL (R72, R73). -/
def Node.answerRecords (n : Node) (sheet : Nat) (l : Letter) (entropy group detail : Nat) (folded whole : Bool)
    (done : List Record) (fails : List (Nat × Nat)) : Node :=
  let dst := l.replyTo
  let d := if l.scoresOnly then 0 else dOut l.dcode
  let fin := l.finalise && dst == .requester && whole && fails == []
  let done := maxRecords l.topk done
  let rs := if fin then
      [finalRecord l.topk l.qcount d l.recipe l.param folded l.first l.stopOrd done]
    else done ++ failsOf fails
  let status := if recordsStatus rs = stDone ∧ !whole then stDonePartial else recordsStatus rs
  let sent := if dst = .requester then sentRecords rs else sortOn (fun r => r.lo) rs
  let ofmt := if sent = [] then l.ofmt else if dst = .requester ∧ (!l.finalise ∨ fin) then l.ofmt else 1
  let nan := (done ++ rs).any fun r => r.nan
  n.sendFrames sheet (l.dest dst) l.deadline entropy group
    (replyFrames (n.letterHdr l dst status (if status = stDone ∨ status = stDonePartial then 0 else detail) ofmt nan fin)
      sent)

/-- Answer an APPEND letter: a status and no records (R67). -/
def Node.answerAppend (n : Node) (sheet : Nat) (l : Letter) (entropy group status detail : Nat) : Node :=
  n.sendFrames sheet (l.dest l.replyTo) l.deadline entropy group
    (replyFrames (n.letterHdr l l.replyTo status detail l.ofmt false false) [])

/-! ## Merge space (R80, R83, R119, R123) -/

/-- Merge bytes in use by a partition on a sheet: letters, and contexts with their tombstones. -/
def Node.mergeUse (n : Node) (sheet p : Nat) : Nat :=
  (n.office.ctxs.filter fun c => c.2.sheet == sheet && c.2.partition == p).foldl (fun a c => a + c.2.bytes) 0 +
  (n.office.merges.filter fun m => !m.ticket && m.sheet == sheet && m.partition == p).foldl (fun a m => a + m.bytes) 0

/-- Merge bytes in use by ticket contexts on a sheet. -/
def Node.ticketUse (n : Node) (sheet : Nat) : Nat :=
  (n.office.merges.filter fun m => m.ticket && m.sheet == sheet).foldl (fun a m => a + m.bytes) 0

/-- SLOT_LETTERS, STORE_LINES, STAGE_GRANULES and MERGE_KIB of a partition on a sheet (chart section 0x05). -/
def Node.share (n : Node) (sheet p k : Nat) : Nat := n.cw 5 1 (sheet * 32 + p) k 0
def Node.ticketKib (n : Node) (sheet : Nat) : Nat := n.cw 5 2 sheet 0 0

/-! ## Letter contexts on their lead sheet (R122, R135) -/

/-- What one query row got from one page: its tile-range pieces combined along the tile tree (R93); the identity, its
score list filled (R78, R110), for a page no pass read. -/
def LetterCtx.page (c : LetterCtx) (o j : Nat) : Partial :=
  let d := if c.letter.scoresOnly then 0 else dOut c.letter.dcode
  let ps := sortOn (fun x => x.lo) (c.pieces.filter fun x => x.ord == o && x.row == j)
  match ps with
  | [] => pageIdent c.letter.topk d
  | _ => combineTree c.letter.topk d ps.length.log2 (ps.map (·.part))

/-- The ordinals a context answers for itself: covered, homed on the node, not failed. -/
def LetterCtx.good (c : LetterCtx) : List Nat :=
  c.letter.ords.filter fun o => !c.elsewhere.contains o && !(c.fails.any fun f => f.1 == o)

/-- The level-0 records of a context. -/
def LetterCtx.pageRecords (c : LetterCtx) : List Record :=
  c.good.map fun o => ⟨0, o, 0, stDone, false, false, (upTo c.letter.qcount).map fun j => c.page o j⟩

/-- Forget a letter: its context, shares and store lines; its staged copies lose its claim. -/
def Node.dropCtx (n : Node) (id : Nat) : Node :=
  n.modOffice fun o =>
    { o with ctxs := mapErase o.ctxs id, shares := o.shares.filter fun s => s.ctx ≠ id
             passes := (o.passes.map fun p => { p with rows := p.rows.filter fun r => r.1 ≠ id }).filter fun p =>
               p.rows ≠ [] }

/-- Answer a letter context as it stands and forget it. -/
def Node.answerCtx (n : Node) (id : Nat) : Node :=
  match mapFind? n.office.ctxs id with
  | none => n
  | some c =>
    let l := c.letter
    let n := match c.whole with
      | some (st, dt) => n.answerWhole c.sheet l c.entropy c.partition st dt true
      | none =>
        if l.kind = 2 then
          let rs := failsOf c.fails
          let st := if c.fails = [] then stDone else if c.good ≠ [] then stDonePartial else recordsStatus rs
          n.answerAppend c.sheet l c.entropy c.partition st (if st = stDone ∨ st = stDonePartial then 0 else c.detail)
        else n.answerRecords c.sheet l c.entropy c.partition c.detail c.folded (c.elsewhere == []) c.pageRecords c.fails
    n.dropCtx id

/-- Has every share of a letter been admitted or ended, and every pass of it completed? -/
def Node.ctxReady (n : Node) (id : Nat) : Bool :=
  (n.office.shares.all fun s => s.ctx != id || s.admitted || s.ended) && !(n.office.passes.any fun p => p.rows.any fun r => r.1 == id)

/-- Answer a letter once it is whole. -/
def Node.tryAnswer (n : Node) (id : Nat) : Node := if n.ctxReady id then n.answerCtx id else n

/-- Change a letter context. -/
def Node.modCtx (n : Node) (id : Nat) (f : LetterCtx → LetterCtx) : Node :=
  n.modOffice fun o => { o with ctxs := mapMod o.ctxs id f }

/-- Does a share stand collected or held, waiting for admission? -/
def Share.waits (s : Share) : Bool := !s.admitted && !s.travelling && !s.ended

/-- Has a share neither been admitted nor ended? -/
def Share.open' (s : Share) : Bool := !s.admitted && !s.ended

/-- Take a share off the sorting office, its store lines with it. -/
def Node.dropShare (n : Node) (s : Share) : Node :=
  n.modOffice fun o => { o with shares := o.shares.filter fun x => x.id != s.id }

/-- Change a share. -/
def Node.modShare (n : Node) (s : Share) (f : Share → Share) : Node :=
  n.modOffice fun o => { o with shares := o.shares.map fun x => if x.id == s.id then f x else x }

/-- A share ends with a status: its ordinals become failure records (R74, R135); a share that carries append rows for
uncovered pages alone ends the letter. A collected share keeps its store lines until the reply (R123, R135). The letter is
answered when nothing of it is left to wait for. -/
def Node.failShare (n : Node) (s : Share) (status detail : Nat) : Node :=
  let n := n.modCtx s.ctx fun c =>
    if s.ords = [] then { c with whole := some (status, detail) }
    else { c with fails := c.fails ++ s.ords.map fun o => (o, status), detail := detail }
  let n := if s.travelling then n.dropShare s else n.modShare s fun x => { x with ended := true }
  n.tryAnswer s.ctx

/-- A whole letter ends with a status (R48, R123, R427). -/
def Node.failLetter (n : Node) (id status detail : Nat) : Node :=
  (n.modCtx id fun c => { c with whole := some (status, detail) }).answerCtx id

/-! ## Anchor and ticket contexts (R80 to R86) -/

/-- Is this context the one with an identity? -/
def MergeCtx.is (m : MergeCtx) (ticket : Bool) (requester ident : Nat) : Bool :=
  m.ticket == ticket && m.requester == requester && m.ident == ident

/-- The letter of this node's own that names a ticket merged here. -/
def Node.ticketLetter (n : Node) (requester ticketId : Nat) : Option TicketLetter :=
  n.office.tickets.find? fun x => x.requester == requester && x.ticketId == ticketId

/-- The KEY of a context's letter: an anchor's own, a ticket's as this node's own letter of it gives it (log entry 82). -/
def Node.mergeKey (n : Node) (m : MergeCtx) : Option Nat :=
  if m.ticket then (n.ticketLetter m.requester m.ident).map fun x => x.key else some m.key

/-- The partition a context serves, found the same way. -/
def Node.mergePart (n : Node) (m : MergeCtx) : Option Nat :=
  if m.ticket then (n.ticketLetter m.requester m.ident).map fun x => x.partition else some m.partition

/-- A context's covered ordinals. -/
def MergeCtx.covered (m : MergeCtx) : List Nat := (m.ords.map fun r => span r.1 r.2).flatten

/-- Change the live context with an identity. -/
def Node.modMerge (n : Node) (ticket : Bool) (requester ident : Nat) (f : MergeCtx → MergeCtx) : Node :=
  n.modOffice fun o => { o with merges := o.merges.map fun m => if m.is ticket requester ident then f m else m }

/-- DETAIL of a merge context's reply (R68): what the first PARTIAL with that status gave, for the statuses that have
one. -/
def MergeCtx.detailOf (m : MergeCtx) (status : Nat) : Nat :=
  if status = stBadState ∨ status = stEpochStale ∨ status = stBadLength then
    ((m.details.find? fun d => d.1 == status).map Prod.snd).getD 0
  else 0

/-- The header of a merge context's reply. -/
def Node.mergeHdr (n : Node) (m : MergeCtx) (status : Nat) (ofmt : Nat) (nan final : Bool) : ReplyHdr :=
  { kind := 0x10, status := status, nan := nan, final := final, letterId := m.letterId, sender := n.postcode,
    mailbox := m.mailbox, retNs := 0, deadline := m.deadline, sentTick := n.time.tick, epoch := n.chart.epoch,
    detail := m.detailOf status, qcount := m.qcount, ofmt := ofmt, dcode := m.dcode, topk := m.topk,
    ticketId := if m.ticket then m.ident else 0, origin := 0, tFirst := if m.ticket then m.tFirst else 0,
    tCount := if m.ticket then m.tCount else 0 }

/-- A context ends: it becomes a tombstone until its DEADLINE, in the space it held (R84). -/
def Node.tombstone (n : Node) (m : MergeCtx) : Node :=
  n.modMerge m.ticket m.requester m.ident fun m => { m with live := false, records := [] }

/-- A context ends with a whole status and no records (R83, R86, R427). -/
def Node.endMerge (n : Node) (m : MergeCtx) (status : Nat) : Node :=
  (n.sendFrames m.sheet m.requester m.deadline m.entropy m.partition
    (replyFrames (n.mergeHdr m status m.ofmt false false) [])).tombstone m

/-- The DONE records of a context that are whole. -/
def MergeCtx.done (m : MergeCtx) : List Record := joinRows m.qcount (m.records.filter fun r => r.status == stDone)

/-- The failed ordinals of a context, DONE records taking precedence. -/
def MergeCtx.fails (m : MergeCtx) : List (Nat × Nat) :=
  let done := m.done
  let all := m.records.filter fun r => r.status != stDone
  m.covered.filterMap fun o =>
    if done.any fun r => decide (r.lo ≤ o) && decide (o < r.hi) then none
    else (all.find? fun r => decide (r.lo ≤ o) && decide (o < r.hi)).map fun r => (o, r.status)

/-- The ordinals of a context still without a record. -/
def MergeCtx.missing (m : MergeCtx) : List Nat := uncovered m.covered (m.done ++ m.records.filter fun r => r.status != stDone)

/-- Reply for a context whose every ordinal has a record (R72, R78, R79, R81, R83). -/
def Node.replyMerge (n : Node) (m : MergeCtx) : Node :=
  let done := maxRecords m.topk m.done
  let fails := m.fails
  let d := match done with
    | r :: _ => (r.entries.getD 0 (identP 0)).o.length
    | [] => dOut m.dcode
  let fin := m.finalise && fails == []
  let lo := m.covered.headD 0
  let hi := m.covered.getLastD 0 + 1
  let rs := if fin then [finalRecord m.topk m.qcount d m.recipe m.param m.folded lo hi done] else done ++ failsOf fails
  let status := recordsStatus rs
  let sent := sentRecords rs
  let ofmt := if sent = [] then m.ofmt else if m.ticket ∨ (m.finalise ∧ !fin) then 1 else m.ofmt
  (n.sendFrames m.sheet m.requester m.deadline m.entropy m.partition
    (replyFrames (n.mergeHdr m status ofmt ((done ++ rs).any fun r => r.nan) fin) sent)).tombstone m

/-- Reply as soon as every ordinal has a record. -/
def Node.tryMerge (n : Node) (ticket : Bool) (requester ident : Nat) : Node :=
  match n.office.merges.find? fun m => m.live && m.is ticket requester ident with
  | none => n
  | some m => if m.missing = [] then n.replyMerge m else n

/-- The cut-off of a context: DEADLINE - RETURN_NS. -/
def MergeCtx.cutoff (m : MergeCtx) : Nat := m.deadline - m.retNs

/-- The cut-off passes: every ordinal without a record receives LATE, and the node replies at once (R81). -/
def Node.cutMerge (n : Node) (m : MergeCtx) : Node :=
  n.replyMerge { m with records := m.records ++ failRecords stLate m.missing }

end Sys2Proof.Machine
end

