-- ==== Sys2Proof/Machine/Homes.lean ====
section
/-!
DEFINITION. Where a slot's page is to this node (R177, R179, R207, R209): its lower-tier space, the quad that serves it, the
node that a letter for it goes on to.
-/

namespace Sys2Proof.Machine

/-- Is the node past its first admitting boundary (R453)? -/
def Node.ready (n : Node) : Bool := bitAt n.boot.done 7

/-- Has the migration engine space for a slot in a lower tier? -/
def Node.lowOf (n : Node) (k : Nat) : Option LowSpace := n.mig.low.find? fun l => l.leafKey == k

/-- The postcode of the store that holds a slot's lower-tier copy, 0xFFFF_FFFF for the T3 window (R193, R212). -/
def Node.storePc (n : Node) (store : Nat) : Nat := if store = 2 ^ 16 then 0xFFFFFFFF else n.cw 9 5 store 2 0
def Node.lowPeer (n : Node) (k : Nat) : Nat := match n.lowOf k with | some l => n.storePc l.store | none => 0xFFFFFFFF

/-- Does a leaf send letters to another node: a redirect, or the destination of a move still under way (R207, R209)? -/
def Node.leavesNode (n : Node) (k : Nat) (l : Leaf) : Bool :=
  l.st == .redirect || (l.st == .moving && l.postcode != n.postcode && (n.lowOf k).isNone)

/-- Is a slot's page read from a lower tier: SWAPPED, or on its way back (R179)? -/
def Node.inLow (n : Node) (k : Nat) (l : Leaf) : Bool :=
  l.st == .swapped || (l.st == .moving && l.postcode != n.postcode && (n.lowOf k).isSome)

/-- The quad that serves a slot on this node, if the node homes it: the frame's quad, the quad placement names for a
page without a T1 frame (log entry 23). -/
def Node.slotQuad (n : Node) (r : SeqRec) (slot : Nat) : Option Nat :=
  match n.home r slot with
  | .leaf l =>
    if n.leavesNode (leafKey r.desc.seq slot) l then none
    else if n.inT1 l then some l.quad
    else some ((n.placeQuad r slot).getD ((n.partQuads r.partition).headD 0))
  | .fresh => n.placeQuad r slot
  | _ => none

/-- The node that a letter for a slot goes on to: the target of a redirect, the source of a move under way (R207,
R209). -/
def Node.slotForward (n : Node) (r : SeqRec) (slot : Nat) : Option Nat :=
  let k := leafKey r.desc.seq slot
  if n.leavesNode k (n.leaf k) then some (n.leaf k).postcode else none

/-- The postcode that homes a slot as an anchor sees it (R177). -/
def Node.slotPc (n : Node) (r : SeqRec) (slot : Nat) : Nat :=
  match n.slotForward r slot with
  | some pc => pc
  | none =>
    match n.home r slot with
    | .away pc => pc
    | _ => n.postcode

/-- The lowest-numbered anchor-role quad of a partition. -/
def Node.anchorQuad (n : Node) (p : Nat) : Option Nat := (n.partQuads p).find? fun q => bitAt (n.roles q) 1

end Sys2Proof.Machine
end

