-- ==== Sys2Proof/Machine/Pressure.lean ====
section
/-!
DEFINITION. Memory pressure: moves and lower-tier space (R193, R194, R203), starting swaps (R202, R211), the policy and its
orders (R199, R200).
-/

namespace Sys2Proof.Machine

/-- The number k of the present tick, not cut to 48 bits. -/
def Node.kNow (n : Node) : Nat := n.tickAt n.now

/-! ## Chart values of the memory pressure and migration sections -/

/-- POLICY of a partition: 0 PREEMPT, 1 DROP, 2 HYBRID, with its water marks (R199). -/
def Node.policy (n : Node) (p : Nat) : Nat := n.cw 11 1 p 0 0
def Node.lowPct (n : Node) (p : Nat) : Nat := n.cw 11 1 p 1 5
def Node.highPct (n : Node) (p : Nat) : Nat := n.cw 11 1 p 2 10
def Node.swapinCount (n : Node) : Nat := n.cw 11 2 0xFFFF 0 4
def Node.decayLog2 (n : Node) : Nat := n.cw 11 2 0xFFFF 1 16
def Node.switchLead (n : Node) : Nat := n.cw 11 2 0xFFFF 2 4
def Node.migTimeoutNs (n : Node) : Nat := n.cw 11 2 0xFFFF 4 10000 * 1000
def Node.promoteRows (n : Node) : Nat := n.cw 5 3 0xFFFF 0 128
def Node.promoteCopies (n : Node) : Nat := n.cw 5 3 0xFFFF 1 8
def Node.promoteIdle (n : Node) : Nat := 2 ^ n.cw 5 3 0xFFFF 2 12

/-! ## Moves -/

def Node.move (n : Node) (id : Nat) : Move := mapGet n.mig.moves id
/-- The slots of this node that a move serves: its own, and those that share an inbound frame. -/
def Move.keys (m : Move) : List Nat := m.leafKey :: m.also.map Prod.fst
def Node.modMove (n : Node) (id : Nat) (f : Move → Move) : Node :=
  n.modMig fun m => { m with moves := mapMod m.moves id f }
def Node.dropMove (n : Node) (id : Nat) : Node := n.modMig fun m => { m with moves := mapErase m.moves id }

/-- Moves of a quad that run, and that wait (R203). -/
def Node.movesActive (n : Node) (q : Nat) : Nat :=
  (n.mig.moves.filter fun m => m.2.quad == q && m.2.phase != .queued).length
def Node.movesQueued (n : Node) (q : Nat) : Nat :=
  (n.mig.moves.filter fun m => m.2.quad == q && m.2.phase == .queued).length

/-- The phase a kind of move starts in. -/
def MoveKind.first : MoveKind → MovePhase
  | .out | .into => .offered
  | _ => .tiles

/-- Is a quad's engine full: 16 moves run and 256 wait (R203)? -/
def Node.engineFull (n : Node) (q : Nat) : Bool := decide (16 ≤ n.movesActive q) && decide (256 ≤ n.movesQueued q)

/-- Enter a move: it runs at once when fewer than 16 do, waits among 256, or finds no place (R203). -/
def Node.addMove (n : Node) (m : Move) : Option (Nat × Node) :=
  let run : Bool := decide (n.movesActive m.quad < 16)
  if n.engineFull m.quad then none
  else
    let id := n.mig.nextId + 1
    let m := { m with phase := if run then m.kind.first else .queued, waitAt := n.now }
    some (id, n.modMig fun x => { x with nextId := id, moves := mapSet x.moves id m })

/-! ## Space in the lower tiers (R193, R194) -/

/-- First fit over a range of granules with some ranges taken. -/
def fitIn (len size : Nat) (taken : List (Nat × Nat)) : Option Nat :=
  go 0 (sortOn Prod.fst taken)
where
  go (at' : Nat) : List (Nat × Nat) → Option Nat
    | [] => if at' + len ≤ size then some at' else none
    | (a, l) :: r => if at' + len ≤ a then some at' else go (max at' (a + l)) r

/-- The ranges taken in a store, 2^16 for the T3 window. -/
def Node.lowTaken (n : Node) (store : Nat) : List (Nat × Nat) :=
  (n.mig.low.filter fun l => l.store == store).map fun l => (l.start, l.len)

/-- Is there a T3 window that can be read and written (R194, R196)? -/
def Node.t3Window (n : Node) : Bool := n.rd R.HP_T3_SIZE_EN 0 == 1 && !n.host.t3Lost && n.host.link

/-- Room in the T3 window for `G` granules of a partition, within its quota. -/
def Node.t3Room (n : Node) (p G : Nat) : Option Nat :=
  if n.t3Window && decide ((n.t3Used p + G) * 4096 ≤ n.tierQuota p 3) then
    fitIn G (n.rd R.HP_T3_SIZE_GRANULES 0) (n.lowTaken (2 ^ 16))
  else none

/-- The client's T2 stores of a partition in order of preference: record index, postcode, granules, key (R193). -/
def Node.t2Stores (n : Node) (p : Nat) : List (Nat × Nat × Nat × Nat) :=
  let rs := (compRecs n.chart.comp 9 5).filter fun r => r.words.getD 0 0 == n.postcode && r.words.getD 1 0 == p
  (sortOn (fun r => r.words.getD 5 0) rs).map fun r => (r.index, r.words.getD 2 0, r.words.getD 3 0, r.words.getD 4 0)

/-- Room in the first T2 store that has any. -/
def Node.t2Room (n : Node) (p G : Nat) : Option (Nat × Nat) :=
  if n.tierQuota p 2 < n.t2Used p + G then none
  else (n.t2Stores p).findSome? fun s =>
    (fitIn G s.2.2.1 (n.lowTaken s.1)).map fun a => (s.1, a)

/-! ## Swaps (R202, R211) -/

/-- A move of one page within this node's tiers. -/
def swapMove (kind : MoveKind) (k p quad frame store start G : Nat) : Move :=
  { (default : Move) with kind := kind, quad := quad, leafKey := k, partition := p, frame := frame,
                          target := store * 2 ^ 32 + start, toT2 := store != 2 ^ 16, count := G }

/-- Start a swap-out into some space: the leaf becomes MOVING (R211). -/
def Node.startSwapOut (n : Node) (k p store start : Nat) : Option Node :=
  let l := n.leaf k
  (n.addMove (swapMove .swapOut k p l.quad l.frame store start l.count)).map fun (_, n) =>
    (n.modMig fun m => { m with low := m.low ++ [⟨p, store, start, l.count, k⟩] }).changeLeaf k
      fun l => { l with st := .moving }

/-- Start a swap-in: a frame in T1 without running the policy, the leaf MOVING (R202). `hot` waives the water mark. -/
def Node.startSwapIn (n : Node) (k : Nat) (hot : Bool) : Node :=
  let r := n.seqRec (keySeq k)
  let l := n.leaf k
  let p := r.partition
  let quota := n.tierQuota p 1
  if l.st ≠ .swapped then n
  else if !hot && decide ((quota - (n.t1Used p + l.count)) * 100 < n.lowPct p * quota) then n
  else match n.lowOf k, n.placeQuad r (keySlot k) with
    | some sp, some q =>
      match n.allocFrame r (keySlot k) q with
      | none => n
      | some (f, n1) =>
        match n1.addMove (swapMove .swapIn k p (frameQuad f) f sp.store sp.start l.count) with
        | none => n
        | some (_, n2) => n2.changeLeaf k fun l => { l with st := .moving }
    | _, _ => n

/-! ## Pressure (R199, R200) -/

/-- Granules that swap-outs under way will free. -/
def Node.leavingGranules (n : Node) (p : Nat) : Nat :=
  (n.mig.moves.filter fun m => m.2.kind == .swapOut && m.2.partition == p).foldl (fun a m => a + m.2.count) 0

/-- Is a partition's free T1 quota, with `extra` granules counted as free, below a percentage of its quota? Use above the
quota is a negative free quota (R192). -/
def Node.freeBelow (n : Node) (p pct extra : Nat) : Bool :=
  decide ((((n.tierQuota p 1 + extra : Nat) : Int) - (n.t1Used p : Nat)) * 100 < ((pct * n.tierQuota p 1 : Nat) : Int))

/-- Does a page read by an admitted row lie in a frame? -/
def Node.busyFrame (n : Node) (f : Nat) : Bool := n.office.passes.any fun x => x.frame == f

/-- May the policy take the page of a leaf: to swap it out, or to drop it (R200)? -/
def Node.eligible (n : Node) (p : Nat) (drop : Bool) (k : Nat) : Bool :=
  let l := n.leaf k
  let h := n.hdr l.frame
  l.st == .sealed && (n.seqRec (keySeq k)).partition == p && h.sealSt == 2 && !l.pinned && (drop || !l.poisoned) &&
    h.refs == 1 && !n.busyFrame l.frame && !(n.quad l.quad).paused

/-- Does (a, b) stand before (c, d) in a lexicographic order? -/
def lexLt : List Nat → List Nat → Bool
  | a :: as, b :: bs => decide (a < b) || (a == b && lexLt as bs)
  | _, _ => false

/-- The first of a list by a lexicographic key. -/
def lexFirst (key : Nat → List Nat) : List Nat → Option Nat
  | [] => none
  | x :: xs => match lexFirst key xs with
    | none => some x
    | some y => if lexLt (key y) (key x) then some y else some x

/-- PREEMPT order: sequences by the largest LAST_TICK of their eligible pages, then SEQ, then slot. -/
def Node.preemptKey (n : Node) (el : List Nat) (k : Nat) : List Nat :=
  let last := (el.filter fun x => keySeq x == keySeq k).foldl (fun a x => max a (n.leaf x).lastTick) 0
  [last, keySeq k, keySlot k]

/-- DROP order. -/
def Node.dropKey (n : Node) (k : Nat) : List Nat :=
  let l := n.leaf k
  [b2n !l.poisoned, b2n l.hot, l.heat, l.lastTick, keySlot k, keySeq k]

/-- Drop a page: its frame is freed, its leaf DROPPED (R200, R201). -/
def Node.dropPage (n : Node) (k : Nat) : Node :=
  let l := n.leaf k
  ((n.freeFrame l.frame l.count).changeLeaf k fun l => { l with st := .dropped, shared := false, poisoned := false }).inc
    R.MIG_DROP_CNT_DROPPED (quadBase l.quad) 1

/-- Take one page by the policy, if there is one to take (R200). HYBRID goes by PREEMPT while the partition has T3 space. -/
def Node.takeOne (n : Node) (p : Nat) : Option Node :=
  let keys := mapKeys n.leaves
  let el := keys.filter (n.eligible p false)
  let out (k : Nat) (t2 : Bool) : Option Node :=
    let G := (n.leaf k).count
    match n.t3Room p G with
    | some a => n.startSwapOut k p (2 ^ 16) a
    | none => if t2 then (n.t2Room p G).bind fun (s, a) => n.startSwapOut k p s a else none
  let drop : Option Node := (lexFirst n.dropKey (keys.filter (n.eligible p true))).map n.dropPage
  let swap (t2 : Bool) : Option Node :=
    (lexFirst (n.preemptKey el) (el.filter fun k => (out k t2).isSome)).bind fun k => out k t2
  -- T3 space: room for some page that could go, or for a granule where none can
  let t3 : Bool := (if el = [] then [1] else el.map fun k => (n.leaf k).count).any fun G => (n.t3Room p G).isSome
  match n.policy p with
  | 0 => swap true
  | 1 => drop
  | _ => if t3 then swap false else drop

/-- Run a partition's policy until its free quota reaches HIGH_PCT or nothing is left to take. -/
def Node.runPolicy : Nat → Node → Nat → Node
  | 0, n, _ => n
  | fuel + 1, n, p =>
    if !n.freeBelow p (n.highPct p) (n.leavingGranules p) then n
    else match n.takeOne p with
      | none => n
      | some n => n.runPolicy fuel p

/-- The policy of a partition, after a failed allocation. -/
def Node.relieve (n : Node) (p : Nat) : Node := n.runPolicy n.leaves.length p

/-- The policy of a partition whose free quota is below LOW_PCT. -/
def Node.watch (n : Node) (p : Nat) : Node :=
  if n.freeBelow p (n.lowPct p) 0 then n.relieve p else n

end Sys2Proof.Machine
end

