-- ==== Sys2Proof/Machine/Collect.lean ====
section
/-!
DEFINITION. Receiving letters: steering (R121), the checks of R10 and R63, forwarding through redirects (R209), shares
and their collection (R46, R122, R123, R125), anchors (R80, R136).
-/

namespace Sys2Proof.Machine

/-! ## Steering -/

/-- The lead sheet of a letter (R121). -/
def Node.leadSheet (n : Node) (l : Letter) (r : Option SeqRec) (owner : Option Nat) (ingress : Nat) : Nat :=
  if l.anchored then
    match owner.bind n.anchorQuad with
    | some q => quadSheet q
    | none => ingress
  else
    match r with
    | none => ingress
    | some r =>
      match n.slotQuad r (r.desc.slot l.layer l.kvHead l.first) with
      | some q => quadSheet q
      | none => ingress

/-! ## Slices of a letter (R62, R80, R122) -/

/-- The bytes of the append rows of one token. -/
def Letter.tokenBytes (l : Letter) : Nat := rowsOf l.dcode * (dKey l.dcode * (afmtElem l.afmt).width / 8)

/-- The rows of the token at a step. -/
def Letter.rowsAt (l : Letter) (step : Nat) : Bytes :=
  (l.rows.drop ((step + l.appendCount - (l.step + 1)) * l.tokenBytes)).take l.tokenBytes

/-- A letter cut to some of its covered ordinals (ascending) and of its tokens: its coverage as a RANGE or as its maximal
subtrees, the slice of its INLINE mask, its append rows. A slice that keeps earlier tokens only carries the step of the
last of them (log entry 24). -/
def Letter.slice (l : Letter) (p : Nat) (range : Bool) (ords steps : List Nat) : Letter :=
  let l := { l with subtrees := !range, firstOrd := if range then ords.headD 0 else 0,
                    ordCount := if range then ords.length else 0, trees := if range then [] else maxTrees ords }
  let l := if l.maskKind ≠ 1 then l
    else
      let ms := ords.filter l.masked
      let a := ms.headD 0
      let b := ms.getLastD 0 + 1
      if ms = [] then { l with maskKind := 0, maskFirst := 0, maskCount := 0, mask := [] }
      else { l with mask := (l.mask.drop ((a - l.maskFirst) * l.maskStride p)).take ((b - a) * l.maskStride p)
                    maskFirst := a, maskCount := b - a }
  if steps = [] then { l with appendCount := 0, afmt := 0, rows := [] }
  else
    { l with rows := (steps.map l.rowsAt).flatten, appendCount := steps.length, step := steps.getLastD 0 }

/-- Ordinals as coverage of copies (R80): one RANGE where they are consecutive, else groups of at most 8 maximal
subtrees. -/
def coverGroups (ords : List Nat) : List (Bool × List Nat) :=
  match ords with
  | [] => []
  | o :: _ =>
    if ords.getLastD 0 + 1 - o = ords.length then [(true, ords)]
    else (chunks 8 ords.length (maxTrees ords)).map fun ts => (false, treeOrds ts)

/-- Members of a list in the order of their first occurrence. -/
def distinct (l : List Nat) : List Nat := l.foldl (fun acc x => if acc.contains x then acc else acc ++ [x]) []

/-- The copies for one node: groups of the ordinals it is to cover, its tokens with the last group. A node that homes tokens
and no covered ordinal is sent the ordinals of its tokens (R80; log entry 80). -/
def nodeCopies (p : Nat) (ords steps : List Nat) : List ((Bool × List Nat) × List Nat) :=
  let gs := coverGroups (if ords = [] then distinct (steps.map (· / p)) else ords)
  gs.zipIdx.map fun g => (g.1, if g.2 + 1 = gs.length then steps else [])

/-! ## The checks of R10 -/

/-- Does a letter need a unit the part lacks (R3, R157): the fold unit, for the F4 output format? -/
def Node.letterLacksUnit (n : Node) (l : Letter) : Bool :=
  (l.kind == 1 || l.kind == 3) && l.ofmt == 2 && !n.ident.part.fold

/-- Something of the letter that its partition does not enable (R95, R108, R157). -/
def Node.letterUnsupported (n : Node) (l : Letter) (p : Nat) (r : Option SeqRec) : Bool :=
  let shapes := n.cw 4 2 p 0 0
  let att := l.kind == 1 || l.kind == 3
  (att && decide (l.recipe ≤ 5) && !bitAt (n.cw 3 1 p 0 0) l.recipe) ||
    (decide (l.dcode ≤ 5) && !bitAt shapes l.dcode) || (att && decide (l.qcompute ≤ 1) && !bitAt shapes (16 + l.qcompute)) ||
    (att && l.ofmt == 2 && !bitAt shapes 24) || (r.any fun r => !bitAt (n.cw 4 1 p 0 0) r.desc.format)

/-- Coverage fields that fail their checks (R58, R59, R61). -/
def Letter.coverBad (l : Letter) (bs : Bytes) (r : Option SeqRec) : Bool :=
  let w58 := leAt bs 0x58 8
  let o := partOffs bs (match r with | some r => r.desc.p | none => 0)
  decide (bits w58 1 7 ≠ 0) ||
    (if l.subtrees then
      !(treesOk 0 l.trees) || l.trees == [] || decide (8 < l.trees.length) || l.firstOrd != 0 || l.ordCount != 0 ||
        (upTo l.trees.length).any fun i => bits (leAt bs (o.trees + 4 * i) 4) 5 3 != 0
    else l.ordCount == 0 || bits w58 8 8 != 0) ||
    r.any fun r => decide (r.desc.ordLimit < l.stopOrd)

/-- Fields beyond the sequence's ranges (R9, R61, R173). -/
def Letter.beyond (l : Letter) (r : SeqRec) : Bool :=
  decide (r.desc.layers ≤ l.layer) || decide (r.desc.kvHeads ≤ l.kvHead) || decide (r.desc.ordLimit < l.stopOrd) ||
    (decide (0 < l.appendCount) && decide (r.desc.ordLimit * r.desc.p ≤ l.step))

/-- The R10 checks in their order: the failing status, 0 when all pass. -/
def Node.letterStatic (n : Node) (bs : Bytes) (l : Letter) (owner : Option Nat) (r : Option SeqRec) : Nat :=
  let p := match r with | some r => r.desc.p | none => 0
  if n.letterLacksUnit l || owner.any fun o => n.letterUnsupported l o r then stUnsupported
  else if letterBadFormat bs l p (r.map fun r => r.desc.fmt) then stBadFormat
  else if letterBadLength bs l p || decide (n.now + n.spanNs < l.deadline) || (r.any l.beyond) ||
      (l.ticket && decide (2 ^ 24 < l.tFirst + l.tCount)) then stBadLength
  else 0

/-! ## The checks of R63 -/

/-- The epoch check (R349). -/
def Node.epochOk (n : Node) (l : Letter) : Bool :=
  let d := (n.chart.epoch + 2 ^ 16 - l.epoch % 2 ^ 16) % 2 ^ 16
  d == 0 || (d == 1 && n.chart.switchTick.isSome && decide (l.deadline ≤ n.chart.switchNs + n.spanNs))

/-- Does an abort window match a key index (R427)? -/
def AbortWin.hits (w : AbortWin) (key : Nat) : Bool := (keyIndex key &&& w.mask) == (w.value &&& w.mask)

/-- Is a letter refused by an abort window in force? -/
def Node.aborted (n : Node) (key : Nat) : Bool :=
  n.err.aborts.any fun w => w.applied && decide (n.now < w.til) && w.hits key

/-- Why a letter cannot be collected now: no ticks, UNLOCKED, a step pending, an orphan under QUIESCE, not READY (R38,
R40, R41, R323, R460). -/
def Node.noCollect (n : Node) : Bool :=
  !n.ready || !n.ticking || n.time.st == .unlocked || n.time.stepBy.isSome || n.host.quiesced

/-- The covered ordinals homed here, each with the sheet of the quad that serves it. -/
def Node.localOrds (n : Node) (l : Letter) (r : SeqRec) : List (Nat × Nat) :=
  l.ords.filterMap fun o => (n.slotQuad r (r.desc.slot l.layer l.kvHead o)).map fun q => (o, quadSheet q)

/-- Does the slot of an ordinal name another node to go on to? -/
def Node.ordAway (n : Node) (l : Letter) (r : SeqRec) (o : Nat) : Bool :=
  (n.slotForward r (r.desc.slot l.layer l.kvHead o)).isSome

/-- The tokens of the append part that stay here, each with the quad that serves its slot, if one does. -/
def Node.localToks (n : Node) (l : Letter) (r : SeqRec) : List (Nat × Option Nat) :=
  (l.appendSteps.filter fun t => !n.ordAway l r (t / r.desc.p)).map fun t =>
    (t, n.slotQuad r (r.desc.slot l.layer l.kvHead (t / r.desc.p)))

/-- NOT_HOME (R63): nothing covered is homed or redirected here, or a token's slot is neither. -/
def Node.letterNotHome (n : Node) (l : Letter) (r : SeqRec) : Bool :=
  if l.anchored then (n.anchorQuad r.partition).isNone
  else (n.localOrds l r == [] && !(l.ords.any (n.ordAway l r))) || (n.localToks l r).any fun t => t.2.isNone

/-- Allocate every slot of a list. -/
def Node.allocSlots (n : Node) (r : SeqRec) : List Nat → Option Node
  | [] => some n
  | s :: ss => (n.allocPage r s).bind fun n => n.allocSlots r ss

/-- NO_QUOTA (R63, R180): some token would allocate a page, and the allocation fails even after the partition's policy. -/
def Node.letterNoQuota (n : Node) (l : Letter) (r : SeqRec) (steps : List Nat) : Bool :=
  let slots := (distinct (steps.map (· / r.desc.p))).map fun o => r.desc.slot l.layer l.kvHead o
  let fresh := slots.filter fun s => match n.home r s with | .fresh => true | _ => false
  (n.allocSlots r fresh).isNone && ((n.relieve r.partition).allocSlots r fresh).isNone

/-- Does the memory key of a letter, or of a KEYED mask this node would read, fail its check (R62, R63, R283)? -/
def Node.letterKeyFault (n : Node) (l : Letter) (r : Option SeqRec) (src : Nat) : Bool :=
  !n.letterKeyOk l src || r.any fun r =>
    n.keyOwner l.key != some r.partition ||
      (!l.anchored && n.localOrds l r != [] && !n.maskKeyOk l src r.partition r.desc.p ((n.localOrds l r).map Prod.fst))

/-- The checks of R10, then those of R63 up to NO_QUOTA, in order: status and DETAIL of the first that fails. `refuse` when
the rule lookup refuses the letter (R237) or the node is not READY (R460). -/
def Node.letterVerdict (n : Node) (bs : Bytes) (l : Letter) (r : Option SeqRec) (owner : Option Nat) (src : Nat)
    (refuse : Bool) : Option (Nat × Nat) :=
  let st := n.letterStatic bs l owner r
  if refuse then some (stRefused, 0)
  else if st ≠ 0 then some (st, 0)
  else if n.letterKeyFault l r src then some (stKeyFault, 0)
  else if n.aborted l.key then some (stAborted, 0)
  else if !n.epochOk l then some (stEpochStale, n.chart.epoch)
  else match r with
    | none => some (stNotHome, 0)
    | some r =>
      if n.letterNotHome l r then some (stNotHome, 0)
      else if n.letterNoQuota l r (((n.localToks l r).filter fun t => t.2.isSome).map Prod.fst) then some (stNoQuota, 0)
      else none

/-! ## Collection (R46, R123, R125) -/

/-- The tick a letter with a collection time belongs to (R46). -/
def Node.collectTick (n : Node) (t : Nat) : Nat :=
  let k := n.tickAt t
  if n.boundary (k + 1) ≤ t + 20 then k + 2 else k + 1

/-- Store lines a partition holds on a sheet: those of its shares until their letters are replied to. -/
def Node.linesUsed (n : Node) (sheet p : Nat) : Nat :=
  (n.office.shares.filter fun s => s.sheet == sheet && s.partition == p && !s.travelling).foldl (fun a s => a + s.lines) 0

/-- Staging granules a partition holds on a sheet. -/
def Node.stageUsed (n : Node) (sheet p : Nat) : Nat :=
  (n.office.staged.filter fun e => e.2.sheet == sheet && e.2.partition == p && !e.2.waiting).foldl
    (fun a e => a + e.2.granules) 0

/-- Is a page wholly staged? -/
def Staged.landed (e : Staged) : Bool := decide (e.granules ≤ e.have')

/-- The staging key of a page in a lower tier, and of a page an APPEND will allocate. -/
def lowKey (leaf : Nat) : Nat := 2 ^ 120 + leaf
def newKey (leaf : Nat) : Nat := 2 ^ 121 + leaf

/-- The staging key of a slot: its frame, its lower-tier copy, or the reservation for a page its append rows will
allocate; none when nothing is to be staged. -/
def Node.stageKey (n : Node) (r : SeqRec) (slot : Nat) (appends : Bool) : Option Nat :=
  let k := leafKey r.desc.seq slot
  match n.home r slot with
  | .leaf l =>
    if n.inT1 l then some l.frame else if n.inLow k l then some (lowKey k) else none
  | .fresh => if appends then some (newKey k) else none
  | _ => none

/-- Start the run-ahead of a page, or put it in the sheet's fetch queue (R125). A page that an APPEND will allocate has
nothing to fetch. -/
def Node.claim (n : Node) (sheet p G key : Nat) : Node :=
  if (mapFind? n.office.staged key).isSome || (mapFind? n.office.t0 key).isSome then n
  else
    let e : Staged :=
      { sheet := sheet, partition := p, granules := G, have' := if 2 ^ 121 ≤ key then G else 0,
        waiting := decide (n.share sheet p 2 < n.stageUsed sheet p + G), order := n.office.nextId,
        lower := decide (2 ^ 120 ≤ key) && decide (key < 2 ^ 121), data := [], reading := false, tiles := [], broken := false }
    n.modOffice fun o => { o with staged := mapSet o.staged key e, nextId := o.nextId + 1 }

/-- The slots a share names: its covered ordinals and the ordinals of its tokens. -/
def Share.ordinals (s : Share) (p : Nat) : List Nat :=
  sortOn (fun o => o) ((s.appends.map (· / p)).foldl (fun l o => if l.contains o then l else l ++ [o]) s.ords)

/-- Claim staging for every page a share names. -/
def Node.claimShare (n : Node) (s : Share) : Node :=
  match mapFind? n.office.ctxs s.ctx with
  | none => n
  | some c =>
    let r := n.seqRec c.letter.seq
    forEach (s.ordinals r.desc.p) n fun n o =>
      match n.stageKey r (r.desc.slot c.letter.layer c.letter.kvHead o) (s.appends.any fun t => t / r.desc.p == o) with
      | none => n
      | some key => n.claim s.sheet s.partition r.desc.granules key

/-- The quads that serve the ordinals a share names, as they stand. -/
def Node.shareHomes (n : Node) (s : Share) (c : LetterCtx) : List (Nat × Nat) :=
  let r := n.seqRec c.letter.seq
  (s.ordinals r.desc.p).map fun o =>
    (o, (n.slotQuad r (r.desc.slot c.letter.layer c.letter.kvHead o)).getD 1024)

/-- Does the page header disagree with the letter (R63, R167)? -/
def Node.hdrMismatch (n : Node) (l : Letter) (f : Nat) : Bool :=
  let h := n.hdr f
  h.dcode != l.dcode || h.layer != l.layer || h.kvHead != l.kvHead || (l.bias && !h.bias)

/-- What a share's collection finds against its pages (R63, R146): a letter that disagrees with its sequence or with a
page's header, or rows that the page format cannot store. -/
def Node.shareMismatch (n : Node) (s : Share) (c : LetterCtx) : Bool :=
  let l := c.letter
  let r := n.seqRec l.seq
  let d := r.desc
  l.dcode != d.dcode || (l.bias && !d.bias) ||
    (s.appends.any fun t => rowsBad d.fmt (afmtElem l.afmt) (l.rowsAt t)) ||
    (s.ordinals d.p).any fun o => match n.stageKey r (d.slot l.layer l.kvHead o) false with
      | some key => decide (key < 2 ^ 120) && n.hdrMismatch l key
      | none => false

/-- Collect a share by its own sorting office at a collection time: the comparison with its pages, its store lines, then
its staging (R63, R123). A share beyond STORE_LINES is refused at once; when it is the lead's own, the letter is. -/
def Node.collectShare (n : Node) (s : Share) (t : Nat) : Node :=
  match mapFind? n.office.ctxs s.ctx with
  | none => n
  | some c =>
    let b := sheetBase s.sheet + 64 * s.partition
    if n.shareMismatch s c then n.failLetter s.ctx stBadFormat 0
    else if n.share s.sheet s.partition 1 < n.linesUsed s.sheet s.partition + s.lines then
      let n := n.inc R.SO_HOLD_CNT_REFUSED b 1
      if s.sheet = c.sheet then n.failLetter s.ctx stRefused 0 else n.failShare s stRefused 0
    else
      let hs := n.shareHomes s c
      let s' := { s with at' := t, arrival := n.office.nextId, tick := n.collectTick t, travelling := false, homes := hs }
      let n := n.modOffice fun o =>
        { o with nextId := o.nextId + 1, shares := (o.shares.filter fun x => x.id != s.id) ++ [s'] }
      let n := n.traceRec 0 (.sheet s.sheet) (some s.partition)
      (n.inc R.SO_LETTER_CNT_COLLECTED b 1).claimShare s'

/-- Enter a share as it stands, with a number of its own. -/
def Node.newShare (n : Node) (s : Share) : Share × Node :=
  let s := { s with id := n.office.nextId }
  (s, n.modOffice fun o => { o with nextId := o.nextId + 1, shares := o.shares ++ [s] })

/-! ## Splitting a letter (R122) -/

/-- The sheets of a letter's local ordinals and tokens, with what falls to each. -/
def shareParts (homes : List (Nat × Nat)) (toks : List (Nat × Nat)) : List (Nat × List Nat × List Nat) :=
  (sortOn id (distinct ((homes ++ toks).map Prod.snd))).map fun s =>
    (s, (homes.filter fun h => h.2 == s).map Prod.fst, (toks.filter fun h => h.2 == s).map Prod.fst)

/-- Frames the answer would need with every homed page computed (R70). -/
def framesNeeded (l : Letter) (homed : List Nat) (whole : Bool) : Nat :=
  if l.qcount = 0 then 1
  else
    let fin := l.finalise && whole && l.replyTo == .requester
    let ofmt := if l.replyTo = .requester ∧ (!l.finalise ∨ fin) then l.ofmt else 1
    let e := identP (if l.scoresOnly then 0 else dOut l.dcode)
    let rec1 (t : Nat × Nat) : Record := ⟨t.1, t.2, 0, stDone, false, false, List.replicate l.qcount e⟩
    (fillFrames ofmt l.topk (if fin then [rec1 (0, 0)] else (maxTrees homed).map rec1)).length

/-- Open a letter's context on its lead sheet and its shares; the lead's own share is collected at the letter's collection
time, the others travel (R122, R123). -/
def Node.openLetter (n : Node) (l : Letter) (r : SeqRec) (lead : Nat) (w : WalkWait) (homes toks : List (Nat × Nat))
    (elsewhere : List Nat) : Node :=
  let bytes := homes.length * mergeBytes l.qcount l.dcode l.topk
  let p := r.partition
  if n.share lead p 3 * 1024 < n.mergeUse lead p + bytes then
    (n.inc R.SO_HOLD_CNT_REFUSED (sheetBase lead + 64 * p) 1).answerWhole lead l w.entropy p stRefused 0 true
  else
    let id := n.office.nextId
    let c : LetterCtx :=
      { sheet := lead, partition := p, letter := l, source := w.src, entropy := w.entropy, replyTo := l.replyTo,
        p := r.desc.p, folded := r.desc.fmt.fold != 0, bytes := bytes, pieces := [], fails := [], idents := [],
        elsewhere := elsewhere, detail := 0, whole := none }
    let mk (x : Nat × List Nat × List Nat) : Share :=
      { id := 0, ctx := id, sheet := x.1, partition := p, port := w.port, at' := w.at', arrival := 0, tick := 0,
        ords := x.2.1, homes := [], appends := x.2.2, lines := ceilDiv l.length 64, held := false, gapHeld := false,
        travelling := true, admitted := false, ended := false }
    let n := n.modOffice fun o => { o with nextId := o.nextId + 1, ctxs := mapSet o.ctxs id c }
    let n := if l.ticket ∧ l.mergePc = n.postcode then
        n.modOffice fun o => { o with tickets := o.tickets ++ [⟨l.retPc, l.ticketId, p, l.key, l.deadline⟩] }
      else n
    let n := forEach (shareParts homes toks) n fun n x => (n.newShare (mk x)).2
    match n.office.shares.find? fun s => s.ctx == id && s.sheet == lead with
    | some s => n.collectShare s w.at'
    | none => n

/-! ## Anchors (R80, R84, R136, R429) -/

/-- The copies an anchor sends: node, coverage and steps of each, in ascending order of first ordinal. -/
def anchorCopies (p : Nat) (pcs toks : List (Nat × Nat)) : List (Nat × (Bool × List Nat) × List Nat) :=
  let copies := (distinct ((pcs ++ toks).map Prod.snd)).flatMap fun pc =>
    (nodeCopies p ((pcs.filter fun x => x.2 == pc).map Prod.fst) ((toks.filter fun x => x.2 == pc).map Prod.fst)).map
      fun c => (pc, c.1, c.2)
  sortOn (fun c => c.2.1.2.headD 0) copies

/-- An anchored letter refused before its coverage is translated (R80, R84): its cut-off has come, or its LETTER_ID is
reused. -/
def Node.anchorEarly (n : Node) (l : Letter) : Option Nat :=
  if l.deadline ≤ n.now + n.guardNow + l.retNs then some stExpired
  else if n.office.merges.any fun m => m.is false l.retPc l.letterId then some stConflict
  else none

/-- An anchored letter on its anchor sheet whose coverage is translated: its merge space, its copies (R80). -/
def Node.anchor (n : Node) (l : Letter) (r : SeqRec) (sheet entropy : Nat) : Node :=
  let p := r.partition
  let fail (n : Node) (st dt : Nat) : Node := n.answerWhole sheet l entropy p st dt true
  let pcs := l.ords.map fun o => (o, n.slotPc r (r.desc.slot l.layer l.kvHead o))
  let toks := l.appendSteps.map fun t => (t, n.slotPc r (r.desc.slot l.layer l.kvHead (t / r.desc.p)))
  let reach (x : Nat × Nat) : Bool := n.route sheet x.2 != .miss
  let lost := (pcs.filter fun x => !reach x).map Prod.fst
  let copies := anchorCopies r.desc.p (pcs.filter reach) (toks.filter reach)
  let bytes := copies.length * mergeBytes l.qcount l.dcode l.topk
  let need := framesNeeded l l.ords true
  if 255 < need then fail n stBadLength need
  else if n.share sheet p 3 * 1024 < n.mergeUse sheet p + bytes then
    fail (n.inc R.SO_HOLD_CNT_REFUSED (sheetBase sheet + 64 * p) 1) stRefused 0
  else
    let letters := copies.map fun c =>
      (c, encLetter { l.slice r.desc.p c.2.1.1 c.2.1.2 c.2.2 with
                        kind := 3, retPc := n.postcode, origin := l.retPc, ofmt := 1, finalise := false, anchored := false,
                        epoch := n.chart.epoch })
    let m : MergeCtx :=
      { ticket := false, requester := l.retPc, ident := l.letterId, sheet := sheet, partition := p,
        letterId := l.letterId, key := l.key, mailbox := l.mailbox, entropy := entropy, retNs := l.retNs,
        deadline := l.deadline, qcount := l.qcount, dcode := l.dcode, topk := l.topk, ofmt := l.ofmt,
        recipe := l.recipe, param := l.param, finalise := l.finalise, folded := r.desc.fmt.fold != 0,
        ords := if l.subtrees then l.trees.map (fun t => (t.2 * 2 ^ t.1, 2 ^ t.1)) else [(l.firstOrd, l.ordCount)],
        tFirst := 0, tCount := 0, records := failRecords stPageLost lost, bytes := bytes,
        copies := letters.map fun x => (x.1.1, x.2.length, x.1.2.1.2), details := [], live := true }
    let n := n.modOffice fun o => { o with merges := o.merges ++ [m] }
    let n := n.inc R.SO_MERGE_CNT_CONTEXTS (sheetBase sheet) 1
    let n := forEach letters n fun n x => n.sendFrom sheet (n.mkPkt x.1.1 l.deadline ptLetter 1 entropy x.2) p
    n.tryMerge false l.retPc l.letterId

/-! ## The route cache (R178) -/

/-- The slots of a letter whose leaf entries are read: those with a leaf of this node's own (R177). -/
def Node.walkKeys (n : Node) (l : Letter) (r : SeqRec) : List Nat :=
  (distinct (l.ords ++ l.appendSteps.map (· / r.desc.p))).filterMap fun o =>
    let k := leafKey r.desc.seq (r.desc.slot l.layer l.kvHead o)
    if (n.leaf k).st == .none then none else some k

/-- Is a slot's entry in a translation unit's route cache? -/
def Node.cached (n : Node) (sheet p k : Nat) : Bool :=
  n.office.routeCache.any fun e => e.sheet == sheet && e.partition == p && e.leafKey == k && e.epoch == n.chart.epoch

/-- Look slots up in the route cache, hits and misses counted: the slots to be walked. -/
def Node.lookUp (n : Node) (sheet p : Nat) (ks : List Nat) : List Nat × Node :=
  let miss := ks.filter fun k => !n.cached sheet p k
  (miss, (n.inc R.XL_RC_CNT_HITS (sheetBase sheet) (ks.length - miss.length)).inc R.XL_RC_CNT_MISSES (sheetBase sheet)
    miss.length)

/-- Anchored letters in a sheet's dispatch queue (R119). -/
def Node.anchorQueue (n : Node) (sheet : Nat) : Nat :=
  (n.office.walks.filter fun w => w.anchored && w.sheet == sheet).length

/-! ## The whole receipt of a letter (R63) -/

/-- Forward the ordinals and tokens of a letter whose leaf names another node, one copy for each target (R207, R209).
The copy keeps the letter's source, so that its key check is the one the requester would meet (log entry 25). -/
def Node.forwardLetter (n : Node) (l : Letter) (r : SeqRec) (sheet src entropy : Nat) (ords steps : List Nat) : Node :=
  let pcOf (o : Nat) : Nat := (n.slotForward r (r.desc.slot l.layer l.kvHead o)).getD 0
  forEach (distinct (ords.map pcOf ++ steps.map fun t => pcOf (t / r.desc.p))) n fun n pc =>
    let os := ords.filter fun o => pcOf o == pc
    let ts := steps.filter fun t => pcOf (t / r.desc.p) == pc
    forEach (nodeCopies r.desc.p os ts) n fun n c =>
      n.sendFrom sheet ⟨pc, src, l.deadline, ptLetter, 1, entropy, 0, false, encLetter (l.slice r.desc.p c.1.1 c.1.2 c.2)⟩
        r.partition

/-- A letter with its sequence: the parts are sized by the page tokens of the sequence. -/
def Node.readLetter (n : Node) (bs : Bytes) : Letter × Option SeqRec :=
  let l := decLetter bs 0
  match n.served? l.seq with
  | some r => (decLetter bs r.desc.p, some r)
  | none => (l, none)

/-- An anchored letter past its checks (R80, R136). An UNLOCKED node accepts it, since R40 refuses what would be newly
collected and an anchor collects nothing; while a step is pending R41 refuses every letter (DEDUCED, log entry 81). -/
def Node.anchorLetter (n : Node) (l : Letter) (r : SeqRec) (lead : Nat) (w : WalkWait) (look : Bool) : Node :=
  let fail (n : Node) (st : Nat) : Node := n.answerWhole lead l w.entropy r.partition st 0 true
  if n.time.stepBy.isSome then fail n stRefused
  else match n.anchorEarly l with
    | some st =>
      fail (if st = stExpired then n.inc R.SO_EXPIRE_CNT_EXPIRED (sheetBase lead + 64 * r.partition) 1 else n) st
    | none =>
      if look && decide (256 ≤ n.anchorQueue lead) then fail n stRefused
      else
        let (miss, n) := if look then n.lookUp lead r.partition (n.walkKeys l r) else ([], n)
        if miss = [] then n.anchor l r lead w.entropy
        else n.modOffice fun o => { o with walks := o.walks ++ [{ w with sheet := lead, anchored := true, keys := miss }] }

/-- A letter for this node's own pages, past its checks (R40, R63, R70, R209): what has moved away is forwarded, also where
the rest cannot be collected; the rest waits for its table walks or is split into shares. -/
def Node.pageLetter (n : Node) (l : Letter) (r : SeqRec) (lead : Nat) (w : WalkWait) (look : Bool) : Node :=
  let homes := n.localOrds l r
  let local' := homes.map Prod.fst
  let elsewhere := l.ords.filter fun o => !local'.contains o
  let fwdO := l.ords.filter (n.ordAway l r)
  let fwdT := l.appendSteps.filter fun t => n.ordAway l r (t / r.desc.p)
  let toks := (n.localToks l r).map fun t => (t.1, quadSheet (t.2.getD 0))
  let need := framesNeeded l local' (elsewhere == [])
  if 255 < need then n.answerWhole lead l w.entropy r.partition stBadLength need true
  else
    let stays : Bool := homes != [] || toks != []
    let (miss, n) := if look && stays && !n.noCollect then n.lookUp lead r.partition (n.walkKeys l r) else ([], n)
    if miss ≠ [] then
      n.modOffice fun o => { o with walks := o.walks ++ [{ w with sheet := lead, anchored := false, keys := miss }] }
    else
      let n := n.forwardLetter l r lead w.src w.entropy fwdO fwdT
      if !stays then n
      else if n.noCollect then
        n.answerWhole lead { l.slice r.desc.p false (l.ords.filter fun o => !fwdO.contains o) [] with
                               maskKind := l.maskKind, appendCount := l.appendCount } w.entropy r.partition stRefused 0 true
      else n.openLetter l r lead w homes toks elsewhere

/-- A letter on its ingress sheet: checked, then anchored or collected (R63, R121, R122). `look` when its translation still
has to meet the route cache. -/
def Node.handleLetter (n : Node) (w : WalkWait) (refuse look : Bool) : Node :=
  let (l, r) := n.readLetter w.bytes
  let keyed := n.keyOwner l.key
  let owner := match keyed with | some o => some o | none => r.map fun r => r.partition
  let lead := n.leadSheet l r owner w.ingress
  match n.letterVerdict w.bytes l r owner w.src refuse, r with
  | none, some r => if l.anchored then n.anchorLetter l r lead w look else n.pageLetter l r lead w look
  | v, r =>
    let (st, dt) := v.getD (stNotHome, 0)
    let n := if st = stKeyFault then
        ((n.crErr lead 0 (owner.getD 0) st 0 w.src).inc R.CR_FAULT_CNT_KEY_FAULT (sheetBase lead) 1).errorBp 6
      else n
    let n := match st == stNoQuota, r with
      | true, some r => n.allocFailed r (r.desc.slot l.layer l.kvHead (l.step / r.desc.p))
      | _, _ => n
    n.answerWhole lead l w.entropy (owner.getD 0) st dt (!(l.coverBad w.bytes r))

/-- Receive a letter on an ingress sheet (R121). `port` is its ingress port, 16 for none. -/
def Node.receiveLetter (n : Node) (ingress port src entropy : Nat) (bs : Bytes) (refuse : Bool) : Node :=
  n.handleLetter ⟨0, ingress, port, src, entropy, n.now, false, bs, []⟩ (refuse || !n.ready) true

end Sys2Proof.Machine
end

