-- ==== Sys2Proof/Machine/Tiers.lean ====
section
/-!
DEFINITION. Tiers on this node: heat (R197), tier-0 promotion (R137 to R139), staging releases (R125, R126).
-/

namespace Sys2Proof.Machine

/-! ## Heat (R197) -/

/-- The halving of every COUNT, at a tick whose number is a multiple of 2^HEAT_DECAY_LOG2, once. -/
def Node.heatDecay (n : Node) : Node :=
  let k := n.kNow
  if k % 2 ^ n.decayLog2 ≠ 0 ∨ n.mig.decayAt = k + 1 then n
  else
    let n := n.modMig fun m => { m with decayAt := k + 1 }
    forEach (mapKeys n.leaves) n fun n key => n.modLeaf key fun l => { l with heat := l.heat / 2 }

/-- The slots with an admitted row: COUNT and LAST_TICK; a SWAPPED page whose COUNT reaches SWAPIN_COUNT comes back
(R202). -/
def Node.heatRows (n : Node) : Node :=
  let keys := n.office.passes.foldl (fun acc p =>
    p.rows.foldl (fun acc r =>
      match mapFind? n.office.ctxs r.1 with
      | none => acc
      | some c =>
        let d := (n.seqRec c.letter.seq).desc
        insNat (leafKey d.seq (d.slot c.letter.layer c.letter.kvHead r.2.2)) acc) acc) []
  forEach keys n fun n k =>
    let n := n.modLeaf k fun l => { l with heat := min (l.heat + 1) 65535, lastTick := n.kNow }
    if (n.leaf k).st = .swapped ∧ n.swapinCount ≤ (n.leaf k).heat then n.startSwapIn k false else n

/-! ## Tier 0 (R115, R137 to R139) -/

/-- Bytes a copy takes in the T0 area: the occupied length and the bias area, each in whole 256 B. -/
def t0Bytes (h : PageHdr) : Nat :=
  ceilDiv h.occLen 256 * 256 + if h.bias then ceilDiv (2 * tokensOf h.tcode) 256 * 256 else 0

/-- Size of a core's T0 area. -/
def t0Area : Nat := 3584 * 1024

/-- Bytes a core's copies take. -/
def Node.t0Used (n : Node) (c : Nat) : Nat := (n.core c).t0.foldl (fun a e => a + e.2.size) 0

/-- Granules of tier-0 quota a partition uses. -/
def Node.t0Quota (n : Node) (p : Nat) : Nat :=
  (n.office.t0.filter fun e => e.2.partition == p).foldl (fun a e => a + e.2.granules * e.2.cores.length) 0

/-- The core that takes the next copy: most free area, lower index on a tie. -/
def Node.t0Core (n : Node) (quad size : Nat) (have' : List Nat) : Option Nat :=
  let cs := (n.usableCores quad).filter fun c => !have'.contains c && decide (n.t0Used c + size ≤ t0Area)
  lexFirst (fun c => [n.t0Used c, c]) cs

/-- The promoted page of a quad with the fewest admitted rows, lower frame on a tie. -/
def Node.t0Victim (n : Node) (quad f : Nat) : Option Nat :=
  lexFirst (fun x => [mapGetD 0 n.rowsNow x, x])
    ((mapKeys n.office.t0).filter fun x => frameQuad x == quad && x != f)

/-- The bytes a new tier-0 copy is written from: the staged copy once it has landed, else a copy that stands already; none
yet while the page is still landing (R138). -/
def Node.t0Source (n : Node) (f : Nat) (cores : List Nat) : Bytes :=
  match mapFind? n.office.staged f with
  | some e => if e.landed then e.data else []
  | none => ((cores.filterMap fun c => mapFind? (n.core c).t0 f).headD default).data

/-- A page that has landed is written to the copies that wait for it (R138). -/
def Node.fillT0 (n : Node) (f : Nat) : Node :=
  match mapFind? n.office.t0 f with
  | none => n
  | some t => forEach t.cores n fun n c =>
      n.modCore c fun x => { x with t0 := mapMod x.t0 f fun e => if e.data = [] then { e with data := n.t0Source f [] } else e }

/-- Make one copy, displacing a page with fewer rows where the page has PROMOTE_ROWS (R138, R139). -/
def Node.addCopy (n : Node) (p quad f G size : Nat) : Nat → Node
  | 0 => n.inc R.SO_T0_CNT_SKIPPED (sheetBase (quadSheet quad)) 1
  | fuel + 1 =>
    let t : T0Page := mapGet n.office.t0 f
    let core := if n.tierQuota p 0 < n.t0Quota p + G then none else n.t0Core quad size t.cores
    match core with
    | some c =>
      let t' : T0Page := { t with partition := p, granules := G, cores := t.cores ++ [c],
                                  usableAt := if t.cores = [] then n.kNow + 1 else t.usableAt, lastTick := n.kNow }
      let n := n.modOffice fun o => { o with t0 := mapInsert o.t0 f t' }
      let n := n.modCore c fun x =>
        { x with t0 := mapSet x.t0 f ⟨size, n.t0Source f t.cores⟩, zeroTo := min x.zeroTo 0x80000 }
      n.inc R.SO_T0_CNT_PROMOTED (sheetBase (quadSheet quad)) 1
    | none =>
      let rows := mapGetD 0 n.rowsNow f
      match n.t0Victim quad f with
      | some v =>
        if n.promoteRows ≤ rows ∧ mapGetD 0 n.rowsNow v < rows then (n.dropT0 v).addCopy p quad f G size fuel
        else n.inc R.SO_T0_CNT_SKIPPED (sheetBase (quadSheet quad)) 1
      | none => n.inc R.SO_T0_CNT_SKIPPED (sheetBase (quadSheet quad)) 1

/-- Promote the frames that had rows in this tick; a promoted page gains copies up to the same count (R137, R138). -/
def Node.promote (n : Node) : Node :=
  forEach (mapKeys n.rowsNow) n fun n f =>
    let ks := n.leavesOf f
    let rows := mapGetD 0 n.rowsNow f
    let good := ks.any fun k => (n.leaf k).st == .sealed
    let bad := ks.any fun k => (n.leaf k).poisoned
    let busy := decide (n.promoteRows ≤ rows) && decide (n.promoteRows ≤ mapGetD 0 n.rowsPrev f)
    let hot := decide (0 < rows) && ks.any fun k => (n.leaf k).hot
    if !good || bad || !(busy || hot || (mapFind? n.office.t0 f).isSome) then n
    else
      let k := ks.headD 0
      let h := n.hdr f
      let have' := (mapGet n.office.t0 f : T0Page).cores.length
      let want := min n.promoteCopies (ceilDiv rows 64)
      forEach (upTo (want - have')) n fun n _ =>
        n.addCopy (n.seqRec (keySeq k)).partition (frameQuad f) f (n.leaf k).count (t0Bytes h) (n.office.t0.length + 1)

/-- Copies of a partition above a lowered quota go, whole pages with the fewest rows first (R139). -/
def Node.trimT0 : Nat → Node → Nat → Node
  | 0, n, _ => n
  | fuel + 1, n, p =>
    if n.t0Quota p ≤ n.tierQuota p 0 then n
    else
      let fs := (n.office.t0.filter fun e => e.2.partition == p).map Prod.fst
      match lexFirst (fun x => [mapGetD 0 n.rowsNow x, x]) fs with
      | none => n
      | some f => (n.dropT0 f).trimT0 fuel p

/-- Copies of pages without admitted rows for 2^PROMOTE_IDLE_LOG2 ticks (R139). -/
def Node.idleT0 (n : Node) : Node :=
  forEach n.office.t0 n fun n e =>
    if n.promoteIdle ≤ n.kNow - 1 - e.2.lastTick then n.dropT0 e.1 else n

/-- The frames with admitted rows in the present tick were used in it (R139). -/
def Node.t0Used' (n : Node) : Node :=
  n.modOffice fun o => { o with t0 := mapAll (fun f t => if 0 < mapGetD 0 n.rowsNow f then { t with lastTick := n.kNow } else t) o.t0 }

/-- Copies of pages that left SEALED (R139), and copies that were never written because their page did not land. -/
def Node.staleT0 (n : Node) : Node :=
  forEach (mapKeys n.office.t0) n fun n f =>
    let ks := n.leavesOf f
    let written := (mapGet n.office.t0 f : T0Page).cores.all fun c => (mapGet (n.core c).t0 f : T0Copy).data != []
    if written && ks.any fun k => ((n.leaf k).st == .sealed || (n.leaf k).st == .moving) && !(n.leaf k).poisoned then n
    else n.dropT0 f

/-! ## Staging (R125, R126) -/

/-- The staging keys that collected and held shares name. -/
def Node.namedKeys (n : Node) : List Nat :=
  (n.office.shares.filter Share.waits).flatMap fun s =>
    match mapFind? n.office.ctxs s.ctx with
    | none => []
    | some c =>
      let r := n.seqRec c.letter.seq
      (s.ordinals r.desc.p).filterMap fun o =>
        n.stageKey r (r.desc.slot c.letter.layer c.letter.kvHead o) (s.appends.any fun t => t / r.desc.p == o)

/-- Release every staged copy that no share and no pass names any more. -/
def Node.releaseStaging (n : Node) : Node :=
  let keep := n.namedKeys ++ n.office.passes.map (·.frame)
  n.modOffice fun o => { o with staged := mapKeep (fun k _ => keep.contains k) o.staged }

/-- Start waiting fetches of a sheet in collection order, as each partition's credits allow; a partition that lacks
them waits as a whole (R125). -/
def Node.pumpStaging (n : Node) (sheet : Nat) : Node :=
  let ws := sortOn (fun e => e.2.order) (n.office.staged.filter fun e => e.2.sheet == sheet && e.2.waiting)
  (forEach ws (n, ([] : List Nat)) fun (acc : Node × List Nat) e =>
    let (n, blocked) := acc
    let s := e.2
    if blocked.contains s.partition then acc
    else if n.share sheet s.partition 2 < n.stageUsed sheet s.partition + s.granules then
      (n, s.partition :: blocked)
    else (n.modOffice fun o => { o with staged := mapSet o.staged e.1 { s with waiting := false } }, blocked)).1

/-- A reservation for a page that has a frame by now becomes the frame's. -/
def Node.adoptNew (n : Node) : Node :=
  forEach (n.office.staged.filter fun e => decide (2 ^ 121 ≤ e.1)) n fun n e =>
    let l := n.leaf (e.1 - 2 ^ 121)
    if n.inT1 l then
      n.modOffice fun o =>
        let m := mapErase o.staged e.1
        { o with staged := if (mapFind? m l.frame).isSome then m else mapSet m l.frame { e.2 with have' := 0, data := [] } }
    else n

end Sys2Proof.Machine
end

