-- ==== Sys2Proof/Machine/Append.lean ====
section
/-!
DEFINITION. Appended tokens: their checks against the page's watermark (R65), storing them (R66, R168), sealing (R171),
damaged pages (R159, R160).
-/

namespace Sys2Proof.Machine

/-- The rows that earlier parts of a tick add to pages, after those stored: by leaf key. -/
abbrev Ahead := Map (List (List Bytes))

/-- What the check of an append part finds: it may go ahead, it leaves a gap before a page's watermark, or a status
ends it. -/
inductive AppendCheck where
  | ok | gap (w : Nat) | stop (status detail : Nat)
  deriving DecidableEq, Repr

/-- The watermark of a page as DETAIL shows it. -/
def wOf (ord p count : Nat) : Nat := (ord * p + count + 2 ^ 32 - 1) % 2 ^ 32

/-- A token's rows as they are stored. -/
def Node.tokenRows (n : Node) (r : SeqRec) (l : Letter) (step : Nat) : List Bytes :=
  storeToken r.desc.fmt (n.foldTableD r.desc.foldTable) (afmtElem l.afmt) l.dcode (l.rowsAt step)

/-- The stored rows of a token in a frame. -/
def Node.storedRows (n : Node) (d : SeqDesc) (f t : Nat) : List Bytes :=
  (upTo (rowsOf d.dcode)).map fun i => n.hbmRead (frameAddr f + rowOff d.fmt d.dcode d.p t i) (rowBytes d.fmt d.dcode)

/-- Tokens a page holds. -/
def Node.tokenCount (n : Node) (l : Leaf) : Nat := if n.inT1 l then (n.hdr l.frame).tokenCount else 0

/-- Check one token (R65, R66, R160, R179). -/
def Node.tokenCheck (n : Node) (r : SeqRec) (l : Letter) (ahead : Ahead) (step : Nat) : AppendCheck :=
  let d := r.desc
  let o := step / d.p
  let slot := d.slot l.layer l.kvHead o
  let k := leafKey d.seq slot
  let lf := n.leaf k
  let extra := (mapFind? ahead k).getD []
  let compare (count : Nat) : AppendCheck :=
    let t := step % d.p
    if t < count + extra.length then
      if (if t < count then n.storedRows d lf.frame t else extra.getD (t - count) []) = n.tokenRows r l step then .ok
      else .stop stConflict 0
    else if t = count + extra.length then .ok
    else .gap (wOf o d.p count)
  if r.lostSlot slot then .stop stPoisoned 0
  else match lf.st with
  | .none =>
    match n.home r slot with
    | .fresh => compare 0
    | _ => .stop stNotHome 0
  | .allocated | .open | .sealed =>
    if lf.poisoned then .stop stPoisoned 0
    else
      let c := foldCheck (n.hdr lf.frame) (n.foldTable (n.hdr lf.frame).foldTable) r.partition
      if c ≠ 0 then .stop stFoldDamage c else compare (n.hdr lf.frame).tokenCount
  | s => .stop stBadState s.code

/-- Check a part's tokens in step order before anything changes; the rows it would add follow those ahead. -/
def Node.partCheck (n : Node) (r : SeqRec) (l : Letter) : List Nat → Ahead → AppendCheck × Ahead
  | [], ahead => (.ok, ahead)
  | s :: ss, ahead =>
    match n.tokenCheck r l ahead s with
    | .ok =>
      let k := leafKey r.desc.seq (r.desc.slot l.layer l.kvHead (s / r.desc.p))
      let extra := (mapFind? ahead k).getD []
      let new : Bool := s % r.desc.p == n.tokenCount (n.leaf k) + extra.length
      n.partCheck r l ss (if new then mapInsert ahead k (extra ++ [n.tokenRows r l s]) else ahead)
    | x => (x, ahead)

/-- The watermark of the first covered page that lacks a step at or below STEP; none when no page does (R65, R181). -/
def Node.attendGap (n : Node) (r : SeqRec) (l : Letter) (ords : List Nat) (ahead : Ahead) : Option Nat :=
  let d := r.desc
  if l.qcount = 0 then none
  else ords.findSome? fun o =>
    let slot := d.slot l.layer l.kvHead o
    let k := leafKey d.seq slot
    let lf := n.leaf k
    let count := n.tokenCount lf
    let known := count + ((mapFind? ahead k).getD []).length
    let need := if lf.refill then d.p else min (l.step + 1 - o * d.p) d.p
    let short : Bool := decide (o * d.p ≤ l.step) && decide (known < need)
    match lf.st with
    | .none => if (match n.home r slot with | .fresh => true | _ => false) && short then some (wOf o d.p count) else none
    | .allocated | .open => if lf.poisoned then none else if short then some (wOf o d.p count) else none
    | _ => none

/-- A page fails for the rest of the tick: its ordinals receive a status in every letter that covers it. -/
def Node.markBad (n : Node) (key st : Nat) : Node := n.modOffice fun o => { o with bad := mapInsert o.bad key st }

/-- A damaged page found by check `c` of R159: poisoned as a DEFERRED error with a FAULT record naming quad, first
granule and check; letters of this tick that cover it receive FOLD_DAMAGE (R160). The status bit of an append's check is
set in the lowest usable core of the page's quad (DESIGN CHOICE, log entry 85). -/
def Node.damaged (n : Node) (f c p : Nat) : Node :=
  let n := n.markBad f stFoldDamage
  let core := (n.usableCores (frameQuad f)).headD (25 * frameQuad f)
  let n := n.coreErr core 4 [(R.CORE_ERR_PAGE_QUAD, frameQuad f), (R.CORE_ERR_PAGE_GRANULE, frameGran f)]
  (n.poisonPage f).faultRec (.quad (frameQuad f)) 2 0x01 4 (some p) (frameQuad f) (frameGran f) c

/-- The status with which a token's page takes no append: POISONED or FOLD_DAMAGE (R160, R179), with the failed check. -/
def Node.pageUnsound (n : Node) (r : SeqRec) (l : Letter) (step : Nat) : Option (Nat × Nat) :=
  match n.tokenCheck r l [] step with
  | .stop st dt => if st = stPoisoned ∨ st = stFoldDamage then some (st, dt) else none
  | _ => none

/-- The tokens whose pages are sound: the others are not applied (R160, R179). -/
def Node.soundSteps (n : Node) (r : SeqRec) (l : Letter) (steps : List Nat) : List Nat :=
  steps.filter fun s => (n.pageUnsound r l s).isNone

/-- The damaged pages that an append part names, each poisoned and reported once (R160). -/
def Node.damageFound (n : Node) (r : SeqRec) (l : Letter) (steps : List Nat) : Node :=
  forEach steps n fun n s => match n.pageUnsound r l s with
    | some (st, c) =>
      if st = stFoldDamage then
        n.damaged (n.leaf (leafKey r.desc.seq (r.desc.slot l.layer l.kvHead (s / r.desc.p)))).frame c r.partition
      else n
    | none => n

/-- Write the rows of one token into its frame and rewrite the header (R168). -/
def Node.storeRows (n : Node) (r : SeqRec) (f step : Nat) (rows : List Bytes) : Node :=
  let d := r.desc
  let n := forEach rows.zipIdx n fun n x =>
    n.hbmStore (frameAddr f + rowOff d.fmt d.dcode d.p (step % d.p) x.2) x.1
  n.modHdr f fun h => hdrAppend (n.foldTableD d.foldTable) h rows

/-- The page of a slot is full: it seals, and the hash engine starts (R66, R171). -/
def Node.sealPage (n : Node) (k f : Nat) : Node :=
  let n := n.modHdr f fun h => { h with sealSt := 1, sealTick := n.kNow }
  (n.changeLeaf k fun l => { l with st := .sealed, refill := false }).modOffice fun o =>
    { o with hashing := o.hashing ++ [k] }

/-- Store one token that its check passed: a repeat does nothing; a page that is not there is allocated first. None
when the allocation fails (R180). -/
def Node.appendToken (n : Node) (r : SeqRec) (l : Letter) (step : Nat) : Option Node :=
  let d := r.desc
  let slot := d.slot l.layer l.kvHead (step / d.p)
  let k := leafKey d.seq slot
  let made := if (n.leaf k).st = .none then n.allocPage r slot else some n
  made.map fun n =>
    let f := (n.leaf k).frame
    if step % d.p ≠ (n.hdr f).tokenCount then n
    else
      let n := n.storeRows r f step (n.tokenRows r l step)
      if (n.hdr f).tokenCount = d.p then n.sealPage k f
      else if (n.leaf k).st = .open then n
      else n.changeLeaf k fun x => { x with st := .open }

/-- Store a part's tokens in step order. -/
def Node.appendPart (n : Node) (r : SeqRec) (l : Letter) : List Nat → Option Node
  | [] => some n
  | s :: ss => (n.appendToken r l s).bind fun n => n.appendPart r l ss

/-- A page that a part allocated takes over its reservation, which holds its staged copy (R125). -/
def Node.landNew (n : Node) (k : Nat) : Node :=
  let l := n.leaf k
  let key := newKey k
  if !n.inT1 l then n
  else match mapFind? n.office.staged key with
    | none => n
    | some e =>
      n.modOffice fun o =>
        { o with staged := mapSet (mapErase o.staged key) l.frame e,
                 passes := o.passes.map fun p => if p.frame = key then { p with frame := l.frame } else p }

/-- The appended rows reach the staged copy of their page as well (R126): what has landed is what the frame holds. -/
def Node.restage (n : Node) (k : Nat) : Node :=
  let f := (n.leaf k).frame
  if !n.inT1 (n.leaf k) then n
  else n.modOffice fun o => { o with staged := mapMod o.staged f fun e => { e with data := n.hbmRead (frameAddr f) (e.have' * 4096) } }

end Sys2Proof.Machine
end

