-- ==== Sys2Proof/Machine/Admission.lean ====
section
/-!
DEFINITION. Admission at a boundary: re-handling of shares whose pages moved (R124), the checks and the cost model (R53,
R65, R128 to R132), applying the appended tokens and dispatching the passes (R66, R134).
-/

namespace Sys2Proof.Machine

/-! ## What a covered page is to a share at the boundary -/

/-- A covered page at the boundary: it fails with a reason, no key of it is visible, or passes read it. -/
inductive PageUse where
  | fail (reason : Nat)
  | ident
  | pass (quad key leaf : Nat)
  deriving DecidableEq, Repr

/-- Classify a covered ordinal (R74, R160, R179, R186, R196, R201, R429). -/
def Node.pageUse (n : Node) (r : SeqRec) (l : Letter) (o : Nat) : PageUse :=
  let d := r.desc
  let slot := d.slot l.layer l.kvHead o
  let k := leafKey d.seq slot
  let lf := n.leaf k
  let early : Bool := decide (l.step < o * d.p)
  let bad (key : Nat) : Nat := mapGetD 0 n.office.bad key
  if r.lostSlot slot then .fail stPoisoned
  else match lf.st with
    | .none =>
      match n.home r slot with
      | .fresh => if early then .ident else .pass ((n.placeQuad r slot).getD 0) (newKey k) k
      | _ => .fail stNotHome
    | .dropped => .fail stDonePartial
    | .redirect => .fail stNotHome
    | _ =>
      if n.inT1 lf && bad lf.frame != 0 then .fail (bad lf.frame)
      else if lf.poisoned then .fail stPoisoned
      else if n.inT1 lf then
        if (n.quad lf.quad).st = .offline then .fail stPageLost
        else if lf.st = .allocated && early then .ident
        else .pass lf.quad lf.frame k
      else if n.inLow k lf then
        let q := (n.placeQuad r slot).getD ((n.partQuads r.partition).headD 0)
        if bad (lowKey k) ≠ 0 then .fail (bad (lowKey k)) else .pass q (lowKey k) k
      else .fail stNotHome

/-! ## The cost model (R128 to R131) -/

/-- What admission has committed so far in a tick. -/
structure Adm where
  committed : Map Nat           -- cycles by core
  fetch     : Map Nat           -- fetch granules by quad
  merge     : Map Nat           -- merge cycles by quad
  seen      : List Nat          -- pages already in the tick's pigeonholes
  passes    : List Pass
  slots     : Map Nat           -- admitted shares, by sheet × 32 + partition
  owed      : List Nat          -- partitions with an allocation that failed: their policy has still to run
  deriving DecidableEq, Repr, Inhabited

/-- The pass key of a letter (R128). -/
def Letter.passKey (l : Letter) : PassKey := ⟨l.recipe, l.scale, l.param, l.qcompute, l.bias, l.topk, l.scoresOnly⟩

/-- FETCH_GRANULES (R130). -/
def Node.fetchGranules (n : Node) : Nat := n.time.period * 12288 / 10 / 4096

/-- Merge cycles of a pass (R131). -/
def mergeCycles (l : Letter) : Nat := ceilDiv (64 * (dOut l.dcode + 2 + 2 * l.topk)) 512

/-- Parts of a page: halve the tile tree until each costs at most the budget (R129). -/
def splitTiles (budget dcode : Nat) (key : PassKey) (folded : Bool) : Nat → Nat → Nat
  | 0, t => t
  | fuel + 1, t => if passCycles t dcode key folded ≤ budget ∨ t ≤ 1 then t else splitTiles budget dcode key folded fuel (t / 2)

/-- Charge a page new to the tick's pigeonholes: it needs its reservation, and a page of a lower tier must be wholly
staged; its granules not staged at the boundary are fetched. None holds the share. -/
def Node.chargePage (n : Node) (a : Adm) (quad key : Nat) : Option Adm :=
  if a.seen.contains key then some a
  else match mapFind? n.office.staged key with
    | none => none
    | some s =>
      if s.waiting || (s.lower && !s.landed) then none
      else
        let g := mapGetD 0 a.fetch quad + (s.granules - s.have')
        if n.fetchGranules < g then none
        else some { a with seen := key :: a.seen, fetch := mapInsert a.fetch quad g }

/-- The core with the fewest committed cycles, lower index on a tie. -/
def Adm.freest (a : Adm) (cs : List Nat) : Option Nat := lexFirst (fun c => [mapGetD 0 a.committed c, c]) cs

/-- The core and kind of a new pass: a core with a tier-0 copy first, else any usable core of the quad at the cost of
a T1 page (R131). -/
def Node.placePass (n : Node) (a : Adm) (quad key cycles : Nat) : Option (Nat × Bool × Adm) :=
  let fits (c : Nat) : Bool := decide (mapGetD 0 a.committed c + cycles ≤ n.budget)
  let t0 := match mapFind? n.office.t0 key with
    | none => []
    | some t => if t.usableAt ≤ n.kNow then
        t.cores.filter fun c => n.coreUsable c && (mapGet (n.core c).t0 key : T0Copy).data != []
      else []
  match (a.freest t0).filter fits with
  | some c => some (c, true, a)
  | none =>
    match (a.freest (n.usableCores quad)).filter fits with
    | none => none
    | some c => if t0.contains c then some (c, true, a) else (n.chargePage a quad key).map fun a => (c, false, a)

/-- Put query rows into the open passes of a group, in order; the rows that are left. -/
def fillPasses (same : Pass → Bool) : List Pass → List (Nat × Nat × Nat) → List Pass × List (Nat × Nat × Nat)
  | [], rows => ([], rows)
  | p :: ps, rows =>
    if same p then
      let room := 64 - p.rows.length
      let (ps, left) := fillPasses same ps (rows.drop room)
      ({ p with rows := p.rows ++ rows.take room } :: ps, left)
    else
      let (ps, left) := fillPasses same ps rows
      (p :: ps, left)

/-- New passes for the rows left over. -/
def Node.newPasses (n : Node) (a : Adm) (l : Letter) (quad key leaf lo tiles cycles : Nat) :
    Nat → List (Nat × Nat × Nat) → Option Adm
  | _, [] => some a
  | 0, _ :: _ => none
  | fuel + 1, rows =>
    match n.placePass a quad key cycles with
    | none => none
    | some (c, t0, a) =>
      let m := mapGetD 0 a.merge quad + mergeCycles l
      if n.budget < m then none
      else
        let p : Pass := { core := c, frame := key, seqKey := leaf, key := l.passKey, rows := rows.take 64, lo := lo,
                          tiles := tiles, cycles := cycles, running := false, startAt := 0, bias := [], fromT0 := t0, masks := [] }
        n.newPasses { a with committed := mapInsert a.committed c (mapGetD 0 a.committed c + cycles),
                             merge := mapInsert a.merge quad m, passes := a.passes ++ [p] }
          l quad key leaf lo tiles cycles fuel (rows.drop 64)

/-- Place the rows of one covered page, part by part. -/
def Node.admitPage (n : Node) (d : SeqDesc) (l : Letter) (ctx o quad key leaf : Nat) (a : Adm) : Option Adm :=
  let all := d.p / 64
  let folded : Bool := d.fmt.fold != 0
  let tiles := splitTiles n.budget d.dcode l.passKey folded 8 all
  let cycles := passCycles tiles d.dcode l.passKey folded
  let rows := (upTo l.qcount).map fun j => (ctx, j, o)
  let a? := if (mapFind? n.office.t0 key).isSome then some a else n.chargePage a quad key
  a?.bind fun a =>
    (upTo (all / max tiles 1)).foldl (fun (acc : Option Adm) i =>
      acc.bind fun a =>
        let lo := i * tiles
        let same (p : Pass) : Bool := p.frame == key && p.key == l.passKey && p.lo == lo
        let (ps, left) := fillPasses same a.passes rows
        n.newPasses { a with passes := ps } l quad key leaf lo tiles cycles 4 left) (some a)

/-- admit(s) of R131: none is `return hold`. An APPEND letter runs no pass; its pages are charged. -/
def Node.admitShare (n : Node) (s : Share) (c : LetterCtx) (uses : List (Nat × PageUse)) (a : Adm) : Option Adm :=
  let slot := s.sheet * 32 + s.partition
  if n.share s.sheet s.partition 0 ≤ mapGetD 0 a.slots slot then none
  else
    let d := (n.seqRec c.letter.seq).desc
    (uses.foldl (fun (acc : Option Adm) u =>
      acc.bind fun a =>
        match u.2 with
        | .pass quad key leaf => n.admitPage d c.letter s.ctx u.1 quad key leaf a
        | _ => some a) (some a)).map fun a => { a with slots := mapInsert a.slots slot (mapGetD 0 a.slots slot + 1) }

/-! ## Re-handling (R124) -/

/-- A share's ordinals and tokens whose page left its quad, or this node, since they were collected. A page that stays on
the node without a frame (dropped, freed) keeps its place: its state gives the outcome. -/
def Node.movedOut (n : Node) (r : SeqRec) (s : Share) (l : Letter) (o : Nat) : Bool :=
  let now := n.slotQuad r (r.desc.slot l.layer l.kvHead o)
  (n.leaf (leafKey r.desc.seq (r.desc.slot l.layer l.kvHead o))).st != .dropped &&
    ((s.homes.find? fun h => h.1 == o).map Prod.snd) != some (now.getD 1024)

/-- Handle what left its pigeonhole as if it had arrived at the boundary: pages that moved to another node are forwarded,
pages that moved to another quad are collected there, pages without a home fail with NOT_HOME; a token without one ends
the letter. The rest of the share stays as it is. -/
def Node.rehandle (n : Node) (r : SeqRec) (s : Share) (c : LetterCtx) : Node :=
  let l := c.letter
  let moved := n.movedOut r s l
  let mO := s.ords.filter moved
  let mT := s.appends.filter fun t => moved (t / r.desc.p)
  let away := n.ordAway l r
  let sheetOf (o : Nat) : Option Nat := (n.slotQuad r (r.desc.slot l.layer l.kvHead o)).map quadSheet
  let lost := mO.filter fun o => !away o && (sheetOf o).isNone
  let lostT := mT.filter fun t => !away (t / r.desc.p) && (sheetOf (t / r.desc.p)).isNone
  if lostT ≠ [] then n.failLetter s.ctx stNotHome 0
  else
    let fwdO := mO.filter away
    let n := n.forwardLetter l r s.sheet c.source c.entropy fwdO (mT.filter fun t => away (t / r.desc.p))
    let n := n.modCtx s.ctx fun c =>
      { c with elsewhere := c.elsewhere ++ fwdO, fails := c.fails ++ lost.map fun o => (o, stNotHome) }
    let parts := shareParts (mO.filterMap fun o => if away o then none else (sheetOf o).map fun x => (o, x))
      (mT.filterMap fun t => if away (t / r.desc.p) then none else (sheetOf (t / r.desc.p)).map fun x => (t, x))
    let keepO := s.ords.filter fun o => !mO.contains o
    let keepT := s.appends.filter fun t => !mT.contains t
    let n := if keepO = [] ∧ keepT = [] then n.dropShare s
      else n.modShare s fun x => { x with ords := keepO, appends := keepT }
    let n := forEach parts n fun n x =>
      let (s', n) := n.newShare { s with sheet := x.1, ords := x.2.1, appends := x.2.2, travelling := false }
      n.collectShare s' n.now
    if (mapFind? n.office.ctxs s.ctx).isSome then n.tryAnswer s.ctx else n

/-- Re-handle every collected or held share some of whose pages have moved; a share whose sequence has closed fails. -/
def Node.rehandleAll (n : Node) : Node :=
  forEach (n.office.shares.filter Share.waits) n fun n s =>
    match mapFind? n.office.ctxs s.ctx with
    | none => n
    | some c => match n.served? c.letter.seq with
      | none => n.failShare s stNotHome 0
      | some r => if (s.ordinals r.desc.p).any (n.movedOut r s c.letter) then n.rehandle r s c else n

/-! ## One round of admission (R131, R132) -/

/-- The shares due at a boundary, halted partitions' apart, in queue order: by sheet, partition, held first, collection time, ingress port,
arrival. A share is due when its tick, as a signed 48-bit difference (R44), is not later than the present one. -/
def Node.dueShares (n : Node) : List Share :=
  let due := n.office.shares.filter fun s => s.waits && decide (tickDiff s.tick n.kNow ≤ 0) && !n.haltedPart s.partition
  let order := sortOn (fun s => s.arrival) due
  let order := sortOn (fun s => s.port) order
  let order := sortOn (fun s => s.at') order
  let order := order.filter (·.held) ++ order.filter fun s => !s.held
  sortOn (fun s => s.sheet * 32 + s.partition) order

/-- A share is held over to the next boundary once; a share held before is refused, or ends its letter with BAD_STATE when
a step is still missing (R65, R132). -/
def Node.holdShare (n : Node) (s : Share) (gap : Option Nat) : Node :=
  let b := sheetBase s.sheet + 64 * s.partition
  match s.held, gap with
  | false, _ =>
    (n.inc R.SO_HOLD_CNT_HELD b 1).modShare s fun x =>
      { x with admitted := false, held := true, gapHeld := gap.isSome, tick := (n.kNow + 1) % 2 ^ 48 }
  | true, some w => n.failLetter s.ctx stBadState w
  | true, none => (n.inc R.SO_HOLD_CNT_REFUSED b 1).failShare s stRefused 0

/-- What the checks of R63 from NO_QUOTA to the step gap say of a letter. -/
inductive LetterCheck where
  | ok | gap (w : Nat) | stop (status detail : Nat)
  deriving DecidableEq, Repr

/-- The tokens of a letter's append part that are still to be stored here. -/
def Node.openTokens (n : Node) (ctx : Nat) : List Nat :=
  sortOn id ((n.office.shares.filter fun s => s.ctx == ctx && s.open').flatMap (·.appends))

/-- The append part of one letter, checked whole before anything changes (R65): the verdict, and the rows its due tokens
put ahead of later parts. A token of a damaged or poisoned page is not applied; an APPEND letter completes with the
status (R160, R179). -/
def Node.appendVerdict (n : Node) (c : LetterCtx) (ctx : Nat) (due : List Nat) (ahead : Ahead) : LetterCheck × Ahead :=
  let r := n.seqRec c.letter.seq
  let all := n.openTokens ctx
  match (if c.letter.kind = 2 then all.findSome? fun s => n.pageUnsound r c.letter s else none) with
  | some (st, _) => (.stop st 0, ahead)
  | none =>
    if n.letterNoQuota c.letter r all then (.stop stNoQuota 0, ahead)
    else match (n.partCheck r c.letter (n.soundSteps r c.letter all) ahead).1 with
      | .stop st dt => (.stop st dt, ahead)
      | .gap w => (.gap w, ahead)
      | .ok => (.ok, (n.partCheck r c.letter (n.soundSteps r c.letter due) ahead).2)

/-- The verdicts on every letter due, in ascending step order of the append parts (R66), and the rows all of them add. -/
def Node.project (n : Node) (due : List Share) : List (Nat × LetterCheck) :=
  let ctxs := sortOn (fun x => ((due.filter fun s => s.ctx == x).flatMap (·.appends)).headD 0) (distinct (due.map (·.ctx)))
  let acc := ctxs.foldl (fun (acc : List (Nat × LetterCheck) × Ahead) x =>
    match mapFind? n.office.ctxs x with
    | none => acc
    | some c =>
      let toks := sortOn id ((due.filter fun s => s.ctx == x).flatMap (·.appends))
      if toks = [] then (acc.1 ++ [(x, .ok)], acc.2)
      else
        let (v, ahead) := n.appendVerdict c x toks acc.2
        (acc.1 ++ [(x, v)], ahead)) ([], [])
  acc.1.map fun v => match v.2, mapFind? n.office.ctxs v.1 with
    | .ok, some c =>
      let r := n.seqRec c.letter.seq
      let ords := (sortOn id ((due.filter fun s => s.ctx == v.1).flatMap (·.ords))).filter fun o =>
        match n.pageUse r c.letter o with | .fail _ => false | _ => true
      match n.attendGap r c.letter ords acc.2 with
      | some w => (v.1, .gap w)
      | none => v
    | _, _ => v

/-- The deadline check and admit(s). The reasons of the pages that fail are those of this trial. -/
def Node.admitOrHold (n : Node) (c : LetterCtx) (s : Share) (a : Adm) : Node × Adm :=
  let l := c.letter
  let uses := s.ords.map fun o => (o, n.pageUse (n.seqRec l.seq) l o)
  if l.deadline < n.boundary (n.kNow + 1) + n.guardNow then
    ((n.inc R.SO_EXPIRE_CNT_EXPIRED (sheetBase s.sheet + 64 * s.partition) 1).failShare s stExpired 0, a)
  else match n.admitShare s c uses a with
    | none => (n.holdShare s none, a)
    | some a =>
      let fails := uses.filterMap fun u => match u.2 with | .fail st => some (u.1, st) | _ => none
      let n := n.modCtx s.ctx fun c =>
        { c with fails := (c.fails.filter fun f => !s.ords.contains f.1 || f.2 == stNotHome) ++
                   fails.filter fun f => !(c.fails.any fun g => g.1 == f.1 && g.2 == stNotHome) }
      (n.modShare s fun x => { x with admitted := true, tick := n.kNow % 2 ^ 48 }, a)

/-- Try one share: the checks of R63 from NO_QUOTA on, whose verdict is the letter's, then the cost model. -/
def Node.tryShare (n : Node) (checks : List (Nat × LetterCheck)) (a : Adm) (s : Share) : Node × Adm :=
  match mapFind? n.office.ctxs s.ctx with
  | none => (n, a)
  | some c =>
    let r := n.seqRec c.letter.seq
    let n := n.damageFound r c.letter s.appends
    match ((checks.find? fun x => x.1 == s.ctx).map Prod.snd).getD .ok with
    | .stop st dt =>
      let n := if st = stNoQuota then
          n.allocFailed r (r.desc.slot c.letter.layer c.letter.kvHead (s.appends.headD c.letter.step / r.desc.p))
        else n
      (n.failLetter s.ctx st dt, if st = stNoQuota then { a with owed := insNat r.partition a.owed } else a)
    | .gap w => (n.holdShare s (some w), a)
    | .ok => n.admitOrHold c s a

/-! ## After admission -/

/-- Take an admitted share back: its rows leave the passes. -/
def Node.unadmit (n : Node) (s : Share) : Node :=
  let n := n.modOffice fun o =>
    { o with passes := (o.passes.map fun p =>
               { p with rows := p.rows.filter fun r => !(r.1 == s.ctx && s.ords.contains r.2.2) }).filter fun p =>
               p.rows ≠ [] }
  n.modShare s fun x => { x with admitted := false }

/-- The shares of a letter admitted at the present boundary. -/
def Node.takenOf (n : Node) (ctx : Nat) : List Share :=
  n.office.shares.filter fun s => s.ctx == ctx && s.admitted && !s.ended && s.tick == n.kNow % 2 ^ 48

/-- A letter admitted at this boundary turns out to lack a step: its shares are held, or it ends with BAD_STATE (R65). -/
def Node.holdLetter (n : Node) (ctx w : Nat) : Node :=
  forEach (n.takenOf ctx) n fun n s =>
    if (mapFind? n.office.ctxs ctx).isSome then (n.unadmit s).holdShare s (some w) else n

/-- Store the append part of one letter: none when an allocation fails. -/
def Node.storePart (n : Node) (r : SeqRec) (l : Letter) (steps : List Nat) : Option Node :=
  (n.appendPart r l steps).map fun n =>
    forEach (distinct (steps.map fun t => leafKey r.desc.seq (r.desc.slot l.layer l.kvHead (t / r.desc.p)))) n fun n k =>
      (n.landNew k).restage k

/-- Apply the append parts of the letters admitted in ascending step order (R66), each whole or not at all, the policy
running once for a partition whose allocation fails (R180, R199). `ran` lists the partitions whose policy has run. -/
def Node.applyParts (n : Node) (ran : List Nat) (shares : List Share) : Node × List Nat :=
  let toks (x : Nat) : List Nat := sortOn id ((shares.filter fun s => s.ctx == x).flatMap (·.appends))
  let ctxs := (distinct (shares.map (·.ctx))).filter fun x => toks x ≠ []
  (sortOn (fun x => (toks x).headD 0) ctxs).foldl (fun acc x =>
    let (n, ran) := acc
    match mapFind? n.office.ctxs x with
    | none => acc
    | some c =>
      let r := n.seqRec c.letter.seq
      let steps := n.soundSteps r c.letter (toks x)
      match (n.partCheck r c.letter steps []).1 with
      | .gap w => (n.holdLetter x w, ran)
      | .stop st dt => (n.failLetter x st dt, ran)
      | .ok => match n.storePart r c.letter steps with
        | some n => (n, ran)
        | none =>
          let (n, ran) := if ran.contains r.partition then (n, ran) else (n.relieve r.partition, r.partition :: ran)
          match n.storePart r c.letter steps with
          | some n => (n, ran)
          | none =>
            ((n.allocFailed r (r.desc.slot c.letter.layer c.letter.kvHead (steps.headD 0 / r.desc.p))).failLetter x stNoQuota 0,
              ran)) (n, ran)

/-- Letters whose step is still missing once the appends stand (R65). -/
def Node.lateGaps (n : Node) (shares : List Share) : Node :=
  forEach (distinct (shares.map (·.ctx))) n fun n x =>
    match mapFind? n.office.ctxs x with
    | none => n
    | some c =>
      let r := n.seqRec c.letter.seq
      let ords := (sortOn id ((n.takenOf x).flatMap (·.ords))).filter fun o =>
        match n.pageUse r c.letter o with | .fail _ => false | _ => true
      match n.attendGap r c.letter ords [] with
      | some w => n.holdLetter x w
      | none => n

/-- Committed cycles of a core by the passes that stand. -/
def Node.coreLoad (n : Node) (c : Nat) : Nat :=
  (n.office.passes.filter fun p => p.core == c).foldl (fun a p => a + p.cycles) 0

/-- Passes placed for a page that the append parts then allocated on another quad (R180) run on that quad's cores (R15); a
page on another sheet, or without room there, leaves its shares to the next boundary, which collects it anew (R124). -/
def Node.respill (n : Node) : Node :=
  forEach (n.office.passes.filter fun p => decide (p.frame < 2 ^ 120) && frameQuad p.frame != coreQuad p.core) n fun n p =>
    let q := frameQuad p.frame
    let c := lexFirst (fun c => [n.coreLoad c, c]) (n.usableCores q)
    match (c.filter fun c => decide (n.coreLoad c + p.cycles ≤ n.budget) && quadSheet q == p.core / 100) with
    | some c => n.modOffice fun o => { o with passes := o.passes.map fun x => if x = p then { x with core := c } else x }
    | none =>
      forEach (n.office.shares.filter fun s => s.admitted && p.rows.any fun r => r.1 == s.ctx && s.ords.contains r.2.2) n
        fun n s => (n.unadmit s).modShare s fun x => { x with tick := (n.kNow + 1) % 2 ^ 48 }

/-- The bias area of a frame as it stands (R170). -/
def Node.biasOf (n : Node) (d : SeqDesc) (f : Nat) : Bytes :=
  if d.bias then n.hbmRead (frameAddr f + biasOff d.fmt d.dcode d.p) (2 * d.p) else []

/-- Dispatch: counters, loads of quads, the granules each quad fetches, row counts by frame, the bias areas the passes
read. -/
def Node.dispatch (n : Node) (fetch : Map Nat) : Node :=
  let n := n.modOffice fun o =>
    { o with passes := o.passes.map fun p =>
        let d := (n.seqRec (keySeq p.seqKey)).desc
        if 2 ^ 120 ≤ p.frame then
          let data := (mapGet n.office.staged p.frame : Staged).data
          { p with bias := (data.drop (biasOff d.fmt d.dcode d.p)).take (if d.bias then 2 * d.p else 0) }
        else { p with bias := n.biasOf d p.frame } }
  let n := forEach n.office.passes n fun n p =>
    let b := sheetBase (p.core / 100) + 64 * (n.seqRec (keySeq p.seqKey)).partition
    ((n.inc R.SO_PASS_CNT_PASSES b 1).inc R.SO_ROWS_CNT_ROWS b p.rows.length).traceRec 1 (.core p.core)
      (some (n.seqRec (keySeq p.seqKey)).partition)
  let rows := n.office.passes.foldl (fun (m : Map Nat) p =>
    if p.lo = 0 ∧ p.frame < 2 ^ 120 then mapInsert m p.frame (mapGetD 0 m p.frame + p.rows.length) else m) []
  let n := { n with rowsPrev := n.rowsNow, rowsNow := rows }
  forEach n.quadList n fun n q =>
    let ps := n.office.passes.filter fun p => coreQuad p.core == q
    n.modQuad q fun x => { x with passes := ps.length, fetched := mapGetD 0 fetch q,
                                  load := (quadCores q).foldl (fun t c => t + n.coreLoad c) 0 }

/-- Shares that run no pass at all: their letters may be whole at once. -/
def Node.answerReady (n : Node) (shares : List Share) : Node :=
  forEach shares n fun n s => if (mapFind? n.office.ctxs s.ctx).isSome then n.tryAnswer s.ctx else n

/-- Shares of a halted partition stay collected; one whose deadline fails R53 for the next tick is EXPIRED (R404). -/
def Node.expireHalted (n : Node) : Node :=
  forEach (n.office.shares.filter fun s => s.waits && n.haltedPart s.partition) n fun n s =>
    match mapFind? n.office.ctxs s.ctx with
    | none => n
    | some c =>
      if c.letter.deadline < n.boundary (n.kNow + 1) + n.guardNow then
        (n.inc R.SO_EXPIRE_CNT_EXPIRED (sheetBase s.sheet + 64 * s.partition) 1).failShare s stExpired 0
      else n

/-- Boundary action 8 without the parts the host commands and the policy add: staging, re-handling, admission, appends,
dispatch, heat and promotion (R50, R124 to R139). -/
def Node.admission (n : Node) (ran : List Nat) : Node × List Nat :=
  let n := (n.idleT0.staleT0).adoptNew
  let n := n.releaseStaging
  let n := forEach n.sheetList n fun n s => n.pumpStaging s
  let n := n.rehandleAll.expireHalted
  let due := n.dueShares
  let checks := n.project due
  let (n, a) := due.foldl (fun (acc : Node × Adm) s => acc.1.tryShare checks acc.2 s) (n, (default : Adm))
  let n := n.modOffice fun o => { o with passes := a.passes.filter fun p => p.rows.any fun r => (mapFind? o.ctxs r.1).isSome }
  let taken (n : Node) : List Share := n.office.shares.filter fun s => s.admitted && due.any fun x => x.id == s.id
  let (n, ran) := n.applyParts ran (taken n)
  let n := (n.lateGaps (taken n)).respill
  let n := forEach (taken n) n fun n s =>
    (n.inc R.SO_LETTER_CNT_ADMITTED (sheetBase s.sheet + 64 * s.partition) 1).traceRec 0 (.sheet s.sheet) (some s.partition)
  let n := (n.dispatch a.fetch).heatRows.t0Used'
  let n := forEach (upTo 32) n fun n p => n.trimT0 n.office.t0.length p
  let n := n.promote
  let owed := a.owed.filter fun p => !ran.contains p
  let n := forEach owed n.heatDecay fun n p => n.relieve p
  (n.answerReady (taken n), owed ++ ran)

end Sys2Proof.Machine
end

