-- ==== Sys2Proof/Machine/Passes.lean ====
section
/-!
DEFINITION. Passes on the cores: recipe-step breakpoints (R407), the checks before the first tile (R109, R117, R159), what a
pass computes (R96 to R104), ABFT faults (R111 to R113), the close of a tick (R48), scratchpad and staging errors (R116,
R127), hangs and the level-2 reset (R413, R420).
-/

namespace Sys2Proof.Machine

/-! ## The bytes a pass reads -/

/-- The copy a pass reads: its core's tier-0 copy, or the staged copy as far as it has landed (R134). -/
def Node.passData (n : Node) (p : Pass) : Bytes :=
  if p.fromT0 then (mapGet (n.core p.core).t0 p.frame : T0Copy).data else (mapGet n.office.staged p.frame : Staged).data

/-- Bytes of the page a pass reads, from an offset. -/
def Node.passBytes (n : Node) (p : Pass) (off len : Nat) : Bytes := ((n.passData p).drop off).take len

/-- The header of the page a pass reads. -/
def Node.passHdr (n : Node) (p : Pass) : PageHdr := decPageHdr (n.passBytes p 0 256)

/-- The sequence a pass reads. -/
def Node.passSeq (n : Node) (p : Pass) : SeqRec := n.seqRec (keySeq p.seqKey)

/-- Have the tiles of a pass landed (R134): the header and every row of its tile range? -/
def Node.passLanded (n : Node) (p : Pass) : Bool :=
  let d := (n.passSeq p).desc
  let last := (p.lo + p.tiles) * 64 - 1
  let stop := (upTo (rowsOf d.dcode)).foldl (fun a i => max a (rowOff d.fmt d.dcode d.p last i + rowBytes d.fmt d.dcode)) 256
  decide (stop ≤ (n.passData p).length)

/-- Quad and granule as CORE_ERR_PAGE names the page of a pass. -/
def Node.passPage (n : Node) (p : Pass) : Nat × Nat :=
  if p.frame < 2 ^ 120 then (frameQuad p.frame, frameGran p.frame) else (coreQuad p.core, (n.leaf p.seqKey).granule)

/-! ## What a pass computes -/

/-- The query row of a letter in the form a page needs (R96). -/
def queryForm (l : Letter) (folded : Bool) (j : Nat) : List Num :=
  let q := qfmtElem l.qfmt
  let len := dKey l.dcode * q.width / 8
  let bs := (l.queries.drop (j * len)).take len
  if folded then rotatedForm q l.qcompute bs else plainForm q l.qcompute bs

/-- Is a BOUNDED row skipped (R109)? -/
def rowSkips (h : PageHdr) (l : Letter) (folded : Bool) (j : Nat) : Bool :=
  if l.recipe ≠ 4 ∨ h.boundInf then false
  else
    let bounds := (upTo (dKey l.dcode)).map fun i => boundF32 h.boundBase (bits h.bounds (4 * i) 4)
    flt (boundOf folded l.scale (queryForm l folded j) bounds) l.param

/-- One key of a page for a query row (R98 to R101). A token not appended, later than STEP or masked is not seen. -/
def Node.keyIn (n : Node) (p : Pass) (r : SeqRec) (h : PageHdr) (l : Letter) (mask : Bytes) (q : List Num) (o j t : Nat) :
    KeyIn :=
  let d := r.desc
  let f := d.fmt
  let tab := n.foldTableD d.foldTable
  let step := o * d.p + t
  let lm := if l.maskKind = 2 ∧ l.masked o then { l with maskFirst := o, maskCount := 1 } else l
  if h.tokenCount ≤ t ∨ l.step < step ∨ !maskBit lm mask d.p o j t then ⟨f32Zero, false, step, []⟩
  else
    let row (i : Nat) : List Block := readRow f tab (n.passBytes p (rowOff f d.dcode d.p t i) (rowBytes f d.dcode))
    let k := row 0
    let b : F32 := BitVec.ofNat 32 (leAt p.bias (2 * t) 2 * 65536)
    let v := if d.dcode = 5 then (k.flatMap Block.values).take 512 else (row 1).flatMap Block.values
    ⟨finalScore p.key (rawScore (f.fold != 0) q k) b, true, step, v⟩

/-- What a pass gives one query row: the partial of its tile range (R93, R102, R104). -/
def Node.passRow (n : Node) (p : Pass) (h : PageHdr) (id : Nat) (c : LetterCtx) (o j : Nat) : Partial :=
  let r := n.passSeq p
  let l := c.letter
  let folded := r.desc.fmt.fold != 0
  let d := if l.scoresOnly then 0 else dOut l.dcode
  if rowSkips h l folded j then identP d
  else
    let q := queryForm l folded j
    let mask := if l.maskKind = 2 then ((p.masks.find? fun m => m.1 == id && m.2.1 == o).map (·.2.2)).getD []
      else l.mask
    let tile (i : Nat) : Partial :=
      tilePartial p.key d ((span ((p.lo + i) * 64) 64).map fun t => n.keyIn p r h l mask q o j t)
    combineTree l.topk d p.tiles.log2 ((upTo p.tiles).map tile)

/-! ## Taking passes off -/

/-- Remove the running pass of a core, or its first one. -/
def dropPassOf (core : Nat) : List Pass → List Pass
  | [] => []
  | p :: ps => if p.core = core then ps else p :: dropPassOf core ps

/-- The pass a core runs. -/
def Node.running? (n : Node) (core : Nat) : Option Pass := n.office.passes.find? fun p => p.core == core && p.running
/-- The next pass in a core's queue. -/
def Node.nextPass? (n : Node) (core : Nat) : Option Pass := n.office.passes.find? fun p => p.core == core
/-- Change the passes. -/
def Node.modPasses (n : Node) (f : List Pass → List Pass) : Node := n.modOffice fun o => { o with passes := f o.passes }

/-- The letters of some passes. -/
def passCtxs (ps : List Pass) : List Nat :=
  ps.foldl (fun acc p => p.rows.foldl (fun acc r => insNat r.1 acc) acc) []

/-- Answer every letter of a list that is whole. -/
def Node.tryAnswers (n : Node) (ids : List Nat) : Node :=
  forEach ids n fun n id => if (mapFind? n.office.ctxs id).isSome then n.tryAnswer id else n

/-- One ordinal of a letter fails for a reason (R71, R74). -/
def Node.failOrd (n : Node) (ctx o st : Nat) : Node :=
  n.modCtx ctx fun c => if c.fails.any fun f => f.1 == o then c else { c with fails := c.fails ++ [(o, st)] }

/-- The cycles for which a running pass has held an array so far, counted as it is taken off (R118). -/
def Node.heldArray (n : Node) (p : Pass) : Node :=
  if p.running then n.inc R.CORE_BUSY_CYC_CYCLES (coreBase p.core) (min p.cycles (cyclesIn (n.now - p.startAt) n.power.op)) else n

/-- Every row of a pass fails for that page (R112): the ordinals it stands for, and the pass is gone. -/
def Node.failPass (n : Node) (p : Pass) (st : Nat) : Node :=
  let n := n.heldArray p
  let n := forEach p.rows n fun n r => n.failOrd r.1 r.2.2 st
  (n.modPasses (dropPassOf p.core)).tryAnswers (passCtxs [p])

/-- The ordinals of a page in the letters of the current tick: context and ordinal. -/
def Node.tickOrds (n : Node) (key : Nat) : List (Nat × Nat) :=
  (n.office.shares.filter fun s => s.admitted && !s.ended && s.tick == n.kNow % 2 ^ 48).flatMap fun s =>
    match mapFind? n.office.ctxs s.ctx with
    | none => []
    | some c =>
      let r := n.seqRec c.letter.seq
      (s.ords.filter fun o => n.stageKey r (r.desc.slot c.letter.layer c.letter.kvHead o) false == some key).map fun o =>
        (s.ctx, o)

/-- A page fails with a reason in every letter of the tick that covers it (R74, R127, R160): its passes are gone, and
letters whose rows have been computed already fail there too. -/
def Node.failPage (n : Node) (key st : Nat) : Node :=
  let hit := n.tickOrds key
  let ps := n.office.passes.filter fun p => p.frame == key
  let n := forEach ps n Node.heldArray
  let n := forEach hit n fun n x => n.failOrd x.1 x.2 st
  let n := forEach ps n fun n p => forEach p.rows n fun n r => n.failOrd r.1 r.2.2 st
  (n.modPasses fun l => l.filter fun p => p.frame != key).tryAnswers (distinct (hit.map Prod.fst ++ passCtxs ps))

/-- The page of a staging key is poisoned: its frame's leaves, or the leaf of a page in a lower tier. -/
def Node.poisonKey (n : Node) (key leaf : Nat) : Node :=
  if key < 2 ^ 120 then n.poisonPage key else n.changeLeaf leaf fun l => { l with poisoned := true }

/-! ## Breakpoints (R407) -/

/-- The breakpoints of a type that are enabled. -/
def Node.bpsOf (n : Node) (typ : Nat) : List (Nat × Bp) :=
  if n.sec.level < 3 then []
  else (upTo 8).filterMap fun k =>
    let b : Bp := mapGet n.dbg.bps k
    if bitAt b.ctl 0 && bits b.ctl 1 3 == typ then some (k, b) else none

/-- The recipe-step breakpoints a pass reaches among some steps. -/
def Node.stepHits (n : Node) (p : Pass) (steps : List Nat) : Nat :=
  if !n.inScope (n.passSeq p).partition then 0
  else (n.bpsOf 2).foldl (fun m x =>
    let a := x.2.a
    if bits a 0 4 == p.key.recipe && steps.contains (bits a 8 3) && (bitAt a 31 || bits a 16 10 == p.core)
    then m ||| 2 ^ x.1 else m) 0

/-- A recipe-step breakpoint hits: the sequencer freezes and the scope halts at the next boundary. -/
def Node.freeze (n : Node) (core hits : Nat) : Node :=
  (n.wantHalt 3 hits).modDebug fun d => { d with frozen := insNat core d.frozen }

/-- Does a LETTER breakpoint match a share? -/
def Bp.matchesShare (b : Bp) (s : Share) (c : LetterCtx) : Bool :=
  let l := c.letter
  let lo := bits b.c 0 24
  let cnt := bits b.c 24 24
  (b.a == 0 || b.a == l.seq) && (bitAt b.ctl 4 || bits b.b 0 16 == l.layer) && (bitAt b.ctl 5 || bits b.b 16 16 == l.kvHead) &&
    (cnt == 0 || s.ords.any fun o => decide (lo ≤ o) && decide (o < lo + cnt)) && srcOk (bits b.b 32 32) (bits b.c 48 6) c.source

/-- LETTER breakpoints at the boundary that would admit the shares due. -/
def Node.letterBps (n : Node) : Nat :=
  (n.bpsOf 1).foldl (fun m x =>
    let hit := n.dueShares.any fun s => n.inScope s.partition && match mapFind? n.office.ctxs s.ctx with
      | some c => x.2.matchesShare s c
      | none => false
    if hit then m ||| 2 ^ x.1 else m) 0

/-! ## Starting and completing a pass -/

/-- Is a core able to run its passes now? -/
def Node.coreRuns (n : Node) (c : Nat) : Bool :=
  (n.core c).mode == .normal && !(n.core c).stuck && !n.dbg.frozen.contains c

/-- A page that a core finds damaged (R117, R159, R160). -/
def Node.coreDamage (n : Node) (p : Pass) (check : Nat) : Node :=
  let (q, g) := n.passPage p
  let n := n.coreErr p.core 4 [(R.CORE_ERR_PAGE_QUAD, q), (R.CORE_ERR_PAGE_GRANULE, g)]
  let n := (n.markBad p.frame stFoldDamage).poisonKey p.frame p.seqKey
  let n := n.faultRec (.core p.core) 2 0x01 4 (some (n.passSeq p).partition) q g check
  (n.errorBp 3).failPage p.frame stFoldDamage

/-- The KEYED mask bits of a pass, and the rows whose bits are poisoned (R62, R411). -/
def Node.readMasks (n : Node) (p : Pass) : List (Nat × Nat × Bytes) × List (Nat × Nat) :=
  p.rows.foldl (fun acc r =>
    match mapFind? n.office.ctxs r.1 with
    | none => acc
    | some c =>
      let l := c.letter
      if l.maskKind ≠ 2 ∨ !l.masked r.2.2 ∨ acc.1.any fun m => m.1 == r.1 && m.2.1 == r.2.2 then acc
      else
        let a := n.maskAddr l c.p r.2.2
        let len := l.maskStride c.p
        (acc.1 ++ [(r.1, r.2.2, n.hbmRead a len)], if n.poisoned a len then acc.2 ++ [(r.1, r.2.2)] else acc.2)) ([], [])

/-- A core takes the next pass from its queue once the page header has landed (R134). -/
def Node.passStart (n : Node) (core : Nat) : Node :=
  match n.nextPass? core with
  | none => n
  | some p =>
    if p.running ∨ !n.coreRuns core ∨ (n.passData p).length < 256 then n
    else
      let h := n.passHdr p
      let r := n.passSeq p
      let folded := r.desc.fmt.fold != 0
      let check := foldCheck h (n.foldTable h.foldTable) r.partition
      if check ≠ 0 then n.coreDamage p check
      else
        let (masks, bad) := n.readMasks p
        let n := forEach bad n fun n b => n.failOrd b.1 b.2 stPoisoned
        let skips := (p.rows.filter fun row => match mapFind? n.office.ctxs row.1 with
          | some c => rowSkips h c.letter folded row.2.1
          | none => false).length
        let n := n.inc R.CORE_SKIP_CNT_COUNT (coreBase core) skips
        let p' := { p with running := true, startAt := n.now, masks := masks }
        let n := n.modPasses fun l => l.map fun x => if x.core = core ∧ x = p then p' else x
        let n := n.modCore core fun x => { x with scratch := [], zeroTo := 0 }
        let steps := if skips = p.rows.length then [0] else if p.key.scoresOnly then [0, 1, 2] else [0, 1, 2, 3]
        let hits := n.stepHits p' steps
        if hits = 0 then n else n.freeze core hits

/-! ### Checksum residues (R111 to R113) -/

/-- Does a pass make the comparison that an upset names: both arrays in range, the value array only where it runs? -/
def Node.compares (n : Node) (p : Pass) (u : Upset) : Bool :=
  let d := (n.passSeq p).desc.dcode
  decide (u.row < 64) && decide (u.tile < p.tiles) && decide (u.column ≤ 64) &&
    (if u.array = 0 then decide (u.block < dKey d / 32)
     else u.array == 1 && !p.key.scoresOnly && decide (u.block < 2) && decide (u.group < ceilDiv (dOut d) 64))

/-- The stored key row of a token in the blocks of R98; no blocks for a token not appended. -/
def Node.keyBlocks (n : Node) (p : Pass) (h : PageHdr) (t : Nat) : List Block :=
  let d := (n.passSeq p).desc
  if h.tokenCount ≤ t then []
  else readRow d.fmt (n.foldTableD d.foldTable) (n.passBytes p (rowOff d.fmt d.dcode d.p t 0) (rowBytes d.fmt d.dcode))

/-- The row operand and the 64 column operands of the comparison an upset names; an idle or skipped row takes part with
zero operands, as do idle columns. -/
def Node.comparison (n : Node) (p : Pass) (u : Upset) : List Num × List (List Num) :=
  let h := n.passHdr p
  let r := n.passSeq p
  let folded := r.desc.fmt.fold != 0
  let ts := span ((p.lo + u.tile) * 64) 64
  let idle : List Num × List (List Num) := (List.replicate 32 (.fin false 0 0), [])
  match p.rows[u.row]? with
  | none => idle
  | some (id, j, o) =>
    match mapFind? n.office.ctxs id with
    | none => idle
    | some c =>
      let l := c.letter
      if rowSkips h l folded j then idle
      else
        let q := queryForm l folded j
        if u.array = 0 then
          ((q.drop (32 * u.block)).take 32,
            ts.map fun t => (((n.keyBlocks p h t)[u.block]?).map fun b => b.elems).getD [])
        else
          let mask := if l.maskKind = 2 then ((p.masks.find? fun m => m.1 == id && m.2.1 == o).map (·.2.2)).getD []
            else l.mask
          let ks := ts.map fun t => n.keyIn p r h l mask q o j t
          let sc := tileScores ks
          let m := sc.foldl fmax f32NegInf
          if m == f32NegInf || sc.any fun s => isNaN s || s == f32PosInf then idle
          else
            (((tileProbs p.key sc m).drop (32 * u.block)).take 32,
              (span (64 * u.group) 64).map fun i =>
                ((ks.drop (32 * u.block)).take 32).map fun k => k.value.getD i (.fin false 0 0))

/-- The two residues of a comparison with an error in one of its columns: the checksum column's and the sum of the cells'.
Where an operand is a NaN or an infinity the spec states no residue: a free value, the same for both but for the error. -/
def Node.residues (n : Node) (p : Pass) (u : Upset) : Nat × Nat × Node :=
  let (a, cells) := n.comparison p u
  let lsb := accLsb u.array p.key.qcompute
  let out (e o : Nat) (n : Node) : Nat × Nat × Node :=
    if u.column = 64 then ((e + u.error) % 2 ^ 24, o, n) else (e, (o + u.error) % 2 ^ 24, n)
  match checkResidue lsb a cells, cellResidues lsb a cells with
  | some e, some o => out e o n
  | _, _ => let (v, n) := n.fresh; out (v % 2 ^ 24) (v % 2 ^ 24) n

/-- One ABFT fault: captured, counted and reported (R113). -/
def Node.abftFault (n : Node) (p : Pass) (u : Upset) (expected observed : Nat) : Node :=
  let (q, g) := n.passPage p
  let n := n.coreErr p.core 0
    [(R.CORE_ERR_INFO_ARRAY, u.array), (R.CORE_ERR_INFO_ROW, u.row), (R.CORE_ERR_INFO_BLOCK, u.block),
     (R.CORE_ERR_INFO_TILE, p.lo + u.tile), (R.CORE_ERR_INFO_EXPECTED, expected), (R.CORE_ERR_INFO_OBSERVED, observed),
     (R.CORE_ERR_PAGE_QUAD, q), (R.CORE_ERR_PAGE_GRANULE, g)]
  let n := (n.inc R.CORE_ABFT_CNT_COUNT (coreBase p.core) 1).modCore p.core fun x => { x with abftRun := min (x.abftRun + 1) 255 }
  ((n.fault (.core p.core) 3 0x01 0 (some (n.passSeq p).partition)).histCore p.core 0).errorBp 0

/-- The comparisons of a completing pass that fail, each an ABFT fault; was there one? -/
def Node.abft (n : Node) (p : Pass) (us : List Upset) : Bool × Node :=
  us.foldl (fun acc u =>
    if !acc.2.compares p u then acc
    else
      let (e, o, n) := acc.2.residues p u
      if e = o then (acc.1, n) else (true, n.abftFault p u e o)) (false, n)

/-- Hand a sound pass's partials to the merge units of its letters (R134, R135). -/
def Node.passDone (n : Node) (p : Pass) (h : PageHdr) : Node :=
  let r := n.passSeq p
  let folded := r.desc.fmt.fold != 0
  let out := p.rows.filterMap fun row => (mapFind? n.office.ctxs row.1).map fun c =>
    (row.1, rowSkips h c.letter folded row.2.1, (⟨row.2.2, row.2.1, p.lo, p.tiles, n.passRow p h row.1 c row.2.2 row.2.1⟩ : Piece))
  let n := forEach out n fun n x => n.modCtx x.1 fun c => { c with pieces := c.pieces ++ [x.2.2] }
  let live := (out.filter fun x => !x.2.1).length
  let b := coreBase p.core
  let n := n.inc R.CORE_PASS_CNT_PASSES b 1
  let n := n.inc R.CORE_BUSY_CYC_CYCLES b (if live = 0 then 16 else p.cycles)
  let n := n.inc R.CORE_ROWS_CNT_ROWS b live
  let n := if out.any fun x => x.2.2.part.nan then n.inc R.CORE_NAN_CNT_COUNT b 1 else n
  (n.modPasses (dropPassOf p.core)).tryAnswers (passCtxs [p])

/-- Does check 7 of R159 hold over the tokens a pass expands? -/
def Node.scalesOk (n : Node) (p : Pass) (h : PageHdr) : Bool :=
  let d := (n.passSeq p).desc
  let ts := (span (p.lo * 64) (p.tiles * 64)).filter (· < h.tokenCount)
  d.fmt.fold == 0 || scaleCheck h (ts.flatMap fun t => (upTo (rowsOf d.dcode)).map fun i =>
    n.passBytes p (rowOff d.fmt d.dcode d.p t i) (rowBytes d.fmt d.dcode))

/-- A pass completes once its tiles have landed (R104, R112, R134, R159); `upsets` are the errors in its arrays, in the order
in which the comparisons are made. -/
def Node.passComplete (n : Node) (core : Nat) (upsets : List Upset) : Node :=
  match n.running? core with
  | none => n
  | some p =>
    if !n.coreRuns core || !n.passLanded p then n
    else
      let hits := n.stepHits p [4]
      let bad := mapGetD 0 n.office.bad p.frame
      let h := n.passHdr p
      if hits ≠ 0 then n.freeze core hits
      else if bad ≠ 0 then n.failPass p bad
      else
        let (failed, n) := n.abft p upsets
        if failed then n.failPass p stInternal
        else if !n.scalesOk p h then n.coreDamage p 7
        else (n.traceRec 1 (.core core) none).passDone p h

/-! ## Closing a tick (R48) -/

/-- Cancel passes: each of their letters receives LATE with no partials. `overrun` when a boundary cancels them. -/
def Node.cancelPasses (n : Node) (ps : List Pass) : Node :=
  let cores := ps.foldl (fun acc p => insNat p.core acc) []
  let n := forEach ps n fun n p => (n.heldArray p).inc R.CORE_CANCEL_CNT_COUNT (coreBase p.core) 1
  let n := forEach cores n fun n c => n.coreErr c 3 []
  forEach (passCtxs ps) n fun n id =>
    match mapFind? n.office.ctxs id with
    | none => n
    | some _ =>
      (forEach (n.office.shares.filter fun s => s.ctx == id && !s.ended) n fun n s =>
        n.inc R.SO_EXPIRE_CNT_LATE (sheetBase s.sheet + 64 * s.partition) 1).failLetter id stLate 0

/-- The 100-bit mask of a sheet's cores with a cancelled pass. -/
def coreMask (sheet : Nat) (ps : List Pass) : Nat :=
  (ps.foldl (fun acc p => insNat (p.core - sheet * 100) acc) []).foldl (fun m i => m + 2 ^ i) 0

/-- Cancel what the ending tick has left: counted, one FAULT record for each sheet. -/
def Node.overrun (n : Node) : Node :=
  let ps := n.office.passes
  if ps = [] then n
  else
    let n := (n.cancelPasses ps).modPasses fun _ => []
    let n := ((n.inc R.TICK_OVERRUN_CNT_COUNT 0 1).wr R.TICK_STATUS_OVERRUN 0 1).histInc (histNodeAt + 0xA0) 8 1
    let n := forEach n.sheetList n fun n s =>
      let qs := ps.filter fun p => p.core / 100 == s
      if qs = [] then n
      else
        let m := coreMask s qs
        let low := qs.foldl (fun a p => min a p.core) (s * 100 + 99)
        n.faultRec (.core low) 3 0x0F 0 none (m % 2 ^ 64) (m / 2 ^ 64) qs.length
    n.errorBp 4

/-- FENCE_THRESHOLD of the partition that owns a core's quad (R113). -/
def Node.fenceThreshold (n : Node) (c : Nat) : Nat := n.cw 1 1 ((n.quadOwner (coreQuad c)).getD 32) 1 3

/-- A core hangs (R413): after HANG_REPEAT hangs within 1 s it is fenced instead, so that UNFENCE brings it back (log
entry 47), else reset at level 2 under AUTO_CORE. -/
def Node.hangCore (n : Node) (c : Nat) : Node :=
  let recent := ((n.core c).hangs.filter fun t => n.now < t + 1000000000) ++ [n.now]
  let again : Bool := decide (n.rd R.ERR_CFG_HANG_REPEAT 0 ≤ recent.length)
  let n := n.modCore c fun x =>
    { x with mode := if again then x.mode else .hung, stuck := false, hangs := recent, fenceKat := x.fenceKat || again }
  let n := (n.wr R.ERR_STATUS_HANG 0 1).fault (.core c) 3 0x0E 4 none
  if again ∨ n.rd R.ERR_CFG_AUTO_CORE 0 = 0 then n
  else n.modErr fun e => { e with resets := e.resets ++ [⟨2, c, 3, none⟩] }

/-- Boundary action 1 for the cores: overrun handling, ABFT fences, cores that a control-area error stopped. -/
def Node.closeTick (n : Node) : Node :=
  let n := (n.overrun).modDebug fun d => { d with frozen := [] }
  let n := forEach (mapKeys n.cores) n fun n c =>
    let n := if n.fenceThreshold c ≤ (n.core c).abftRun then n.modCore c fun x => { x with fenceAbft := true } else n
    if (n.core c).stuck then n.hangCore c else n
  n.modOffice fun o => { o with shares := o.shares.filter fun s => !s.admitted || (mapFind? o.ctxs s.ctx).isSome }

/-! ## Scratchpad errors (R115, R116) -/

/-- The tier-0 page at an offset of a core's T0 area, with the offset within it: copies stand in ascending frame order
(log entry 86). -/
def t0At (off : Nat) : Map T0Copy → Option (Nat × Nat)
  | [] => none
  | (f, c) :: r => if off < c.size then some (f, off) else t0At (off - c.size) r

/-- An uncorrected scratchpad error, by area. -/
def Node.spadUe (n : Node) (c off : Nat) : Node :=
  let t0 := if 0x80000 ≤ off then t0At (off - 0x80000) (n.core c).t0 else none
  let page := match t0, n.running? c with
    | some x, _ => some (frameQuad x.1, frameGran x.1)
    | none, some p => if 0x4000 ≤ off ∧ off < 0x80000 then some (n.passPage p) else none
    | none, none => none
  let n := (n.coreErr c 2 (match page with
    | some (q, g) => [(R.CORE_ERR_PAGE_QUAD, q), (R.CORE_ERR_PAGE_GRANULE, g)]
    | none => [])).modCore c fun x => { x with badWords := insNat (off / 8) x.badWords }
  let n := n.errorBp 1
  if 0x80000 ≤ off then
    match t0 with
    | none => n.countSev 2
    | some (f, _) =>
      let ps := (n.leavesOf f).headD 0
      let n := (n.poisonPage f).fault (.core c) 2 0x01 2 (some (n.seqRec (keySeq ps)).partition)
      (n.markBad f stPoisoned).failPage f stPoisoned
  else if 0x4000 ≤ off then
    let n := n.fault (.core c) 3 0x01 2 ((n.running? c).map fun p => (n.passSeq p).partition)
    match n.running? c with
    | none => n
    | some p => n.failPass p stInternal
  else
    let n := n.fault (.core c) 3 0x01 2 none
    let ps := n.office.passes.filter fun p => p.core == c
    ((n.cancelPasses ps).modPasses fun l => l.filter fun p => p.core != c).modCore c fun x => { x with stuck := true }

/-- A scratchpad SECDED error. -/
def Node.spadError (n : Node) (c off : Nat) (uncorrected : Bool) : Node :=
  if uncorrected then n.spadUe c off else (n.coreErr c 1 []).countSev 1

/-! ## Staging, store and merge buffer errors (R127) -/

/-- The quad a staged copy belongs to: the frame's, or the one that serves the slot. -/
def Node.keyQuad (n : Node) (key : Nat) : Nat :=
  if key < 2 ^ 120 then frameQuad key
  else
    let k := key % 2 ^ 120
    (n.slotQuad (n.seqRec (keySeq k)) (keySlot k)).getD 0

/-- The partition whose data an error in a sheet's buffers affects. -/
def Node.bufferOwner (n : Node) (sheet kind which : Nat) : Nat :=
  match kind with
  | 0 => (mapGet n.office.staged which : Staged).partition
  | 1 => ((n.office.shares.find? fun s => s.ctx == which && s.sheet == sheet).map (·.partition)).getD 0
  | 2 => (mapGet n.office.ctxs which : LetterCtx).partition
  | _ => ((n.office.merges[which]?).map (·.partition)).getD 0

/-- A staged copy is discarded; the shares that wait for the page claim it again (R127). -/
def Node.discardStaged (n : Node) (key : Nat) : Node :=
  let n := n.unstage key
  forEach (n.office.shares.filter Share.waits) n fun n s => n.claimShare s

/-- An uncorrected error in a sheet's buffers: 0 a staged copy (`which` its key), 1 the collection store, 2 a letter's
merge space (`which` the letter's context), 3 an anchor or ticket context (`which` its place). -/
def Node.stagingUe (n : Node) (sheet kind which : Nat) : Node :=
  match kind with
  | 0 =>
    match mapFind? n.office.staged which with
    | none => n
    | some e =>
      let n := (n.soErr sheet 1 e.partition (n.keyQuad which)).fault (.sheet sheet) 3 0x02 1 (some e.partition)
      (n.failPage which stInternal).discardStaged which
  | 1 =>
    match n.office.shares.find? fun s => s.ctx == which && s.sheet == sheet && !s.ended && !s.travelling with
    | none => n
    | some s =>
      let n := (n.soErr sheet 2 s.partition 0).fault (.sheet sheet) 3 0x02 2 (some s.partition)
      if s.admitted then forEach s.ords n fun n o => n.failOrd s.ctx o stInternal else n.failShare s stInternal 0
  | 2 =>
    match mapFind? n.office.ctxs which with
    | none => n
    | some c =>
      let n := ((n.soErr sheet 3 c.partition 0).fault (.sheet sheet) 3 0x02 3 (some c.partition)).errorBp 5
      n.failLetter which stMergeLost 0
  | _ =>
    match n.office.merges[which]? with
    | none => n
    | some m =>
      let n := ((n.soErr sheet 3 m.partition 0).fault (.sheet sheet) 3 0x02 3 (some m.partition)).errorBp 5
      if m.live then n.endMerge m stMergeLost else n

/-- A SECDED error in staging, the collection store or the merge buffer. -/
def Node.stagingError (n : Node) (sheet kind which : Nat) (uncorrected : Bool) : Node :=
  if uncorrected then n.stagingUe sheet kind which
  else
    (n.soErr sheet (if 2 ≤ kind then 4 else 0) (n.bufferOwner sheet kind which) (if kind = 0 then n.keyQuad which else 0)).countSev 1

/-- Staged copies that failed during the tick are fetched again for the shares that still name them (R127, R196). -/
def Node.clearBad (n : Node) : Node :=
  let bad := n.office.bad
  if bad = [] then n
  else
    let n := n.modOffice fun o => { o with bad := [], staged := mapKeep (fun k _ => mapGetD 0 bad k == 0) o.staged }
    forEach (n.office.shares.filter Share.waits) n fun n s => n.claimShare s

/-! ## Landing in staging (R125, R196) -/

/-- From a boundary on, granules of admitted pages come first (R125): does another page of the quad that a pass of this
tick reads still have granules to fetch? -/
def Node.fetchBehind (n : Node) (sheet key : Nat) : Bool :=
  let read (k : Nat) : Bool := n.office.passes.any fun p => p.frame == k && !p.fromT0
  !read key && n.office.staged.any fun e =>
    e.2.sheet == sheet && !e.2.waiting && !e.2.lower && !e.2.landed && e.1 != key && read e.1 && n.keyQuad e.1 == n.keyQuad key

/-- The next granules of a page land in staging: poison in them poisons the page (R217); a page that is whole is written to
the tier-0 copies that wait for it (R138). -/
def Node.pageStaged (n : Node) (sheet key granules : Nat) : Node :=
  match mapFind? n.office.staged key with
  | none => n
  | some e =>
    if e.sheet ≠ sheet ∨ e.waiting ∨ e.lower ∨ e.landed ∨ n.fetchBehind sheet key then n
    else
      let stop := min e.granules (e.have' + granules)
      let a := frameAddr key + e.have' * 4096
      let len := (stop - e.have') * 4096
      let e' := { e with have' := stop, data := e.data ++ n.hbmRead a len }
      let n' := n.modOffice fun o => { o with staged := mapSet o.staged key e' }
      if n.poisoned a len then ((n'.markBad key stPoisoned).poisonPage key).failPage key stPoisoned
      else if e'.landed then n'.fillT0 key else n'

/-- The page that the tiles of a T2 store make up. -/
def Staged.tileBytes (e : Staged) : Bytes := e.tiles.flatMap Prod.snd

/-- A page read from T2 or T3 is checked before it counts as staged (R196). A page from T2 is what the READs of its tiles have
brought; for a page from T3, `data` is what the host answered, and `bad` that it returned poison. -/
def Node.stagedLower (n : Node) (sheet key : Nat) (data : Bytes) (bad : Bool) : Node :=
  match mapFind? n.office.staged key with
  | none => n
  | some e =>
    let k := key - 2 ^ 120
    let r := n.seqRec (keySeq k)
    let d := r.desc
    let q := (n.placeQuad r (keySlot k)).getD ((n.partQuads r.partition).headD 0)
    let t3 : Bool := match n.lowOf k with | some l => l.store == 2 ^ 16 | none => true
    let data := if t3 then data else e.tileBytes
    let fails (n : Node) (bit sev st : Nat) : Node :=
      let n := (n.migErr q bit r.partition (keySeq k) (keySlot k) (n.lowPeer k)).fault (.quad q) sev 0x04 bit (some r.partition)
      let n := if st = stPoisoned then n.changeLeaf k fun l => { l with poisoned := true } else n
      (n.modOffice fun o => { o with staged := mapSet o.staged key { e with have' := e.granules } }).markBad key st
    if e.sheet ≠ sheet ∨ e.waiting ∨ !e.lower ∨ e.landed then n
    else if t3 ∧ !n.t3Window then fails n 3 3 stPageLost
    else if t3 ∧ bad then fails n 4 2 stPoisoned
    else if !t3 ∧ e.broken then fails n 2 3 stPageLost
    else if !t3 ∧ e.tiles.length < ceilDiv (frameBytes d.fmt d.dcode d.p d.bias) 8192 then n
    else if contentHash d.fmt d.dcode d.p d.bias data ≠ (decPageHdr data).hash then fails n 0 2 stPoisoned
    else
      let n := n.inc (if t3 then R.MIG_STAGE_CNT_FROM_T3 else R.MIG_STAGE_CNT_FROM_T2) (quadBase q) 1
      n.modOffice fun o => { o with staged := mapSet o.staged key { e with have' := e.granules, data := data } }

/-- The hash engine finishes CONTENT_HASH of a sealed page (R171). -/
def Node.sealHashed (n : Node) (k : Nat) : Node :=
  if !n.office.hashing.contains k then n
  else
    let n := n.modOffice fun o => { o with hashing := o.hashing.filter (· ≠ k) }
    let l := n.leaf k
    let d := (n.seqRec (keySeq k)).desc
    if !n.inT1 l ∨ (n.hdr l.frame).sealSt ≠ 1 then n
    else
      let bytes := n.hbmRead (frameAddr l.frame) (frameBytes d.fmt d.dcode d.p d.bias)
      n.modHdr l.frame fun h => { h with sealSt := 2, hash := contentHash d.fmt d.dcode d.p d.bias bytes }

/-! ## Level 2 (R413, R420) -/

/-- The counters of a core. -/
def coreCounters : List Fld :=
  [R.CORE_PASS_CNT_PASSES, R.CORE_BUSY_CYC_CYCLES, R.CORE_ROWS_CNT_ROWS, R.CORE_ABFT_CNT_COUNT, R.CORE_SKIP_CNT_COUNT,
   R.CORE_NAN_CNT_COUNT, R.CORE_CANCEL_CNT_COUNT]

/-- Clear a core's fence and ABFT_RUN (R114). -/
def CoreSt.unfenced (x : CoreSt) : CoreSt :=
  { x with fenceHost := false, fenceAbft := false, fenceKat := false, abftRun := 0, katConsec := 0 }

/-- A core is reset at level 2: its areas but T0 are zero, fence and counters clear, the core not ready yet. -/
def Node.resetCore (n : Node) (c : Nat) : Node :=
  (n.clr coreCounters (coreBase c)).modCore c fun x =>
    { x.unfenced with mode := .resetting, stuck := false, resetAt := n.now, scratch := [], zeroTo := 0x80000, badWords := []
                      katNow := none, katGot := none }

/-- A core that has not reported ready 10 µs after a level-2 reset stays HUNG and is fenced (R413). -/
def Node.coreResetTimeout (n : Node) (c : Nat) : Node :=
  if (n.core c).mode = .resetting ∧ (n.core c).resetAt + 10000 ≤ n.now then
    n.modCore c fun x => { x with mode := .hung, fenceKat := true }
  else n

/-- Cores whose level-2 reset ended in time report ready: available from this boundary (R420). The spec bounds the report
by 10 µs (R413) and names no event for it; the model takes the bound (log entry 45). -/
def Node.coresReady (n : Node) : Node :=
  forEach (mapKeys n.cores) n fun n c =>
    if (n.core c).mode = .resetting ∧ (n.core c).resetAt + 10000 < n.now then n.modCore c fun x => { x with mode := .normal } else n

end Sys2Proof.Machine
end

