-- ==== Sys2Proof/Machine/Time.lean ====
section
/-!
DEFINITION. Meridian time: exchanges and PTP (R30 to R33), pulses (R34, R35), the servo's states (R36 to R42, R478), tick
parameters and map epochs of neighbours (R31, R346), skew in a lock (R55).
-/

namespace Sys2Proof.Machine

/-! ## Chart values of section 0x06 -/

/-- The node's role: 0 SOURCE_FREE, 1 SOURCE_PPS, 2 FOLLOW_NATIVE, 3 FOLLOW_PTP. -/
def Node.timeRole (n : Node) : Nat := n.cw 6 5 0xFFFF 0 0
def Node.ppsDelay (n : Node) : Nat := n.cw 6 5 0xFFFF 2 0
/-- The port at a place of the chart's list: 0 the primary, 1 to 3 the alternates. -/
def Node.upPort (n : Node) (i : Nat) : Nat := n.cw 6 6 0xFFFF i 0
def Node.altCount (n : Node) : Nat := n.cw 6 6 0xFFFF 4 0
def Node.holdLimit (n : Node) : Nat := n.cw 6 9 0xFFFF 0 40
/-- The signed asymmetry correction of a port in ns. -/
def Node.asymmetry (n : Node) (p : Nat) : Int := asSigned 64 (n.cw 6 8 p 0 0)
def Node.follows (n : Node) : Bool := decide (2 ≤ n.timeRole)

def Node.timePort (n : Node) (p : Nat) : TimePort := mapGet n.time.ports p
def Node.modTimePort (n : Node) (p : Nat) (f : TimePort → TimePort) : Node :=
  n.modTime fun t => { t with ports := mapMod t.ports p f }

/-- An offset in whole nanoseconds, its magnitude rounded up. -/
def ceilNs (o : Int) : Nat := ceilDiv o.natAbs 65536

/-- Is an offset within ±2 ns (R37)? -/
def inLock (o : Int) : Bool := decide (o.natAbs ≤ 2 * 65536)

/-- The locked bound 2 + 2h (R36). -/
def Node.lockBound (n : Node) : Nat := 2 + 2 * n.time.hops

/-! ## States -/

/-- The node becomes UNLOCKED: an ALARM (R40). -/
def Node.unlock (n : Node) : Node :=
  ((n.modTime fun t => { t with st := .unlocked }).wr R.MER_STATUS_UNLOCKED_ENTERED 0 1).alarm .hub 0 0x0F 1

/-- The next port in chart order that is UP (R39): after the alternates the primary again, and round. -/
def Node.nextUp (n : Node) (after : Nat) : Option Nat :=
  let k := n.altCount + 1
  ((span 1 k).map fun j => (after + j) % k).find? fun i => n.portUp (n.upPort i)

/-- Try the next port that is UP. -/
def Node.nextAttempt (n : Node) (after : Nat) : Node :=
  match n.nextUp after with
  | none => n.modTime fun t => { t with attempt := none }
  | some i =>
    (n.modTime fun t => { t with attempt := some i, attemptAt := t.now }).modTimePort (n.upPort i) fun p => { p with good := 0 }

/-- In ACQUIRE the node takes its time from the port it tries: the next one that is UP becomes its upstream (R459; log
entry 70). -/
def Node.nextUpstream (n : Node) (after : Nat) : Node :=
  match n.nextUp after with
  | none => n
  | some i => n.modTime fun t => { t with upstream := i, attemptAt := t.now, good := 0 }

/-- A port comes UP while the node acquires: a listed one is tried at once where the present upstream is not UP. -/
def Node.acquireUp (n : Node) (p : Nat) : Node :=
  if (upTo (n.altCount + 1)).any fun i => n.upPort i == p then
    let n := n.modTimePort p fun x => { x with upAt := some n.now }
    if n.upPort n.time.upstream = p ∨ !n.portUp (n.upPort n.time.upstream) then n.nextUpstream (n.time.upstream + n.altCount) else n
  else n

/-- In ACQUIRE: a FAULT record 0.5 s after each upstream link trained without LOCKED, of which the spec states no EVENT; a
port tried for 0.5 s gives way to the next (R39, R459). -/
def Node.acquireTimeout (n : Node) : Node :=
  let late := n.portList.filter fun p => n.portUp p && (n.timePort p).upAt.any fun a => decide (a + 500000000 ≤ n.now)
  let n := forEach late n fun n p =>
    let (e, n) := (n.modTimePort p fun x => { x with upAt := none }).fresh
    n.fault (.port p 0) 0 0x0F (e % 65536) none
  if n.portUp (n.upPort n.time.upstream) ∧ n.time.attemptAt + 500000000 ≤ n.now then n.nextUpstream n.time.upstream else n

/-- The source is gone: the estimate grows from its present value, no slew or step goes on. -/
def Node.noSource (n : Node) : Node :=
  (n.modTime fun t => { t with source := false, good := 0, lockedErr := t.errEst, growAt := t.now, slewing := false
                               stepBy := none }).wr R.MER_STATUS_LOST_UPSTREAM 0 1

/-- The upstream is lost (R39): HOLDOVER on the last frequency, and the alternates are tried. A source lost again before
LOCKED keeps the state and its episode; the trying goes on after the port that was lost. -/
def Node.loseUpstream (n : Node) : Node :=
  if n.time.st = .locked ∧ n.timeRole ≠ 0 then
    let n := (n.noSource.modTime fun t => { t with st := .holdover, lostAt := t.now }).inc R.MER_EVENTS_HOLDOVERS 0 1
    if n.follows then n.nextAttempt 0 else n
  else if (n.time.st = .holdover ∨ n.time.st = .unlocked) ∧ n.time.source then
    let n := n.noSource
    if n.follows then n.nextAttempt n.time.upstream else n
  else if n.time.st = .acquire ∧ n.follows then (n.modTime fun t => { t with good := 0 }).nextUpstream n.time.upstream
  else n.modTime fun t => { t with good := 0 }

/-- What MER_ERR_EST may have grown to since the source was lost: 10 ns in each second (R39). -/
def Node.growBound (n : Node) : Nat := n.time.lockedErr + (n.now - n.time.growAt) / 100000000

/-- MER_ERR_EST grows by at most 10 ns in each second without a source, by how much the spec leaves open (R39); past the
holdover limit a HOLDOVER node is UNLOCKED. -/
def Node.growErr (n : Node) : Node :=
  if (n.time.st = .holdover ∨ n.time.st = .unlocked) ∧ !n.time.source then
    let (v, n) := n.fresh
    let n := n.modTime fun t => { t with errEst := max t.errEst (min n.growBound (t.errEst + v)) }
    if n.time.st = .holdover ∧ n.holdLimit < n.time.errEst then n.unlock else n
  else n

/-- The lock criterion is met (R37, R38, R41). MER_ERR_EST then holds the locked bound itself, of which the spec says only
that it is not exceeded (R39: DESIGN CHOICE, log entry 71). -/
def Node.lock (n : Node) : Node :=
  n.modTime fun t => { t with st := .locked, everLocked := true, slewing := false, errEst := n.lockBound, attempt := none
                              tick := if t.st = .acquire then n.tickAt t.now % 2 ^ 48 else t.tick }

/-- Move the time base, MER_NS with its fraction, by units of 1/65,536 ns (R26). -/
def Node.moveClock (n : Node) (d : Int) : Node :=
  let v := toUnsigned 80 (((n.now * 65536 + n.time.frac : Nat) : Int) + d)
  n.modTime fun t => { t with now := v / 65536, frac := v % 65536 }

/-- The most a slew of 50 ppm moves in a time, in units of 1/65,536 ns (R41). -/
def slewLimit (ns : Nat) : Nat := ns * 65536 * 50 / 1000000

/-- Slew towards a measured offset: MER_NS moves by no more than 50 ppm of the time since the last measurement (R41). -/
def Node.slew (n : Node) (o : Int) : Node :=
  let lim : Int := slewLimit (n.now - n.time.slewAt)
  n.moveClock (max (-lim) (min lim (-o)))

/-- Is the upstream reached through switches (R33)? -/
def Node.switchedUpstream (n : Node) : Bool := n.follows && n.switched (n.upPort n.time.upstream)

/-- MER_ERR_EST while LOCKED: the locked bound, and on a switched upstream the path's measured time error where it is
larger (R33; how that error is measured is the model's choice, log entry 72). -/
def Node.lockedEst (n : Node) (o : Int) : Node :=
  n.modTime fun t => { t with errEst := if n.switchedUpstream then max n.lockBound (ceilNs o) else n.lockBound }

/-- A measurement while the node regains its source (R41, R478): the estimate follows the offset, small offsets slew, a
larger one is stepped away at the next boundary. -/
def Node.regain (n : Node) (o : Int) : Node :=
  let n := n.modTime fun t => { t with errEst := ceilNs o + n.lockBound, slewing := !inLock o && decide (o.natAbs ≤ 65536000) }
  let n := if n.time.st = .holdover ∧ n.holdLimit < n.time.errEst then n.unlock else n
  if 65536000 < o.natAbs then n.modTime fun t => { t with stepBy := some (t.stepBy.getD (-o)) }
  else if n.time.slewing then n.slew o else n

/-- An offset measured on the time source moves the servo (R37, R41, R478). Before the first lock the time base is set
from it at once, since no tick exists at whose boundary it could step (log entry 28); in LOCKED it slews (log entry 73). -/
def Node.servo (n : Node) (o : Int) : Node :=
  let n := n.modTime fun t => { t with offset := o, source := true, good := if inLock o then t.good + 1 else 0 }
  let n := match n.time.st with
    | .free => n
    | .locked => (n.slew o).lockedEst o
    | .acquire => if 16 ≤ n.time.good then n.lock.lockedEst o else if inLock o then n else n.moveClock (-o)
    | .holdover | .unlocked => if 16 ≤ n.time.good then n.lock.lockedEst o else n.regain o
  n.modTime fun t => { t with slewAt := t.now }

/-- One valid exchange or measurement on a port: an attempt succeeds after 16 of them (R39). -/
def Node.validMeasure (n : Node) (p : Nat) (hops : Nat) (o : Int) : Node :=
  let n := n.modTimePort p fun x => { x with good := x.good + 1, missed := 0, offset := o }
  match n.time.attempt with
  | some i =>
    if n.upPort i ≠ p then n
    else if 16 ≤ (n.timePort p).good then
      (n.modTime fun t => { t with attempt := none, upstream := i, hops := hops, good := 0 }).servo o
    else n
  | none =>
    if n.follows ∧ n.upPort n.time.upstream = p ∧ (n.time.st ≠ .holdover ∧ n.time.st ≠ .unlocked ∨ n.time.source) then
      (n.modTime fun t => { t with hops := hops }).servo o
    else n

/-! ## Time exchange on native links (R30, R31, R55, R346) -/

/-- Offset of this node from its neighbour, with the asymmetry correction subtracted. -/
def Node.exchangeOffset (n : Node) (p : Nat) (m : TimeMsg) : Int :=
  (((m.recvHere : Int) - m.sentThere) - ((m.recvThere : Int) - m.sentHere)) / 2 - n.asymmetry p * 65536

/-- Path delay to the neighbour, the path taken as symmetric (R30). -/
def exchangeDelay (m : TimeMsg) : Int := (((m.recvHere : Int) - m.sentThere) + ((m.recvThere : Int) - m.sentHere)) / 2

/-- Skew of a lock member from the first member (R55): above 40 ns it leaves at the next boundary, and is reported once. -/
def Node.skewCheck (n : Node) (p : Nat) : Node :=
  match n.lockPorts (n.lockGroup p) with
  | [] => n
  | f :: _ =>
    let x := n.timePort p
    let d := (x.offset - (n.timePort f).offset).natAbs
    if f = p ∨ x.leaving then n
    else if d ≤ 40 * 65536 then
      n.modTimePort p fun x => { x with skewGood := x.skewGood + 1, outOfLock := x.outOfLock && decide (x.skewGood + 1 < 16) }
    else if x.outOfLock then n.modTimePort p fun x => { x with skewGood := 0 }
    else ((n.modTimePort p fun x => { x with skewGood := 0, leaving := true }).wr R.MER_STATUS_SKEW_EXCEEDED 0 1).fault
      (.port p 0) 3 0x0F 4 none

/-- Members whose skew was exceeded leave their lock at the boundary. -/
def Node.leaveLocks (n : Node) : Node :=
  n.modTime fun t => { t with ports := mapAll (fun _ p => if p.leaving then { p with leaving := false, outOfLock := true, skewGood := 0 } else p) t.ports }

/-- Tick parameters that differ in two exchanges running on one port (R31). -/
def Node.tickParams (n : Node) (p : Nat) (differ : Bool) : Node :=
  let tp := n.timePort p
  let n := if differ && tp.differ && !tp.mismatch then
      ((n.wr R.TICK_STATUS_PARAM_MISMATCH 0 1).fault (.port p 0) 3 0x0F 1 none).modTimePort p fun x => { x with mismatch := true }
    else n
  n.modTimePort p fun x => { x with differ := differ, mismatch := x.mismatch && differ }

/-- A map epoch that differs in two exchanges running on one port (R346). -/
def Node.epochParam (n : Node) (p : Nat) (off : Bool) : Node :=
  let n := if off && (n.timePort p).epochOff then
      (n.wr R.CHART_STATUS_EPOCH_MISMATCH 0 1).fault (.port p 0) 3 0x0C 8 none
    else n
  n.modTimePort p fun x => { x with epochOff := off }

/-- Has a link-local frame passed its deadline (R52, R253)? It is then dropped and counted. -/
def Node.localLate (n : Node) (deadline : Nat) : Bool := decide (deadline ≤ n.now + n.guardNow)
def Node.dropLate (n : Node) (p : Nat) : Node := n.inc R.PORT_DROP_CNT_EXPIRED (portBase p) 1

/-- A received time-exchange message. One that carries other tick parameters gives no time: a single one is ignored, and
after two none is taken until they agree again (R31). -/
def Node.timeExchange (n : Node) (p : Nat) (m : TimeMsg) : Node :=
  if n.switched p then n
  else if n.localLate m.deadline then n.dropLate p
  else
    let differ : Bool := n.hasChart && (m.period != n.time.period || m.origin != n.time.origin)
    let n := n.modTimePort p fun x => { x with missed := 0, delay := exchangeDelay m, rxSent := m.sentThere, rxHere := m.recvHere }
    let n := (n.tickParams p differ).epochParam p (n.hasChart && n.chart.switchTick.isSome && m.epoch != n.chart.epoch)
    if differ then n else (n.validMeasure p (m.hops + 1) (n.exchangeOffset p m)).skewCheck p

/-- The message of a TIME frame, received now (R30; log entry 102). -/
def Node.timeMsg (n : Node) (k : Packet) : TimeMsg :=
  let x := Config.timeFields k.payload
  let f (i : Nat) : Nat := x.getD i 0
  { sentHere := f 3, recvThere := f 4, sentThere := f 1 * 65536 + f 2, recvHere := n.now * 65536 + n.time.frac, period := f 5,
    origin := f 6, epoch := f 7, hops := f 8, deadline := k.deadline }

/-- Is a port the node's time source? -/
def Node.isUpstream (n : Node) (p : Nat) : Bool := n.follows && n.upPort n.time.upstream == p

/-- An exchange is missed: the run of good ones ends (R37), and the eighth in a row on the upstream port loses it (R39). -/
def Node.exchangeMissed (n : Node) (p : Nat) : Node :=
  let n := n.modTimePort p fun x => { x with missed := x.missed + 1, good := 0 }
  if n.isUpstream p then
    if 8 ≤ (n.timePort p).missed then n.loseUpstream else n.modTime fun t => { t with good := 0 }
  else n

/-- The chart's exchange interval in ns (R30). -/
def Node.exchangeNs (n : Node) : Nat := n.cw 6 7 0xFFFF 0 1000000

/-- Is a port's next exchange message due? -/
def Node.exchangeDue (n : Node) (p : Nat) : Bool := (n.timePort p).sentAt.all fun a => decide (a + n.exchangeNs ≤ n.now)

/-- Send a time-exchange message on every native port whose interval has passed (R30). It carries its own departure, the
stamps of the neighbour's last message, the tick parameters, the map epoch and the depth. -/
def Node.sendExchanges (n : Node) : Node :=
  forEach (n.portList.filter fun p => n.portUp p && !n.switched p && n.exchangeDue p) n fun n p =>
    let x := n.timePort p
    let n := n.modTimePort p fun x =>
      { x with t1 := n.now * 65536 + n.time.frac, seqId := (x.seqId + 1) % 65536, sentAt := some n.now }
    n.sendLocal p ptTime (Config.timeBody [x.seqId, n.now, n.time.frac, x.rxSent, x.rxHere, n.time.period, n.time.origin,
      n.chart.epoch, n.time.hops])

/-! ## PTP (R32) -/

/-- Keep the packets a port sends outside Opward. -/
def Node.sendRaw (n : Node) (p : Nat) (l : List Bytes) : Node := n.modPort p fun s => { s with lastRaw := l }

/-- The delay mechanism of a switched port: peer-to-peer, else end-to-end. -/
def Node.peerDelay (n : Node) (p : Nat) : Bool := n.cw 6 10 p 1 0 == 1

/-- The answer to a delay request: Delay_Resp, or Pdelay_Resp with its Follow_Up. The first number is the messageType of
IEEE 1588. -/
def Node.answerDelay (n : Node) (p : Nat) (m : PtpMsg) : Node :=
  match m.kind with
  | .delayReq =>
    if n.follows || n.peerDelay p then n else n.sendRaw p [Config.timeBody [9, m.seqId, m.arrival, toUnsigned 64 m.corr]]
  | .pdelayReq =>
    if n.peerDelay p then
      n.sendRaw p [Config.timeBody [3, m.seqId, m.arrival], Config.timeBody [10, m.seqId, n.now, n.time.frac, toUnsigned 64 m.corr]]
    else n
  | _ => n

/-- A measurement of a time receiver from its Sync stamps: peer-to-peer subtracts the peer's path delay. `l` is Sync
origin, Sync arrival, departure of the delay request, peer path delay, sequence number awaited by a Follow_Up. -/
def Node.ptpStamps (n : Node) (p : Nat) (l : List Int) (measure : Bool) : Node :=
  let n := n.modTimePort p fun x => { x with stamps := l.map (toUnsigned 80) }
  if measure && n.peerDelay p then n.validMeasure p 1 (l.getD 1 0 - l.getD 0 0 - l.getD 3 0 - n.asymmetry p * 65536) else n

/-- A PTP message at a time receiver. -/
def Node.ptpReceive (n : Node) (p : Nat) (m : PtpMsg) : Node :=
  let tp := n.timePort p
  let st (i : Nat) : Int := asSigned 80 (tp.stamps.getD i 0)
  let own : Bool := m.seqId == (tp.seqId + 65535) % 65536
  match m.kind with
  | .sync => n.ptpStamps p [(m.stamp : Int) + m.corr, m.arrival, st 2, st 3, 0] true
  | .syncTwoStep => n.ptpStamps p [0, (m.arrival : Int) - m.corr, st 2, st 3, m.seqId] false
  | .followUp =>
    if m.seqId ≠ tp.stamps.getD 4 0 then n else n.ptpStamps p [(m.stamp : Int) + m.corr, st 1, st 2, st 3, 0] true
  | .delayResp =>
    if !own || n.peerDelay p then n
    else
      let up := st 1 - st 0
      let down := (m.stamp : Int) - m.corr - st 2
      (n.modTimePort p fun x => { x with delay := (up + down) / 2 }).validMeasure p 1
        ((up - down) / 2 - n.asymmetry p * 65536)
  | .pdelayResp =>
    if !own then n else n.ptpStamps p [st 0, st 1, st 2, ((m.arrival : Int) - st 2 - m.corr) / 2, st 4] false
  | .pdelayRespFollowUp => if !own then n else n.ptpStamps p [st 0, st 1, st 2, st 3 - m.corr / 2, st 4] false
  | .delayReq | .pdelayReq | .announce | .management => n

/-- A PTP message on a switched port in the chart's domain. Management messages are ignored and counted; delay requests are
answered; a node that follows a time source takes the rest (R32). -/
def Node.ptpMessage (n : Node) (p : Nat) (m : PtpMsg) : Node :=
  if !n.switched p ∨ m.domain ≠ n.cw 6 10 p 0 0 then n
  else
    let n := if m.kind = .management then n.modTimePort p fun x => { x with mgmt := x.mgmt + 1 } else n
    let n := n.answerDelay p m
    if n.follows then n.ptpReceive p m else n

/-- A source node sends two-step Sync and its Follow_Up on a switched port (R32). -/
def Node.ptpSync (n : Node) (p : Nat) : Node :=
  if n.follows ∨ !n.switched p ∨ !n.portUp p then n
  else
    let n := n.modTimePort p fun x => { x with seqId := (x.seqId + 1) % 65536, t1 := n.now * 65536 + n.time.frac }
    let q := (n.timePort p).seqId
    n.sendRaw p [Config.timeBody [0, q], Config.timeBody [8, q, n.now, n.time.frac]]

/-- A time receiver sends the request of the port's delay mechanism (R32). -/
def Node.delayRequest (n : Node) (p : Nat) : Node :=
  if !n.follows ∨ !n.switched p ∨ !n.portUp p then n
  else
    let now := n.now * 65536 + n.time.frac
    let x := n.timePort p
    let n := n.modTimePort p fun x =>
      { x with seqId := (x.seqId + 1) % 65536, stamps := [x.stamps.getD 0 0, x.stamps.getD 1 0, now, x.stamps.getD 3 0, x.stamps.getD 4 0] }
    n.sendRaw p [Config.timeBody [if n.peerDelay p then 2 else 1, x.seqId]]

/-! ## Pulses (R34, R35, R38) -/

/-- How far MER_NS stands from the nearest time at which MER_NS mod 10^9 is the PPS delay, in ns. -/
def Node.ppsOffset (n : Node) : Int :=
  let d := (n.now + 1000000000 - n.ppsDelay % 1000000000) % 1000000000
  if d < 500000000 then (d : Int) else (d : Int) - 1000000000

/-- Does a pulse come 1 s ± 1 µs after the last, or, with pulses missed, that many seconds later (R34)? -/
def Node.ppsExpected (n : Node) : Bool :=
  n.time.lastPps.all fun l =>
    decide (((n.now : Int) - l - 1000000000 * (n.time.ppsMiss + 1 : Nat)).natAbs ≤ 1000)

/-- A rising edge on TIME_PPS_IN: MER_NS mod 10^9 is the PPS delay at that instant (R34, R38). The first pulse sets the
time base and locks. A LOCKED node follows each pulse that comes when it is expected; it takes no time from another (log
entry 74). In HOLDOVER and UNLOCKED a pulse is one measurement of the servo: as for an exchange, 16 in a row within ±2 ns
meet the lock criterion of R37 (DESIGN CHOICE, log entry 75). -/
def Node.ppsEdge (n : Node) : Node :=
  if n.timeRole ≠ 1 ∨ !n.hasChart then n
  else
    let o := n.ppsOffset * 65536 + n.time.frac
    let seen (n : Node) : Node := n.modTime fun t => { t with lastPps := some t.now, ppsMiss := 0 }
    match n.time.st with
    | .free => n
    | .acquire => seen ((n.moveClock (-o)).modTime fun t => { t with source := true, offset := o, slewAt := t.now }).lock
    | .locked =>
      if n.ppsExpected then seen ((n.moveClock (-o)).modTime fun t => { t with offset := o, slewAt := t.now }) else n
    | .holdover | .unlocked => seen (n.servo o)

/-- A pulse is missing: not within 1 s ± 1 µs of the one before; two in a row lose the source (R34). -/
def Node.ppsMissing (n : Node) : Node :=
  if n.timeRole ≠ 1 then n
  else match n.time.lastPps with
    | none => n
    | some l =>
      if n.now < l + 1000000000 * (n.time.ppsMiss + 1) + 1000 then n
      else
        let n := n.modTime fun t => { t with ppsMiss := t.ppsMiss + 1, good := 0 }
        if 2 ≤ n.time.ppsMiss then (n.wr R.MER_STATUS_PPS_MISSING 0 1).loseUpstream else n

/-- Is a time within 2 ns of a whole second (R35)? -/
def nearSecond (ns : Nat) : Bool := decide (ns % 1000000000 ≤ 2) || decide (999999998 ≤ ns % 1000000000)

/-- TIME_PPS_OUT rises within ±2 ns of a second and stays high for 10 µs, unless the node is FREE or ACQUIRE (R35). -/
def Node.ppsOut (n : Node) : Node :=
  if n.rd R.MER_PPS_CFG_OUT_EN 0 = 1 ∧ n.time.st ≠ .free ∧ n.time.st ≠ .acquire ∧ nearSecond n.now then
    n.modPins fun p => { p with ppsOut := some (n.now + 10000) }
  else n

/-! ## Attempts and limits (R39, R40) -/

/-- An attempt that has not succeeded within 0.5 s fails and the next port is tried. -/
def Node.attemptTimeout (n : Node) : Node :=
  if n.time.st = .acquire ∧ n.follows then n.acquireTimeout
  else match n.time.attempt with
  | none => if (n.time.st = .holdover ∨ n.time.st = .unlocked) ∧ !n.time.source ∧ n.follows then n.nextAttempt n.time.upstream else n
  | some i => if n.time.attemptAt + 500000000 ≤ n.now then n.nextAttempt i else n

/-- MER_ERR_EST has passed the holdover limit (R39, R40): the event can come only once the growth allows it. -/
def Node.holdoverLimit (n : Node) : Node :=
  if n.time.st = .holdover ∧ !n.time.source ∧ n.holdLimit < n.growBound then
    (n.modTime fun t => { t with errEst := max t.errEst (n.holdLimit + 1) }).unlock
  else n

/-- The chart is in force: the role fixes what comes next (R38). A follower is in ACQUIRE from here on, also before its
upstream link is trained, a time for which the table Meridian states names no state (DESIGN CHOICE, log entry 70). -/
def Node.startTime (n : Node) : Node :=
  let n := n.modTime fun t => { t with period := n.cw 6 1 0xFFFF 0 500, origin := n.cw 6 2 0xFFFF 0 0, upstream := 0, attempt := none, good := 0 }
  if n.timeRole = 0 then
    n.modTime fun t => { t with st := .locked, everLocked := true, errEst := 0, hops := 0, tick := n.tickAt t.now % 2 ^ 48 }
  else (n.modTime fun t => { t with st := .acquire, errEst := 0xFFFF, hops := 0 }).modPins fun p => { p with ppsOut := none }

/-! ## Steps (R41, R42) -/

/-- Boundary action 2: a pending step moves MER_NS; after a backward one nothing is done until the tick number passes the
last tick run, the one that ends at this boundary. -/
def Node.meridianStep (n : Node) : Node :=
  match n.time.stepBy with
  | none => n
  | some d =>
    let last := (n.time.tick + 2 ^ 48 - 1) % 2 ^ 48
    let n := (n.moveClock d).modTime fun t =>
      { t with stepBy := none, slewing := false, slewAt := t.now, barTick := if d < 0 then some last else t.barTick }
    let n := n.modTime fun t => { t with tick := n.tickAt n.now % 2 ^ 48, errEst := n.lockBound }
    let n := (n.inc R.MER_EVENTS_STEPS 0 1).wr R.MER_STATUS_STEPPED 0 1
    n.fault .hub 3 0x0F 2 none

end Sys2Proof.Machine
end

