-- ==== Sys2Proof/Machine/Fabric.lean ====
section
/-!
DEFINITION. The link layer of the fabric ports: widths and retraining (R245 to R247), locks (R248), frames (R250 to
R253), link-level retry and credits (R254 to R256), the egress (R257, R262, R363), switched ports (R258, R259), franking
and keys (R265 to R269).
-/

namespace Sys2Proof.Machine

/-! ## The chart's port records (sections 0x0A) -/

def Node.portStack (n : Node) (p : Nat) : Nat := n.cw 10 1 p 1 0
def Node.retryUs (n : Node) (p : Nat) : Nat := n.cw 10 1 p 4 10
/-- The ingress buffer of a class in 64 B credits (R256; log entry 33). -/
def Node.classCredits (n : Node) (p c : Nat) : Nat := n.cw 10 2 p c ([512, 8192, 4096, 3584].getD c 0)
def Node.controlPct (n : Node) (p : Nat) : Nat := n.cw 10 2 p 4 2
def Node.firstMin (n : Node) (p : Nat) : Nat := n.cw 10 2 p 5 10
def Node.parcelMin (n : Node) (p : Nat) : Nat := n.cw 10 2 p 6 5
def Node.markKib (n : Node) (p c : Nat) : Nat := n.cw 10 2 p (6 + c) ([0, 64, 128, 256].getD c 0)
def Node.dscp (n : Node) (p c : Nat) : Nat := n.cw 10 2 p (10 + c) ([48, 46, 26, 10].getD c 0)
/-- A port's MAC, next-hop MAC, address and UDP port (R258). -/
def Node.ethWord (n : Node) (p k : Nat) : Nat := n.cw 10 3 p k (if k = 4 then 47300 else 0)
def Node.portIp (n : Node) (p : Nat) : Bytes := leBytes 8 (n.ethWord p 2) ++ leBytes 8 (n.ethWord p 3)

/-- The peer-table entries of a port: entry, prefix, length (R259). -/
def Node.peers (n : Node) (p : Nat) : List (Nat × Nat × Nat) :=
  ((compRecs n.chart.comp 10 4).filter fun r => r.index / 1024 == p).map fun r =>
    (r.index % 1024, r.words.getD 0 0, r.words.getD 1 0)

/-- The longest match of a postcode, ties to the lower index. -/
def bestPeer (dst : Nat) : List (Nat × Nat × Nat) → Option (Nat × Nat) → Option (Nat × Nat)
  | [], best => best
  | (e, v, len) :: rest, best =>
    let better : Bool := match best with
      | none => true
      | some b => decide (b.2 < len)
    bestPeer dst rest (if routeMatch v len dst && better then some (e, len) else best)

/-- The peer-table entry a frame is sent to: 0 on a native port. -/
def Node.peerFor (n : Node) (p dst : Nat) : Option Nat :=
  if n.switched p then (bestPeer dst (n.peers p) none).map Prod.fst else some 0

def Node.assoc (n : Node) (p e : Nat) : Assoc := mapGet (n.port p).assocs e
def Node.modAssoc (n : Node) (p e : Nat) (f : Assoc → Assoc) : Node :=
  n.modPort p fun s => { s with assocs := mapMod s.assocs e f }
/-- The associations a port keeps: one, or one per peer. -/
def Node.assocKeys (n : Node) (p : Nat) : List Nat := if n.switched p then (n.peers p).map Prod.fst else [0]

/-! ## Leaving UP, retraining, failing (R246, R247) -/

/-- A port leaves UP: the upstream, or the attempt, on it is lost (R39). -/
def Node.leaveUp (n : Node) (p : Nat) : Node :=
  let n := if n.follows && n.time.attempt.isNone && n.upPort n.time.upstream == p then n.loseUpstream else n
  match n.time.attempt with
  | some i => if n.upPort i = p then n.nextAttempt i else n
  | none => n

/-- Set a port's state. -/
def Node.setPort (n : Node) (p : Nat) (st : PortState) : Node :=
  let was := n.portUp p
  let n := n.modPort p fun s => { s with st := st }
  if was && st != .up then n.leaveUp p else n

/-- Start a retrain at no more than a width. -/
def Node.retrain (n : Node) (p limit : Nat) : Node :=
  let n := n.setPort p .retraining
  let n := n.modPort p fun s => { s with limit := limit, resends := 0 }
  let n := n.inc R.PORT_RETRY_CNT_RETRAINS (portBase p) 1
  let n := forEach (upTo 8) n fun n l => n.histInc (histLaneAt p l + 0x98) 4 1
  (n.portErr p 2 0).errorBp 7

/-- The widest aligned group of lanes that both masks hold, the lower-numbered of two: width and first lane. -/
def bestGroup (both limit : Nat) : Option (Nat × Nat) :=
  let at' (w : Nat) : List (Nat × Nat) := (upTo (8 / w)).map fun i => (w, i * w)
  (((at' 8 ++ at' 4 ++ at' 2 ++ at' 1)).filter fun g => decide (g.1 ≤ limit)).find? fun g =>
    (upTo g.1).all fun i => bitAt both (g.2 + i)

/-- Credits of a class that frames in egress queues still hold of a port's ingress buffer. -/
def Node.heldCredits (n : Node) (p c : Nat) : Nat :=
  (n.portList.flatMap fun o => ((n.port o).queues.getD c []).filter fun q => q.holds == some p).foldl
    (fun a q => a + ceilDiv (q.pkt.payload.length + 76) 64) 0

/-- A fresh link layer: sequences at 0, unacknowledged frames discarded, no credit held, and the whole ingress buffer
to grant (R256, R267; log entry 33). -/
def Node.linkReset (n : Node) (p : Nat) : Node :=
  let ret := (upTo 4).map fun c => n.classCredits p c - n.heldCredits p c
  n.modPort p fun s => { s with
    txSeq := 0, rxSeq := 0, lastAck := 0xFFFF, nakOpen := false, nakDue := false, unacked := [], resendFrom := none,
    resends := 0, ackAt := n.now, lost := s.lost + s.unacked.length, txCredits := [0, 0, 0, 0], rxReturn := ret, ackDue := true, lastAt := n.now }

/-- Give back the ingress credits of a frame of so many bytes (R256). -/
def Node.freeBytes (n : Node) (p cls len : Nat) : Node :=
  if n.switched p then n
  else n.modPort p fun s => { s with
    rxReturn := listPut 0 s.rxReturn cls (s.rxReturn.getD cls 0 + ceilDiv len 64), ackDue := true }

/-- Give back the ingress credits a packet held. -/
def Node.freeCredits (n : Node) (p : Nat) (pkt : Packet) : Node := n.freeBytes p pkt.cls (pkt.payload.length + 76)

/-- A frame leaves an egress queue: the ingress buffer it held is free. -/
def Node.releaseHold (n : Node) (q : Queued) : Node :=
  match q.holds with
  | some p => n.freeCredits p q.pkt
  | none => n

/-- Drop a queued frame at its egress with its notice, which shows the HOPS it came with (R251, R263). -/
def Node.dropQueued (n : Node) (p : Nat) (q : Queued) (reason : Nat) : Node :=
  (n.releaseHold q).dropAt p { q.pkt with hops := q.came } reason

/-- May a port's queued frames still leave by another member of its lock? -/
def Node.lockAlive (n : Node) (p : Nat) : Bool :=
  n.lockGroup p != 0 && (n.lockPorts (n.lockGroup p)).any fun m =>
    (n.port m).st != .failed && (n.port m).st != .disabled

/-- The port becomes FAILED (R247): an ALARM; the frames queued for it are dropped. -/
def Node.failPort (n : Node) (p : Nat) : Node :=
  let n := (n.setPort p .failed).modPort p fun s => { s with unacked := [], resendFrom := none, width := 0 }
  let n := (n.portErr p 3 0).alarm (.port p 0) 0 8 3
  let keep (q : Queued) : Bool := n.lockAlive p && q.pkt.dst != 0xFFFFFFFF
  let gone := (n.port p).queues.flatten.filter fun q => !keep q
  let n := n.modPort p fun s => { s with queues := s.queues.map fun l => l.filter keep }
  forEach gone n fun n q => n.dropQueued p q 4

/-! ## Frames as bytes (R250, R251, R258) -/

/-- The Opward header. -/
def opHeader (p : Packet) : Bytes :=
  leBytes 4 p.dst ++ leBytes 4 p.src ++ leBytes 8 p.deadline ++ leBytes 1 p.ptype ++ leBytes 1 1 ++
    leBytes 2 p.payload.length ++ leBytes 2 p.entropy ++ leBytes 1 p.hops ++ leBytes 1 (b2n p.ce) ++ leBytes 8 0

/-- Read a header and payload; none for a bad header (R251). -/
def readPacket (cls : Nat) (body : Bytes) : Option Packet :=
  let plen := leAt body 0x12 2 % 16384
  let ptype := leAt body 0x10 1
  if body.length < 32 || leAt body 0x11 1 != 1 || leAt body 0x12 2 != plen || decide (9216 < plen) ||
      body.length != 32 + plen || decide (1 < leAt body 0x17 1) || leAt body 0x18 8 != 0 || !classOk ptype cls then none
  else some { dst := leAt body 0 4, src := leAt body 4 4, deadline := leAt body 8 8, ptype := ptype, cls := cls,
              entropy := leAt body 0x14 2, hops := leAt body 0x16 1, ce := bitAt (leAt body 0x17 1) 0,
              payload := body.drop 32 }

/-- The link header. -/
def linkHeader (ltype cls : Nat) (locked : Bool) (sq lockSeq epoch fctr : Nat) : Bytes :=
  leBytes 1 ltype ++ leBytes 1 (cls + 4 * b2n locked) ++ leBytes 2 sq ++ leBytes 2 lockSeq ++ leBytes 2 0 ++
    leBytes 4 epoch ++ leBytes 4 0 ++ leBytes 8 fctr

/-- The nonce of a frame: KEY_EPOCH and FCTR of its link header (R265). -/
def frameNonce (hdr : Bytes) : Bytes := (hdr.drop 8).take 4 ++ (hdr.drop 16).take 8

/-- A frame on the wire (table Frame layout): its link header; Opward header, payload and CHECK_INNER encrypted and franked under
the header; CHECK_OUTER over ciphertext and franking. A LINK frame has no Opward header (log entry 101). -/
def Node.wireBytes (n : Node) (p : Nat) (key hdr head payload : Bytes) : Bytes :=
  let inner := if n.portStack p = 1 then leBytes 4 (crc32c payload) else []
  let sealed' := gcmSeal key (frameNonce hdr) hdr (head ++ payload ++ inner)
  hdr ++ sealed' ++ (if n.portStack p = 0 then leBytes 4 (crc32c sealed') else [])

/-- The Internet checksum of a message. -/
def inetSum : Bytes → Nat
  | a :: b :: rest => (a.toNat * 256 + b.toNat + inetSum rest) % 65535
  | [a] => a.toNat * 256 % 65535
  | [] => 0

/-- The IPv6 address of a peer-table entry. -/
def Node.peerIp (n : Node) (p e : Nat) : Bytes :=
  leBytes 8 (n.cw 10 4 (p * 1024 + e) 2 0) ++ leBytes 8 (n.cw 10 4 (p * 1024 + e) 3 0)

/-- The sum that a UDP checksum is taken of: addresses, length, protocol, and the datagram (RFC 8200, RFC 768). -/
def udpSum (src dst udp : Bytes) : Nat := inetSum (src ++ dst ++ beBytes 4 udp.length ++ beBytes 4 17 ++ udp)

/-- The Ethernet, IPv6 and UDP headers of a switched frame, its checksum computed in full. -/
def Node.switchedHeader (n : Node) (p e : Nat) (k : Packet) (frame : Bytes) : Bytes :=
  let peerIp := n.peerIp p e
  let ecn := if k.cls = 0 then 0 else if k.ce then 3 else 2
  let len := frame.length + 8
  let udp := beBytes 2 (49152 + k.entropy % 16384) ++ beBytes 2 (n.ethWord p 4) ++ beBytes 2 len
  let sum := udpSum (n.portIp p) peerIp (udp ++ [0, 0] ++ frame)
  beBytes 6 (n.ethWord p 1) ++ beBytes 6 (n.ethWord p 0) ++ beBytes 2 0x86DD ++
    beBytes 4 (6 * 2 ^ 28 + (n.dscp p k.cls * 4 + ecn) * 2 ^ 20 + k.entropy) ++ beBytes 2 len ++ [17, 64] ++
    n.portIp p ++ peerIp ++ udp ++ beBytes 2 (65535 - sum)

/-- What the headers of a received packet say of it: Opward for this port from a peer-table entry, with its CE mark; a packet
R258 discards and counts; another ICMPv6 message; or nothing this port takes. -/
inductive IpRead where
  | frame (peer : Option Nat) (ce : Bool) | bad | icmp | foreign
  deriving DecidableEq, Repr

/-- Read the Ethernet, IPv6 and UDP headers around a frame. -/
def Node.ipRead (n : Node) (p : Nat) (h frame : Bytes) : IpRead :=
  let be (i k : Nat) : Nat := beNat ((h.drop i).take k)
  let src := (h.drop 22).take 16
  let dst := (h.drop 38).take 16
  let udp := h.drop 54 ++ frame
  if h.length < 54 ∨ be 12 2 ≠ 0x86DD ∨ dst ≠ n.portIp p then .foreign
  else if be 14 1 / 16 ≠ 6 then .bad
  else if be 20 1 = 58 then .icmp
  else if be 20 1 ≠ 17 ∨ h.length ≠ 62 ∨ be 18 2 ≠ udp.length ∨ be 58 2 ≠ udp.length ∨ be 60 2 = 0 ∨ udpSum src dst udp ≠ 0 then .bad
  else if be 56 2 ≠ n.ethWord p 4 then .foreign
  else .frame (((n.peers p).map Prod.fst).find? fun e => n.peerIp p e == src) (be 15 1 / 16 % 4 == 3)

/-! ## Key establishment (R267 to R269) -/

/-- The next frame of an association takes its epoch and counter: FCTR rises by one for every frame (R265). -/
def Node.takeFctr (n : Node) (p e : Nat) : Nat × Nat × Bytes × Node :=
  let a := n.assoc p e
  let a := match a.nextKey with
    | some k => { a with txKey := k, nextKey := none, epoch := (a.epoch + 1) % 2 ^ 32, txFctr := 0 }
    | none => a
  (a.epoch, a.txFctr, a.txKey, n.modAssoc p e fun _ => { a with txFctr := a.txFctr + 1 })

/-- Send a KEYX frame (R250, R253): encrypted and franked once there are keys; what stands in the place of the franking before
that is not stated. -/
def Node.sendKeyx (n : Node) (p e : Nat) (body : Bytes) : Node :=
  let k := n.mkPkt 0xFFFFFFFF (n.now + 10000) (Config.keyxType % 256) 0 0 body
  if (n.assoc p e).keyed then
    let (epoch, fctr, key, n) := n.takeFctr p e
    n.modPort p fun s => { s with lastKeyx := n.wireBytes p key (linkHeader 3 0 false 0 0 epoch fctr) (opHeader k) body }
  else
    let (x, n) := n.fresh
    let (y, n) := n.fresh
    let plain := opHeader k ++ body ++ (if n.portStack p = 1 then leBytes 4 (crc32c body) else []) ++ leBytes 8 x ++ leBytes 8 y
    n.modPort p fun s => { s with
      lastKeyx := linkHeader 3 0 false 0 0 0 0 ++ plain ++ (if n.portStack p = 0 then leBytes 4 (crc32c plain) else []) }

/-- Send the node's HELLO for an association. -/
def Node.startKeys (n : Node) (p e : Nat) (rekey : Bool) : Node :=
  let k := n.freeCtr
  let n := { n with freeCtr := n.freeCtr + 1 }
  let body := Config.helloBody (Config.certChain n.sec.mFirmware) (Config.helloKey k) (Config.helloRandom k) n.postcode
    (n.cw 10 1 p 0 0) (n.portStack p)
  (n.modAssoc p e fun a => { a with hello := some (k, n.now, body), peerHello := none, rekey := rekey, retryAt := none
    }).sendKeyx p e body

/-- Forget an association's keys. -/
def Assoc.unkey (a : Assoc) : Assoc :=
  { a with keyed := false, txKey := [], rxKey := [], oldKey := [], nextKey := none, oldLive := false, oldUntil := none,
           hello := none, peerHello := none }

/-- Full key exchange on a port that goes to KEYING: a native port's one association, or the one given. -/
def Node.goKeying (n : Node) (p e : Nat) : Node :=
  let n := n.modAssoc p e Assoc.unkey
  let n := if (n.assocKeys p).any fun e => (n.assoc p e).keyed then n else n.setPort p .keying
  n.startKeys p e false

/-- A key exchange fails (R267): a FAULT record, and another attempt after 1 s. -/
def Node.keyFail (n : Node) (p e bit : Nat) : Node :=
  let n := (n.portErr p 4 0).when (bit = 7) fun n => n.portErr p 7 0
  let n := n.fault (.port p 0) 3 8 bit none
  n.modAssoc p e fun a => { a with hello := none, peerHello := none, retryAt := some (n.now + 1000000000) }

/-- Does a certificate chain lead to an anchor of the chart? -/
def Node.chainOk (n : Node) (chain : Bytes) : Bool :=
  (compRecs n.chart.comp 10 6).any fun r => Config.chainTrusted (r.words.flatMap (leBytes 8)) chain

/-- H of R267: SHA-384 of both HELLOs, the one of the lower postcode first. -/
def Node.helloHash (n : Node) (own peer : Bytes) (peerPc : Nat) : Bytes :=
  sha384 (if n.postcode < peerPc then own ++ peer else peer ++ own)

/-- A HELLO arrives (R162, R267). -/
def Node.helloIn (n : Node) (p e : Nat) (m : HelloMsg) : Node :=
  if !(n.assocKeys p).contains e || !((n.port p).st == .up || (n.port p).st == .keying) then n
  else if n.localLate m.deadline then n.dropLate p
  else
    let n := if (n.assoc p e).keyed && !m.franked then
        (n.linkReset p).goKeying p e
      else if (n.assoc p e).hello.isNone then n.startKeys p e (n.assoc p e).keyed
      else n
    let pl := n.cw 10 5 p 1 0
    if m.order ≠ n.portStack p then n.keyFail p e 7
    else if m.mode ≠ n.cw 10 1 p 0 0 || !n.chainOk m.chain || !routeMatch (n.cw 10 5 p 0 0) pl m.postcode ||
        m.postcode == n.postcode then n.keyFail p e 4
    else
      match (n.assoc p e).hello with
      | none => n
      | some (_, _, own) =>
        let peer := Config.helloBody m.chain m.pubkey m.nonce m.postcode m.mode m.order
        let n := n.modAssoc p e fun a => { a with peerHello := some (m, peer) }
        n.sendKeyx p e (Config.aliasSign n.sec.mFirmware (n.helloHash own peer m.postcode))

/-- The port comes UP once keyed. -/
def Node.comeUp (n : Node) (p : Nat) : Node :=
  if (n.port p).st == .keying then
    let n := n.modPort p fun s => { s with st := .up, lastAt := n.now, ackDue := true }
    if n.follows && !n.time.source && n.time.attempt.isNone && (n.time.st == .holdover || n.time.st == .unlocked) then
      n.nextAttempt n.time.upstream
    else if n.follows && n.time.st == .acquire then n.acquireUp p
    else n
  else n

/-- A FINISH arrives: the signature is verified and the keys of both directions derived. -/
def Node.finishIn (n : Node) (p e : Nat) (x : FinishMsg) : Node :=
  let a := n.assoc p e
  if n.localLate x.deadline then n.dropLate p
  else match a.hello, a.peerHello with
  | some (k, _, own), some (m, peer) =>
    let h := n.helloHash own peer m.postcode
    if !Config.finishVerify m.chain x.signature h then n.keyFail p e 4
    else
      let z := Config.ecdh k m.pubkey
      let low := (sha384 (z ++ h ++ [1])).take 32
      let high := (sha384 (z ++ h ++ [2])).take 32
      let tx := if n.postcode < m.postcode then low else high
      let rx := if n.postcode < m.postcode then high else low
      if a.keyed && a.rekey then
        n.modAssoc p e fun a => { a with
          nextKey := some tx, oldKey := a.rxKey, rxKey := rx, oldLive := true, oldUntil := none, oldRx := a.rxFctr,
          oldWindow := a.window, rxEpoch := (a.rxEpoch + 1) % 2 ^ 32, rxFctr := 0, window := 0, keyAt := n.now,
          hello := none, peerHello := none, peer := m.postcode }
      else
        (n.modAssoc p e fun a => { a with
          keyed := true, txKey := tx, rxKey := rx, oldKey := [], oldLive := false, oldUntil := none, epoch := 0,
          rxEpoch := 0, txFctr := 0, rxFctr := 0, window := 0, nextKey := none, keyAt := n.now, hello := none,
          peerHello := none, peer := m.postcode }).comeUp p
  | _, _ => n

/-- An exchange not finished within 20 ms fails. -/
def Node.keyTimeout (n : Node) (p e : Nat) : Node :=
  match (n.assoc p e).hello with
  | some (_, t, _) => if t + 20000000 ≤ n.now then n.keyFail p e 4 else n
  | none => n

/-- The next attempt, 1 s after a failed exchange. -/
def Node.keyRetry (n : Node) (p e : Nat) : Node :=
  match (n.assoc p e).retryAt with
  | some t => if t ≤ n.now then n.startKeys p e (n.assoc p e).keyed else n
  | none => n

/-- Start a rekey on one association (R268). -/
def Node.rekey (n : Node) (p e : Nat) : Node :=
  let a := n.assoc p e
  if n.portUp p && a.keyed && a.hello.isNone && a.nextKey.isNone then n.startKeys p e true else n

/-- A transmit FCTR of 2^47 or a key 9 minutes old starts a rekey. -/
def Node.rekeyTrigger (n : Node) (p e : Nat) : Node :=
  let a := n.assoc p e
  if 2 ^ 47 ≤ a.txFctr ∨ a.keyAt + 540000000000 ≤ n.now then n.rekey p e else n

/-- May a key still send (R268)? -/
def Node.keyGood (n : Node) (a : Assoc) : Bool :=
  a.keyed && (a.nextKey.isSome || (decide (a.txFctr < 2 ^ 48) && decide (n.now < a.keyAt + 600000000000)))

/-- A key at its limit without a new one: KEYING. -/
def Node.keyLimitReached (n : Node) (p e : Nat) : Node :=
  if (n.assoc p e).keyed && !n.keyGood (n.assoc p e) then n.goKeying p e else n

/-- The old key is erased 100 µs after the first frame of the new epoch. -/
def Node.oldKeyErase (n : Node) (p e : Nat) : Node :=
  match (n.assoc p e).oldUntil with
  | some t => if t ≤ n.now then n.modAssoc p e fun a => { a with oldLive := false, oldUntil := none, oldKey := [] } else n
  | none => n

/-! ## Training -/

/-- Training or retraining ends with the two neighbours' masks of healthy lanes (R245 to R247). -/
def Node.portTrained (n : Node) (p mask peer : Nat) (ok : Bool) : Node :=
  let s := n.port p
  if s.st != .training && s.st != .retraining then n
  else
    let n := n.modPort p fun s => { s with lanes := mask % 256 }
    let g := bestGroup (mask &&& peer) s.limit
    match ok, g with
    | true, some (w, _) =>
      let n := n.modPort p fun s => { s with width := w, fails1 := 0, limit := w, lastAt := n.now }
      if s.st == .training then
        let n := (n.linkReset p).modPort p fun s => { s with st := .keying }
        forEach (n.assocKeys p) n fun n e => n.startKeys p e false
      else
        let n := if w ≠ s.width then n.portErr p 1 0 else n
        if (n.assocKeys p).any fun e => (n.assoc p e).keyed then
          (n.modPort p fun s => { s with st := .keying }).comeUp p
        else forEach (n.assocKeys p) (n.setPort p .keying) fun n e => n.startKeys p e false
    | _, _ =>
      if s.st == .retraining && decide ((g.map Prod.fst).getD 1 = 1) then
        let n := n.modPort p fun s => { s with fails1 := s.fails1 + 1 }
        if 3 ≤ (n.port p).fails1 then n.failPort p else n
      else n

/-- The symbol error ratio that makes a lane faulty, in millionths (R246; log entry 98). -/
def Node.symbolLimit (n : Node) (p : Nat) : Nat := n.cw 10 1 p 5 100

/-- Is a lane faulty: block lock lost, a symbol error ratio beyond the limit, or more than 16 uncorrectable codewords? -/
def Node.laneFaulty (n : Node) (p : Nat) (e : LaneErr) : Bool :=
  e.lockLost || decide (n.symbolLimit p * e.symbols < e.errors * 1000000) || decide (16 < e.uncorrectable)

/-- A lane of an UP port becomes faulty (R246): a FAULT record and a retrain, at no greater width. -/
def Node.laneFault (n : Node) (p : Nat) (e : LaneErr) : Node :=
  let lane := e.lane
  if n.portUp p && n.laneFaulty p e then
    let n := n.modPort p fun s => { s with lanes := s.lanes - (if bitAt s.lanes lane then 2 ^ lane else 0) }
    let n := (n.portErr p 0 lane).fault (.port p lane) 3 8 0 none
    n.retrain p (n.port p).width
  else n

/-- PORT_CTL.RETRAIN: retrain at the widest width the lanes allow, in Standby at width 1 (R389); a FAILED port returns
(R247). -/
def Node.hostRetrain (n : Node) (p : Nat) : Node :=
  let w := if n.power.standby then 1 else 8
  match (n.port p).st with
  | .up | .keying | .retraining => n.retrain p w
  | .failed => (n.modPort p fun s => { s with fails1 := 0 }).retrain p w
  | .training => n.modPort p fun s => { s with limit := w }
  | .disabled => n

/-! ## The egress (R254 to R259, R262, R363) -/

/-- The time a frame takes on the wire, in units of 1/200 ns: 200 Gbit/s a lane. -/
def Node.wireTime (n : Node) (p : Nat) (k : Packet) : Nat :=
  if (n.port p).width = 0 then 0 else (k.payload.length + 76) * 8 / (n.port p).width

/-- The member of a lock whose turn it is: members that are not in are left out of the cycle. -/
def Node.lockTurn (n : Node) (g : Nat) : Option Nat :=
  let ms := n.lockPorts g
  let start := (mapGet n.locks g).member
  ((upTo ms.length).map fun j => ms.getD ((start + j) % ms.length) 0).find? n.memberIn

/-- After a locked frame: the next LOCK_SEQ, and the next member once this one has sent as many frames as it has
lanes. -/
def Node.lockSent (n : Node) (p : Nat) : Node :=
  let g := n.lockGroup p
  let ms := n.lockPorts g
  let i := ms.findIdx (· == p)
  let l := mapGet n.locks g
  let taken := (if l.member = i then l.inTurn else 0) + 1
  let l := { l with txSeq := (l.txSeq + 1) % 65536 }
  let l := if (n.port p).width ≤ taken then { l with member := (i + 1) % ms.length, inTurn := 0 }
    else { l with member := i, inTurn := taken }
  { n with locks := mapSet n.locks g l }

/-- Is a queued frame one of a lock's? -/
def Node.lockFrame (n : Node) (p : Nat) (q : Queued) : Bool := n.lockGroup p != 0 && q.pkt.dst != 0xFFFFFFFF

/-- The frames of a class that a port may choose from: the queue's port and index, and the frame. A lock's frames
wait at member 0 and leave by the member whose turn it is. -/
def Node.egressFrames (n : Node) (p c : Nat) : List (Nat × Nat × Queued) :=
  let lead := n.queuePort p
  let turn := n.lockGroup p != 0 && n.lockTurn (n.lockGroup p) == some p
  let own := ((n.port p).queues.getD c []).zipIdx.map fun (q, i) => (p, i, q)
  let lock := if lead = p then [] else ((n.port lead).queues.getD c []).zipIdx.map fun (q, i) => (lead, i, q)
  (own ++ lock).filter fun x => if n.lockFrame x.1 x.2.2 then turn else x.1 == p

/-- Why a frame at the head of its queue is dropped: 1 EXPIRED (R52), 5 NO_PEER, 4 no key with its peer; 0 it stays. -/
def Node.headReason (n : Node) (p : Nat) (k : Packet) : Nat :=
  if k.deadline ≤ n.now + n.guardNow then 1
  else match n.peerFor p k.dst with
    | none => 5
    | some e => if n.switched p && !n.keyGood (n.assoc p e) then 4 else 0

/-- The frames of a queue that leave it from the head of their group, and those that stay. -/
def splitHeads (reason : Packet → Nat) : List Nat → List Queued → List (Queued × Nat) × List Queued
  | _, [] => ([], [])
  | seen, q :: rest =>
    if !seen.contains q.group && reason q.pkt != 0 then
      let (gone, kept) := splitHeads reason seen rest
      ((q, reason q.pkt) :: gone, kept)
    else
      let (gone, kept) := splitHeads reason (q.group :: seen) rest
      (gone, q :: kept)

/-- Drop what has expired, or has no peer, at the heads of a port's queues. -/
def Node.dropHeads (n : Node) (p : Nat) : Node :=
  forEach (upTo 4) n fun n c =>
    let (gone, kept) := splitHeads (n.headReason p) [] ((n.port p).queues.getD c [])
    if gone.isEmpty then n
    else
      let n := n.modPort p fun s => { s with queues := listPut [] s.queues c kept }
      forEach gone n fun n x => n.dropQueued p x.1 x.2

/-- May a frame be sent now: an UP port, a live key, and on a native port the credits and room in the retry buffer? -/
def Node.sendable (n : Node) (p : Nat) (k : Packet) : Bool :=
  let s := n.port p
  match n.peerFor p k.dst with
  | none => false
  | some e =>
    n.keyGood (n.assoc p e) && (n.switched p ||
      (decide (ceilDiv (k.payload.length + 76) 64 ≤ s.txCredits.getD k.cls 0) && decide (s.unacked.length < 32767) &&
       decide (s.unacked.foldl (fun a u => a + u.pkt.payload.length + 76) (k.payload.length + 76) ≤ 524288)))

/-- The weight of a group in the round robin: the quads a partition owns, or TRANSIT_WEIGHT. -/
def Node.groupWeight (n : Node) (g : Nat) : Nat :=
  if g = 32 then max 1 (min 32 (n.rd R.PART_PORT_CFG_TRANSIT_WEIGHT 0)) else max 1 (n.partQuads g).length

/-- The first frame of each group that has one. -/
def heads (l : List (Nat × Nat × Queued)) : List (Nat × Nat × Queued) :=
  (span 0 33).filterMap fun g => l.find? fun x => x.2.2.group == g

/-- Deficit round robin among the groups of a class (R363): a group's turn adds its weight times the largest frame. -/
def Node.pickShared (n : Node) (p c : Nat) (hs : List (Nat × Nat × Queued)) : Option ((Nat × Nat × Queued) × Map Nat × Nat) :=
  let s := n.port p
  let cur := mapGet s.skip c
  let len (x : Nat × Nat × Queued) : Nat := x.2.2.pkt.payload.length + 76
  match hs.find? fun x => x.2.2.group == cur with
  | some x =>
    let d := mapGet s.deficits (c * 64 + cur)
    if len x ≤ d then some (x, mapSet s.deficits (c * 64 + cur) (d - len x), cur)
    else
      let later := hs.filter fun y => decide (cur < y.2.2.group)
      match (later ++ hs).head? with
      | none => none
      | some y =>
        let g := y.2.2.group
        let d := mapGet s.deficits (c * 64 + g) + n.groupWeight g * 9292
        some (y, mapSet s.deficits (c * 64 + g) (d - len y), g)
  | none =>
    let later := hs.filter fun y => decide (cur < y.2.2.group)
    match (later ++ hs).head? with
    | none => none
    | some y =>
      let g := y.2.2.group
      let base := mapSet s.deficits (c * 64 + cur) 0
      some (y, mapSet base (c * 64 + g) (mapGet base (c * 64 + g) + n.groupWeight g * 9292 - len y), g)

/-- The group whose slot of the ISOLATED schedule holds the present time, and the slot's end in 1/200 ns (R363). -/
def Node.slotNow (n : Node) (p : Nat) : Option (Nat × Nat) :=
  let period := if (n.port p).width = 1 then 4000000 else 2000000
  let t := n.now * 200 % period
  let transit := period * max 5 (min 50 (n.rd R.PART_PORT_CFG_TRANSIT_PCT 0)) / 100
  if t < transit then some (32, transit - t)
  else
    let rest := period - transit - period * n.controlPct p / 100
    let recs := compRecs n.chart.comp 1 1
    let cnt (m : Nat) : Nat := (n.quadList.filter fun q => bitAt m q).length
    let total := recs.foldl (fun a r => a + cnt (r.words.getD 0 0)) 0
    let go := (sortOn ChartRec.index recs).foldl (fun (acc : Nat × Option (Nat × Nat)) r =>
      let e := acc.1 + (if total = 0 then 0 else rest * cnt (r.words.getD 0 0) / total)
      match acc.2 with
      | some x => (e, some x)
      | none => (e, if t < e then some (r.index, e - t) else none)) (transit, none)
    go.2

/-- The frame of a class that would be sent next, with the round robin's new state. -/
def Node.pick (n : Node) (p c : Nat) : Option ((Nat × Nat × Queued) × Map Nat × Nat) :=
  let s := n.port p
  let hs := heads (n.egressFrames p c)
  let got :=
    if c ≠ 0 ∧ n.portMode = 1 then
      match n.slotNow p with
      | none => none
      | some (g, left) =>
        match hs.find? fun x => x.2.2.group == g && decide (n.wireTime p x.2.2.pkt ≤ left) with
        | none => none
        | some x => some (x, s.deficits, mapGet s.skip c)
    else n.pickShared p c hs
  got.filter fun x => n.sendable p x.1.2.2.pkt

/-- The class whose frame is sent next (R257): CONTROL within its share; FIRST, then PARCEL below their minimum;
EXPRESS, FIRST, PARCEL. -/
def Node.chooseClass (n : Node) (p : Nat) : Option Nat :=
  let used (c : Nat) : Nat := (n.port p).used.getD c 0
  let ready (c : Nat) : Bool := (n.pick p c).isSome
  let under (c pct : Nat) : Bool := decide (used c * 100 < 2000000 * pct)
  if ready 0 && under 0 (n.controlPct p) then some 0
  else if ready 2 && under 2 (n.firstMin p) then some 2
  else if ready 3 && under 3 (n.parcelMin p) then some 3
  else [1, 2, 3].find? ready

/-- Put a frame on the wire: epoch, counter and bytes. -/
def Node.putFrame (n : Node) (p e sq lockSeq : Nat) (locked : Bool) (k : Packet) : Node :=
  let (epoch, fctr, key, n) := n.takeFctr p e
  let frame := n.wireBytes p key (linkHeader 1 k.cls locked sq lockSeq epoch fctr) (opHeader k) k.payload
  let hdr := if n.switched p then n.switchedHeader p e k frame else []
  (n.modPort p fun s => { s with lastHdr := hdr, lastTx := frame }).inc R.PORT_FRAME_CNT_TX (portBase p) 1

/-- Send again the next frame of a resend (R254). -/
def Node.linkResend (n : Node) (p i : Nat) : Node :=
  match (n.port p).unacked[i]? with
  | none => n.modPort p fun s => { s with resendFrom := none }
  | some u =>
    let locked := n.lockGroup p != 0 && u.pkt.dst != 0xFFFFFFFF
    let n := (n.putFrame p 0 u.sq u.lockSeq locked u.pkt).inc R.PORT_RETRY_CNT_RESENT (portBase p) 1
    n.modPort p fun s => { s with resendFrom := if i + 1 < s.unacked.length then some (i + 1) else none }

/-- A frame boundary at an egress: the next frame is chosen and sent. -/
def Node.egressSend (n : Node) (p : Nat) : Node :=
  if !n.portUp p then n
  else
    let n := n.modPort p fun s =>
      if s.windowAt = n.now / 10000 then s else { s with windowAt := n.now / 10000, used := [0, 0, 0, 0] }
    let n := n.dropHeads p
    let n := if n.queuePort p = p then n else n.dropHeads (n.queuePort p)
    match (n.port p).resendFrom with
    | some i => if n.keyGood (n.assoc p 0) then n.linkResend p i else n
    | none =>
      match n.chooseClass p with
      | none => n
      | some c =>
        match n.pick p c with
        | none => n
        | some ((src, i, q), def', cur) =>
          let queued := ((n.port src).queues.getD c []).foldl (fun a x => a + x.pkt.payload.length + 76) 0
          let k := if !n.switched p && c ≠ 0 && n.markKib p c * 1024 < queued then { q.pkt with ce := true } else q.pkt
          let locked := n.lockFrame src q
          let lockSeq := if locked then (mapGet n.locks (n.lockGroup p)).txSeq else 0
          let e := (n.peerFor p k.dst).getD 0
          let sq := if n.switched p then 0 else (n.port p).txSeq
          let time := n.wireTime p k
          let n := n.modPort src fun s => { s with queues := listPut [] s.queues c ((s.queues.getD c []).eraseIdx i) }
          let n := n.modPort p fun s => { s with
            deficits := def', skip := mapSet s.skip c cur, used := listPut 0 s.used c (s.used.getD c 0 + time) }
          let n := n.releaseHold q
          let n := if n.switched p then n
            else n.modPort p fun s => { s with
              txSeq := (s.txSeq + 1) % 65536, unacked := s.unacked ++ [⟨sq, k, lockSeq⟩],
              ackAt := if s.unacked = [] then n.now else s.ackAt,
              txCredits := listPut 0 s.txCredits c (s.txCredits.getD c 0 - ceilDiv (k.payload.length + 76) 64) }
          let n := if locked then n.lockSent p else n
          (n.traceRec 2 (.port p 0) (if q.group < 32 then some q.group else none)).putFrame p e sq lockSeq locked k

/-- A LINK frame leaves (R255): the last SEQ accepted, NAK, and credit returns, none of these while level 4 runs (R422). -/
def Node.linkSend (n : Node) (p : Nat) : Node :=
  let s := n.port p
  if !n.portUp p || n.switched p || !n.keyGood (n.assoc p 0) ||
      (decide (s.lastLinkAt ≠ 0) && decide (n.now < s.lastLinkAt + 20)) then n
  else
    let (epoch, fctr, key, n) := n.takeFctr p 0
    let ret (c : Nat) : Nat := if n.err.warmAt.isSome then 0 else min (s.rxReturn.getD c 0) 65535
    let body := leBytes 2 s.lastAck ++ leBytes 6 (b2n s.nakDue) ++ (upTo 4).flatMap fun c => leBytes 2 (ret c)
    let n := if s.nakDue then n.inc R.PORT_RETRY_CNT_NAKS (portBase p) 1 else n
    n.modPort p fun s => { s with
      lastLink := n.wireBytes p key (linkHeader 2 0 false 0 0 epoch fctr) [] body, nakDue := false, ackDue := false, lastLinkAt := n.now,
      rxReturn := (upTo 4).map fun c => s.rxReturn.getD c 0 - ret c }

/-! ## The ingress -/

/-- Replay state after a counter, none when it is rejected (R266): native counters must rise, a switched association
keeps a window of 1,024. -/
def replayOk (native : Bool) (top window c : Nat) : Option (Nat × Nat) :=
  if top ≤ c then
    let sh := c + 1 - top
    some (c + 1, if 1024 ≤ sh then 1 else (window * 2 ^ sh + 1) % 2 ^ 1024)
  else if native then none
  else
    let d := top - 1 - c
    if 1024 ≤ d ∨ bitAt window d then none else some (top, window + 2 ^ d)

/-- What franking and replay checks say of a frame: its plaintext when both hold. -/
inductive Franked where
  | ok (a : Assoc) (plain : Bytes) | replay | bad
  deriving DecidableEq, Repr

/-- Check a frame's epoch, franking and counter against an association, and decrypt it. -/
def Node.frankCheck (n : Node) (native : Bool) (a : Assoc) (hdr sealed' : Bytes) : Franked :=
  let epoch := leAt hdr 8 4
  let fctr := leAt hdr 16 8
  if !a.keyed then .bad
  else if epoch = a.rxEpoch then
    match gcmOpen a.rxKey (frameNonce hdr) hdr sealed' with
    | none => .bad
    | some plain =>
      match replayOk native a.rxFctr a.window fctr with
      | none => .replay
      | some (top, w) =>
        .ok { a with rxFctr := top, window := w,
                     oldUntil := if a.oldLive && a.oldUntil.isNone then some (n.now + 100000) else a.oldUntil } plain
  else if a.oldLive && (epoch + 1) % 2 ^ 32 == a.rxEpoch && a.oldUntil.all fun t => decide (n.now < t) then
    match gcmOpen a.oldKey (frameNonce hdr) hdr sealed' with
    | none => .bad
    | some plain =>
      match replayOk native a.oldRx a.oldWindow fctr with
      | none => .replay
      | some (top, w) => .ok { a with oldRx := top, oldWindow := w } plain
  else .bad

/-- A native frame is lost to a link error: NAK, once until the missing SEQ arrives (R254). -/
def Node.linkError (n : Node) (p : Nat) : Node :=
  n.modPort p fun s => { s with nakDue := s.nakDue || !s.nakOpen, nakOpen := true, ackDue := true }

/-- A franking failure of a native port is counted; more than 16 within 1 ms take it to KEYING (R269). -/
def Node.frankFail (n : Node) (p e : Nat) : Node :=
  let n := (n.inc R.PORT_SEC_CNT_FRANK_FAIL (portBase p) 1).linkError p
  let times := (n.now :: (n.port p).frankTimes).take 17
  let n := n.modPort p fun s => { s with frankTimes := times }
  if times.length = 17 ∧ n.now < times.getLastD 0 + 1000000 then
    let n := (n.portErr p 5 0).alarm (.port p 0) 0 8 5
    (n.modPort p fun s => { s with frankTimes := [] }).goKeying p e
  else n

/-- A packet handed up: the port it came in on, and the port it is steered from. -/
structure Handed where
  src  : Nat
  port : Nat
  pkt  : Packet
  deriving DecidableEq, Repr

/-- Merge a locked frame in LOCK_SEQ order: what can be handed on, and the lock's new state (R248). -/
def lockFlush (lead : Nat) : Nat → LockSt → List Handed × LockSt
  | 0, l => ([], l)
  | fuel + 1, l =>
    match l.waiting.find? fun x => x.1 == l.rxSeq with
    | none => ([], l)
    | some x =>
      let (out, l') := lockFlush lead fuel
        { l with rxSeq := (l.rxSeq + 1) % 65536, waiting := l.waiting.filter fun y => y.1 != x.1 }
      (match x.2.2 with
       | some k => (⟨x.2.1, lead, k⟩ :: out, l')
       | none => (out, l'))

/-- Hand on what a lock's receive state allows, and note whether a gap is open. -/
def Node.lockDrain (n : Node) (g : Nat) (l : LockSt) : List Handed × Node :=
  let lead := (n.lockPorts g).headD 0
  let (out, l) := lockFlush lead l.waiting.length l
  let l := { l with gapAt := if l.waiting.isEmpty then none
                             else if out.isEmpty then (match l.gapAt with
                               | some t => some t
                               | none => some n.now)
                             else some n.now }
  (out, { n with locks := mapSet n.locks g l })

/-- A locked frame accepted from the link; one whose place was skipped is discarded and its credits return. -/
def Node.lockIn (n : Node) (p lockSeq : Nat) (k : Option Packet) : List Handed × Node :=
  let g := n.lockGroup p
  let l := mapGet n.locks g
  if sdiff 16 lockSeq l.rxSeq < 0 then
    ([], match k with
      | some k => n.freeCredits p k
      | none => n)
  else n.lockDrain g { l with waiting := l.waiting ++ [(lockSeq, p, k)] }

/-- A gap open for 2 µs is skipped and counted (R248). -/
def Node.lockGap (n : Node) (g : Nat) : List Handed × Node :=
  let l := mapGet n.locks g
  match l.gapAt with
  | none => ([], n)
  | some t =>
    if n.now < t + 2000 then ([], n)
    else
      let n := n.portErr ((n.lockPorts g).headD 0) 6 0
      let first := (sortOn (fun s => (s + 65536 - l.rxSeq) % 65536) (l.waiting.map Prod.fst)).headD l.rxSeq
      n.lockDrain g { l with rxSeq := first, skips := l.skips + 1 }

/-- CHECK_INNER of a decrypted frame (R161): what stands before it, none when it fails. `head` is the length of the header. -/
def Node.innerCheck (n : Node) (p head : Nat) (plain : Bytes) : Option Bytes :=
  if n.portStack p = 1 then
    let body := plain.take (plain.length - 4)
    if plain.length < 4 ∨ leAt plain (plain.length - 4) 4 ≠ crc32c (body.drop head) then none else some body
  else some plain

/-- A DATA frame that the link has accepted: CHECK_INNER and the header (R161, R162, R251); the packet, none when it is
discarded. -/
def Node.openFrame (n : Node) (p : Nat) (hdr plain : Bytes) (ce : Bool) : Option Packet × Node :=
  match n.innerCheck p 32 plain with
  | none => (none, ((n.inc R.PORT_SEC_CNT_CHECK_FAIL (portBase p) 1).portErr p 8 0).fault (.port p 0) 3 8 8 none)
  | some body =>
    if 8 ≤ leAt hdr 1 1 ∨ leAt hdr 6 2 ≠ 0 ∨ leAt hdr 12 4 ≠ 0 then (none, n.inc R.PORT_DROP_CNT_BAD_HEADER (portBase p) 1)
    else match readPacket (leAt hdr 1 1 % 4) body with
      | none => (none, n.inc R.PORT_DROP_CNT_BAD_HEADER (portBase p) 1)
      | some k => (some { k with ce := k.ce || ce }, n)

/-- The parts of a received frame: link header; ciphertext and franking; whether CHECK_OUTER holds where the port has it. -/
def Node.frameParts (n : Node) (p : Nat) (f : RxFrame) : Bytes × Bytes × Bool :=
  let rest := f.bytes.drop 24
  if n.portStack p = 0 then
    let sealed' := rest.take (rest.length - 4)
    (f.bytes.take 24, sealed', decide (4 ≤ rest.length) && leAt rest (rest.length - 4) 4 == crc32c sealed')
  else (f.bytes.take 24, rest, true)

/-- A DATA frame of a switched port (R258, R259, R266, R269). -/
def Node.rxSwitched (n : Node) (p : Nat) (f : RxFrame) : List Handed × Node :=
  let (hdr, sealed', outerOk) := n.frameParts p f
  if !f.fecOk then ([], n)
  else match n.ipRead p f.ip f.bytes with
    | .foreign => ([], n)
    | .bad => ([], n.inc R.PORT_DROP_CNT_BAD_HEADER (portBase p) 1)
    | .icmp => ([], n.modPort p fun s => { s with icmp := s.icmp + 1 })
    | .frame e ce =>
      if !outerOk then ([], n.inc R.PORT_SEC_CNT_CHECK_FAIL (portBase p) 1)
      else match n.frankCheck false ((e.map (n.assoc p)).getD default) hdr sealed' with
        | .bad => ([], n.inc R.PORT_SEC_CNT_FRANK_FAIL (portBase p) 1)
        | .replay => ([], n.inc R.PORT_SEC_CNT_REPLAY (portBase p) 1)
        | .ok a plain =>
          let n := (n.modAssoc p (e.getD 0) fun _ => a).modPort p fun s => { s with lastAt := n.now }
          let n := n.inc R.PORT_FRAME_CNT_RX (portBase p) 1
          let (k, n) := n.openFrame p hdr plain ce
          (k.toList.map fun k => ⟨p, p, k⟩, n)

/-- A DATA frame of a native port (R254, R265, R266, R269). -/
def Node.rxNative (n : Node) (p : Nat) (f : RxFrame) : List Handed × Node :=
  let (hdr, sealed', outerOk) := n.frameParts p f
  if !f.fecOk then ([], n.linkError p)
  else if !outerOk then ([], (n.inc R.PORT_SEC_CNT_CHECK_FAIL (portBase p) 1).linkError p)
  else match n.frankCheck true (n.assoc p 0) hdr sealed' with
    | .bad => ([], n.frankFail p 0)
    | .replay => ([], (n.inc R.PORT_SEC_CNT_REPLAY (portBase p) 1).linkError p)
    | .ok a plain =>
      let n := (n.modAssoc p 0 fun _ => a).modPort p fun s => { s with lastAt := n.now }
      let sq := leAt hdr 2 2
      if sq ≠ (n.port p).rxSeq then ([], n.linkError p)
      else
        let n := n.modPort p fun s => { s with
          rxSeq := (s.rxSeq + 1) % 65536, lastAck := sq, nakOpen := false, nakDue := false, ackDue := true }
        let n := n.inc R.PORT_FRAME_CNT_RX (portBase p) 1
        let (k, n) := n.openFrame p hdr plain false
        let n := match k with
          | some _ => n
          | none => n.freeBytes p (leAt hdr 1 1 % 4) f.bytes.length
        if bitAt (leAt hdr 1 1) 2 && n.lockGroup p != 0 then n.lockIn p (leAt hdr 4 2) k
        else (k.toList.map fun k => ⟨p, p, k⟩, n)

/-- A DATA frame arrives: the packets now handed on. -/
def Node.rxData (n : Node) (p : Nat) (f : RxFrame) : List Handed × Node :=
  if n.switched p then n.rxSwitched p f else n.rxNative p f

/-- The retry buffer's frames after an acknowledgement of a SEQ. -/
def ackedCount (ack : Nat) : List Unacked → Nat
  | [] => 0
  | u :: rest => if 0 ≤ sdiff 16 ack u.sq then 1 + ackedCount ack rest else 0

/-- Start resending from the first unacknowledged frame; after 8 resends of one SEQ without progress the port retrains
at its present width (R254). -/
def Node.startResend (n : Node) (p : Nat) : Node :=
  let s := n.port p
  match s.unacked.head? with
  | none => n
  | some u =>
    let k := if s.resendSeq = u.sq then s.resends else 0
    if 8 ≤ k then (n.modPort p fun s => { s with resendFrom := some 0 }).retrain p s.width
    else n.modPort p fun s => { s with resendFrom := some 0, resends := k + 1, resendSeq := u.sq, ackAt := n.now }

/-- A LINK frame arrives. -/
def Node.rxLink (n : Node) (p : Nat) (f : RxFrame) : Node :=
  let (hdr, sealed', outerOk) := n.frameParts p f
  if n.switched p || !f.fecOk || !outerOk then n
  else match n.frankCheck true (n.assoc p 0) hdr sealed' with
    | .bad => n.frankFail p 0
    | .replay => n.inc R.PORT_SEC_CNT_REPLAY (portBase p) 1
    | .ok a plain =>
      match n.innerCheck p 0 plain with
      | none => ((n.inc R.PORT_SEC_CNT_CHECK_FAIL (portBase p) 1).portErr p 8 0).fault (.port p 0) 3 8 8 none
      | some body =>
        let n := (n.modAssoc p 0 fun _ => a).modPort p fun s => { s with lastAt := n.now }
        let k := ackedCount (leAt body 0 2) (n.port p).unacked
        let n := n.modPort p fun s => { s with
          unacked := s.unacked.drop k, resendFrom := s.resendFrom.map (· - k),
          resends := if k = 0 then s.resends else 0, ackAt := if k = 0 then s.ackAt else n.now,
          txCredits := (upTo 4).map fun c => min 65535 (s.txCredits.getD c 0 + leAt body (8 + 2 * c) 2) }
        if bitAt (leAt body 0 4) 16 then n.startResend p else n

/-- RETRY_TIMEOUT passes without an acknowledgement of a frame that waits for one. -/
def Node.retryTimeout (n : Node) (p : Nat) : Node :=
  let s := n.port p
  if n.portUp p && !n.switched p && s.unacked != [] && decide (s.ackAt + n.retryUs p * 1000 ≤ n.now) then n.startResend p else n

/-- No valid frame for 100 µs: the port retrains (R255). -/
def Node.linkIdle (n : Node) (p : Nat) : Node :=
  if n.portUp p && !n.switched p && decide ((n.port p).lastAt + 100000 ≤ n.now) then n.retrain p (n.port p).width else n

/-- A frame with the LTYPE of its row. -/
def ofLtype (k : Nat) (f : RxFrame) : RxFrame := { f with bytes := BitVec.ofNat 8 k :: f.bytes.drop 1 }

/-- A frame arrives at a port that carries frames. -/
def Node.rxFrame (n : Node) (p : Nat) (f : RxFrame) : List Handed × Node :=
  if !n.portUp p then ([], n)
  else match leAt f.bytes 0 1 with
    | 1 => if n.err.warmAt.isSome then ([], n) else n.rxData p f
    | 2 => ([], n.rxLink p f)
    | _ => ([], n)

/-! ## Neighbor Discovery (R258) -/

/-- A Neighbor Solicitation for the port's own address is answered with its MAC; one for another address is counted like every
other ICMPv6 message. -/
def Node.solicited (n : Node) (p : Nat) (target source : Bytes) : Node :=
  if !n.switched p || (n.port p).st == .disabled || (n.port p).st == .failed then n
  else if target != n.portIp p then n.modPort p fun s => { s with icmp := s.icmp + 1 }
  else
    let flags := if source.all (· == 0) then 0x20 else 0x60
    let rest := beBytes 4 (flags * 2 ^ 24) ++ n.portIp p ++ [2, 1] ++ beBytes 6 (n.ethWord p 0)
    let sum := inetSum (n.portIp p ++ source ++ beBytes 4 32 ++ beBytes 4 58 ++ [136, 0] ++ rest)
    n.sendRaw p [[136, 0] ++ beBytes 2 (65535 - sum) ++ rest]

end Sys2Proof.Machine
end

