-- ==== Sys2Proof/Machine/Rings.lean ====
section
/-!
DEFINITION. What the node writes for the host: rings in host memory or HBM, completions (R306, R310, R317), reply and
notice rings (R316), interrupts (R318).
-/

namespace Sys2Proof.Machine

/-- Write bytes into host memory as the host will find them. -/
def Node.hostWrite (n : Node) (a : Nat) (bs : Bytes) : Node :=
  n.modHost fun h => { h with mem := hbmPut h.mem a bs }

/-! ## Lines the host holds (R320) -/

/-- Must a node access to a range wait for a line the host holds EM? -/
def Node.hostHolds (n : Node) (a len : Nat) : Bool :=
  n.host.dir.any fun e => decide (a < e.1 + 64) && decide (e.1 < a + len) && e.2.em

/-- Snoop the lines of a range: every EM line, and for a write the Shared ones too. -/
def Node.snoopRange (n : Node) (a len : Nat) (write : Bool) : Node :=
  let lines := (n.host.dir.filter fun e =>
    decide (a < e.1 + 64) && decide (e.1 < a + len) && (e.2.em || write) && e.2.snooped.isNone).map Prod.fst
  if lines = [] then n
  else
    let whole (l : Nat) : Bool := write && decide (a ≤ l) && decide (l + 64 ≤ a + len)
    (n.modHost fun hs =>
      { hs with
        dir := hs.dir.map fun e =>
          if lines.contains e.1 then (e.1, { e.2 with snooped := some n.now, write := whole e.1 }) else e
        snoops := hs.snoops ++ lines.map fun l => (l, !write) }).inc R.DIR_CNT_SNOOPS 0 lines.length

/-- A stack is touched: it leaves self-refresh (R388). -/
def Node.wakeStack (n : Node) (q : Nat) : Node :=
  if (n.quad q).selfRefresh then n.modQuad q fun x => { x with selfRefresh := false } else n

/-- Write at a ring address (RING_ADDR: bit 63 names host memory); a write to a line the host holds EM waits for it. -/
def Node.ringWrite (n : Node) (a : Nat) (bs : Bytes) : Node :=
  let x := a % 2 ^ 41
  if bitAt a 63 then n.hostWrite (a % 2 ^ 63) bs
  else
    let n := (n.snoopRange x bs.length true).wakeStack (addrQuad x)
    if n.hostHolds x bs.length then n.modHost fun h => { h with ringWaits := h.ringWaits ++ [(x, bs)] }
    else n.hbmStore x bs

/-- Can bytes be written at a ring address: host memory while the link is up; HBM of an online quad, where the write leaves no
poisoned line half written (R317, R321). -/
def Node.ringOk (n : Node) (a len : Nat) : Bool :=
  if bitAt a 63 then n.host.link
  else
    let x := a % 2 ^ 41
    let part (e : Nat) : Bool := e % 64 != 0 && n.poisoned (e / 64 * 64) 64
    (n.quad (addrQuad x)).st != .offline && !part x && !part (x + len)

/-- Raise the post box's vector, or keep the event for the end of the hold-off (R318). -/
def Node.raiseIrq (n : Node) (b : Nat) : Node :=
  if n.rd R.PB_CFG_IRQ_EN (boxBase b) = 0 then n
  else if n.now < (n.box b).irqUntil then n.modBox b fun x => { x with irqPend := true }
  else (n.raiseVector (n.rd R.PB_CFG_VECTOR (boxBase b))).modBox b fun x =>
    { x with irqUntil := n.now + n.rd R.PB_CFG_IRQ_HOLDOFF_US (boxBase b) * 1000 }

/-- A DISABLED post box with its indices cleared; ERR_CODE stays. -/
def BoxSt.cleared (x : BoxSt) : BoxSt :=
  { (default : BoxSt) with err := x.err, irqUntil := x.irqUntil, irqPend := x.irqPend }

/-- A post box whose last command has completed (R317). -/
def Node.drainBox (n : Node) (b : Nat) : Node :=
  let x := n.box b
  if x.inflight = 0 ∧ x.st = .draining then
    n.modBox b fun x =>
      if x.clearing then x.cleared else { x with st := .disabled }
  else n

/-- The completion bytes (table Completion). -/
def cplBytes (tag status detail result done log2 : Nat) : Bytes :=
  leBytes 4 (tag % 65536 + status % 256 * 2 ^ 16 + (1 - done / 2 ^ log2 % 2) * 2 ^ 31) ++ leBytes 4 detail ++
    leBytes 8 result

/-- Complete a host command (R310, R317, R322): written in completion order unless completions are suppressed, the
host has failed, or the ring cannot be written. -/
def Node.complete (n : Node) (c : CmdRef) (status detail result : Nat) : Node :=
  let x := n.box c.box
  let base := n.rd R.PB_CPL_BASE_BASE (boxBase c.box)
  let log2 := n.rd R.PB_CFG_CPL_LOG2 (boxBase c.box)
  let n := n.modBox c.box fun x => { x with inflight := x.inflight - 1 }
  let n := n.inc R.PB_CNT_COMMANDS (boxBase c.box) 1
  let n :=
    if x.suppress ∨ (n.host.st = .orphan ∧ bitAt base 63) then n.inc R.PB_CNT_CPL_LOST (boxBase c.box) 1
    else if !n.ringOk (base + x.done % 2 ^ log2 * 16) 16 then
      let n := n.inc R.PB_CNT_CPL_LOST (boxBase c.box) 1
      n.modBox c.box fun x => if x.st = .error then x else { x with st := .error, err := 3 }
    else
      let n := n.ringWrite (base + x.done % 2 ^ log2 * 16) (cplBytes c.tag status detail result x.done log2)
      (n.modBox c.box fun x => { x with done := (x.done + 1) % 2 ^ 32 }).raiseIrq c.box
  n.drainBox c.box

/-- Complete where a command is known. -/
def Node.completeOpt (n : Node) (c : Option CmdRef) (status detail result : Nat) : Node :=
  match c with
  | none => n
  | some c => n.complete c status detail result

/-- Write a reply frame into the ring of its mailbox, or discard it (R316). -/
def Node.hostReply (n : Node) (mailbox : Nat) (frame : Bytes) : Node :=
  if 4096 ≤ mailbox then n.hpErr 7 0
  else
    let x := n.box mailbox
    let log2 := n.rd R.PB_CFG_RR_LOG2 (boxBase mailbox)
    let base := n.rd R.PB_RR_BASE_BASE (boxBase mailbox)
    let used := (x.rrTail + 2 ^ 32 - x.rrFree) % 2 ^ 32
    if x.st ≠ .enabled ∨ log2 = 0 ∨ 2 ^ log2 ≤ used ∨ (n.host.st = .orphan ∧ bitAt base 63) then
      n.inc R.PB_CNT_REPLY_DROP (boxBase mailbox) 1
    else if !n.ringOk (base + x.rrTail % 2 ^ log2 * 9216) frame.length then
      (n.inc R.PB_CNT_REPLY_DROP (boxBase mailbox) 1).modBox mailbox fun x => { x with st := .error, err := 3 }
    else
      let n := n.ringWrite (base + x.rrTail % 2 ^ log2 * 9216) frame
      (n.modBox mailbox fun x => { x with rrTail := (x.rrTail + 1) % 2 ^ 32 }).raiseIrq mailbox

/-- Write a dead-letter notice into the notice ring, or discard it (R316, R326). -/
def Node.hostNotice (n : Node) (notice : Bytes) : Node :=
  let log2 := n.rd R.HP_NOTICE_IDX_LOG2 0
  let base := n.rd R.HP_NOTICE_BASE_BASE 0
  let tail := n.host.noticeTail
  let used := (tail + 2 ^ 24 - n.rd R.HP_NOTICE_IDX_FREE 0) % 2 ^ 24
  if n.rd R.HP_NOTICE_IDX_EN 0 = 0 ∨ log2 < 4 ∨ 2 ^ log2 ≤ used ∨ !n.ringOk (base + tail % 2 ^ log2 * 64) 64 ∨
      (n.host.st = .orphan ∧ bitAt base 63) then n.hpErr 7 0
  else
    let n := n.ringWrite (base + tail % 2 ^ log2 * 64) (padTo 64 notice)
    (n.modHost fun h => { h with noticeTail := (tail + 1) % 2 ^ 24 }).raiseVector 2047

/-! ## Addresses a command names -/

/-- Is a range wholly inside one quad, of the partition where a partition owns the post box, below its reserved granules? -/
def Node.inQuads (n : Node) (p a len : Nat) : Bool :=
  n.hasQuad (addrQuad a) && (p == 32 || bitAt (n.part p).quads (addrQuad a)) && decide (a % 2 ^ 36 + len ≤ reservedGran * 4096)

/-- The class of the first granule of a range that a test refuses. -/
def Node.firstClass (n : Node) (a len : Nat) (bad : GClass → Bool) : Option GClass :=
  let q := addrQuad a
  let g0 := addrGran a
  let g1 := addrGran (a + len - 1)
  let at' (g : Nat) : GClass := n.classOf q g
  let edges := g0 :: (n.quadRuns q).flatMap fun r => [r.1, r.1 + r.2.len]
  ((sortOn id (edges.filter fun g => decide (g0 ≤ g) && decide (g ≤ g1))).map at').find? bad

/-- A local range (RING_ADDR) must lie in HOST-class granules of the partition: otherwise the DETAIL of BAD_STATE, the
first other class; outside the partition's quads the spec states none. -/
def Node.localBad (n : Node) (p a len : Nat) : Option Nat × Node :=
  if bitAt a 63 ∨ len = 0 then (none, n)
  else if a < 2 ^ 41 ∧ n.inQuads p a len then ((n.firstClass a len (· != .host)).map GClass.code, n)
  else
    let (v, n) := n.fresh
    (some (v % 256), n)

/-- What a command reads at an address encoded as RING_ADDR: the status that keeps it from its bytes, which lie outside the
HOST-class granules it may name, or are poisoned (R273, R275, R411; log entry 110). -/
def Node.namedFault (n : Node) (p a len : Nat) : Option (Nat × Nat) × Node :=
  match n.localBad p a len with
  | (some d, n) => (some (stBadState, d), n)
  | (none, n) => (if !bitAt a 63 && n.poisoned a len then some (stPoisoned, 0) else none, n)

/-- Read bytes at an address encoded as RING_ADDR: HBM bytes, or for host memory what the host supplied with the
command. -/
def Node.namedBytes (n : Node) (a len : Nat) (supplied : Bytes) : Bytes :=
  if bitAt a 63 then supplied.take len else n.hbmRead (a % 2 ^ 41) len

end Sys2Proof.Machine
end

