-- ==== Sys2Proof/Machine/Courier.lean ====
section
/-!
DEFINITION. The courier: headers (R285), sending with pacing and windows (R286 to R289, R295), operations and their
completion (R275 to R277), receiving and placement (R278, R281, R282, R288, R290 to R293, R297), errors and ORDERED close
(R289, R294), contexts (R296), reset (R274).
-/

namespace Sys2Proof.Machine

/-! ## Chart values -/

def Node.keyLimit (n : Node) : Nat := n.cw 14 3 0xFFFF 0 1048576
def Node.crRetryLimit (n : Node) : Nat := n.cw 14 3 0xFFFF 3 7
def Node.crRtoUs (n : Node) : Nat := n.cw 14 3 0xFFFF 4 16
def Node.crAckEvery (n : Node) : Nat := n.cw 14 3 0xFFFF 5 8
def Node.crRnrLimit (n : Node) : Nat := n.cw 14 3 0xFFFF 6 32
def Node.crLifetime (n : Node) : Nat := n.cw 14 3 0xFFFF 7 20 * 1000
/-- Rates in units of 1/256 of 100 MB/s. -/
def Node.crInitRate (n : Node) : Nat := n.cw 14 4 0xFFFF 0 250 * 256
def Node.crMaxRate (n : Node) : Nat := n.cw 14 4 0xFFFF 1 2000 * 256
def Node.crMinRate (n : Node) : Nat := n.cw 14 4 0xFFFF 2 1 * 256
def Node.crStep (n : Node) : Nat := n.cw 14 4 0xFFFF 3 5 * 256
def Node.crMd (n : Node) : Nat := n.cw 14 4 0xFFFF 4 128
/-- PR_KIB and PIN_LIMIT of a partition on a sheet. -/
def Node.prKib (n : Node) (sheet p : Nat) : Nat := n.cw 5 5 (sheet * 32 + p) 0 0
def Node.pinLimit (n : Node) (sheet p : Nat) : Nat := n.cw 5 5 (sheet * 32 + p) 1 0
/-- The home sheet of a queue pair (R272). -/
def Node.qpSheet (n : Node) (q : Nat) : Nat := q % n.nSheets
/-- The codes of the queue-pair states (R274). -/
def QpState.code : QpState → Nat
  | .free => 0 | .reset => 1 | .ready => 2 | .error => 3

/-! ## The courier header -/

/-- A courier packet's fields. -/
structure CrHdr where
  op      : Nat
  sealBit : Bool
  fence   : Bool
  ordered : Bool
  last    : Bool
  status  : Nat
  dst     : Nat
  src     : Nat
  psn     : Nat
  key     : Nat
  addr    : Nat
  msn     : Nat
  dlen    : Nat
  operand : Nat
  data    : Bytes
  deriving DecidableEq, Repr, Inhabited

/-- The opcodes. -/
def opWrite : Nat := 1
def opReadReq : Nat := 2
def opReadResp : Nat := 3
def opSend : Nat := 4
def opFetchAdd : Nat := 5
def opCompareSwap : Nat := 6
def opAtomicResp : Nat := 7
def opAck : Nat := 8
def opNak : Nat := 9
def opClose : Nat := 10
def opCloseAck : Nat := 11

/-- Read a courier packet. -/
def decCr (bs : Bytes) : CrHdr :=
  let f := leAt bs 2 1
  { op := leAt bs 0 1, sealBit := bitAt f 0, fence := bitAt f 1, ordered := bitAt f 2, last := bitAt f 3,
    status := leAt bs 3 1, dst := bits (leAt bs 4 4) 0 20, src := bits (leAt bs 8 4) 0 20, psn := leAt bs 12 4,
    key := leAt bs 16 8, addr := leAt bs 24 8, msn := leAt bs 32 4, dlen := bits (leAt bs 36 4) 0 14,
    operand := leAt bs 40 8, data := bs.drop 48 }

/-- Write a courier packet. -/
def encCr (h : CrHdr) : Bytes :=
  leBytes 1 h.op ++ leBytes 1 1 ++
    leBytes 1 (b2n h.sealBit + 2 * b2n h.fence + 4 * b2n h.ordered + 8 * b2n h.last) ++ leBytes 1 h.status ++
    leBytes 4 h.dst ++ leBytes 4 h.src ++ leBytes 4 h.psn ++ leBytes 8 h.key ++ leBytes 8 h.addr ++ leBytes 4 h.msn ++
    leBytes 4 h.data.length ++ leBytes 8 h.operand ++ h.data

/-- A packet with an unknown opcode, another version, a nonzero reserved field or a wrong length (R285). -/
def crBad (bs : Bytes) : Bool :=
  decide (bs.length < 48) || leAt bs 0 1 == 0 || decide (11 < leAt bs 0 1) || leAt bs 1 1 != 1 || bits (leAt bs 2 1) 4 4 != 0 ||
    bits (leAt bs 4 4) 20 12 != 0 || bits (leAt bs 8 4) 20 12 != 0 || bits (leAt bs 36 4) 14 18 != 0 ||
    bs.length != 48 + bits (leAt bs 36 4) 0 14 || decide (8192 < bits (leAt bs 36 4) 0 14) ||
    (leAt bs 0 1 != 9 && leAt bs 3 1 != 0)

/-- The class a courier packet travels in. -/
def crClass (op dlen : Nat) : Nat := if (op = 1 ∨ op = 3 ∨ op = 4) ∧ 512 < dlen then 3 else 2

/-- Signed distance of two PSNs. -/
def psnDiff (a b : Nat) : Int := sdiff 32 a b

/-! ## Sending -/

/-- Hand a courier packet to the fabric. -/
def Node.crSend (n : Node) (q : Nat) (dstPc entropy : Nat) (h : CrHdr) : Node :=
  let s := n.qp q
  let p := n.mkPkt dstPc (n.now + n.crLifetime) ptCourier (crClass h.op h.data.length) entropy (encCr h)
  (n.inc R.CR_PKT_CNT_TX (sheetBase (n.qpSheet q)) 1).sendFrom (n.qpSheet q) p s.partition

/-- Send a NAK to the sender of a packet, and count it. -/
def Node.sendNak (n : Node) (q dstPc : Nat) (h : CrHdr) (entropy status retryUs : Nat) : Node :=
  let s := n.qp q
  let k : CrHdr := { (default : CrHdr) with op := opNak, status := status, dst := h.src, src := h.dst, psn := h.psn,
                                            addr := retryUs, msn := 0, operand := s.rxBase }
  let f := if status = stRnrContext then R.CR_NAK_CNT_RNR_SENT
    else if status = stKeyFault then R.CR_FAULT_CNT_KEY_FAULT else R.CR_FAULT_CNT_OTHER_NAK
  (n.crSend q dstPc entropy k).inc f (sheetBase (n.qpSheet q)) 1

/-- A queue pair leaves READY: the packets it holds are answered as later ones will be (R274, R297). -/
def Node.nakHeld (n : Node) (q : Nat) : Node :=
  let hs := (n.qp q).held
  forEach hs (n.modQp q fun s => { s with held := [] }) fun n x =>
    n.sendNak q x.pkt.src (decCr x.pkt.payload) x.pkt.entropy stBadState 0

/-- The paths of a queue pair that are in use: all of them when every one is suspended (R287). -/
def Node.pathFor (n : Node) (q j : Nat) : Nat :=
  let s := n.qp q
  let k := max s.paths 1
  let bad (j : Nat) : Bool := s.suspended.any fun x => x.1 == j && decide (n.now < x.2)
  (((upTo k).map fun i => (j + i) % k).find? fun j => !bad j).getD (j % k)

/-- The data of a WRITE or SEND packet, read from its source. -/
def Node.srcBytes (n : Node) (o : CrOp) (off len : Nat) : Bytes :=
  if o.src ≠ [] then (o.src.drop off).take len else n.namedBytes (o.loc + off) len []

/-- When the packet after one of so many bytes may leave (R295): rates are in units of 1/256 of 100 MB/s. -/
def QpSt.paceFrom (s : QpSt) (now len : Nat) : Nat := max s.nextAt now + ceilDiv (len * 2560) (max s.rate 1)

/-- Put one waiting packet of a queue pair on its path. A resent packet is read from its source again (R275). -/
def Node.sendOne (n : Node) (q : Nat) (x : SentPkt) : Node :=
  let s := n.qp q
  let h := decCr x.pkt.payload
  let h := if h.op = opWrite ∨ h.op = opSend then
      match s.ops.find? fun o => o.msn == x.msn with
      | some o => { h with data := n.srcBytes o (((x.psn + 2 ^ 32 - o.psn0) % 2 ^ 32) * 8192) h.data.length }
      | none => h
    else h
  let path := n.pathFor q x.path
  let n := n.crSend q s.peerPc (s.entropy + path) h
  n.modQp q fun s =>
    { s with nextAt := s.paceFrom n.now x.pkt.payload.length,
             sent := s.sent.map fun y => if y = x then { y with toSend := false, sentAt := n.now, path := path } else y }

/-- The packets of a queue pair that may leave now: paced, its answers to reads and atomics ahead of its own operations
(R295; log entry 108). -/
def Node.pace : Nat → Node → Nat → Node
  | 0, n, _ => n
  | fuel + 1, n, q =>
    let s := n.qp q
    if n.now < s.nextAt ∨ s.st ≠ .ready then n
    else match s.resp, s.sent.find? fun x => x.toSend && decide (x.notBefore ≤ n.now) with
      | (pc, e, bs) :: rest, _ =>
        ((n.crSend q pc e (decCr bs)).modQp q fun s => { s with resp := rest, nextAt := s.paceFrom n.now bs.length }).pace fuel q
      | [], some x => (n.sendOne q x).pace fuel q
      | [], none => n

/-- A packet of an operation at an offset, as first sent. -/
def Node.opPacket (n : Node) (q : Nat) (o : CrOp) (psn off len : Nat) (last : Bool) : SentPkt :=
  let s := n.qp q
  let h : CrHdr :=
    { op := match o.kind with
        | .write => opWrite | .read => opReadReq | .send => opSend | .fetchAdd => opFetchAdd | _ => opCompareSwap,
      sealBit := o.sealed', fence := o.fence, ordered := s.ordered, last := last, status := 0, dst := s.peerQpn, src := q,
      psn := psn, key := o.key,
      addr := if o.kind = .send then s.sendCnt else o.addr + off,
      msn := o.msn, dlen := 0,
      operand := match o.kind with
        | .read => len | .fetchAdd | .compareSwap => o.op1 | _ => 0,
      data := match o.kind with
        | .write | .send => n.srcBytes o off len
        | .compareSwap => leBytes 8 o.op2
        | _ => [] }
  { psn := psn, msn := o.msn, pkt := n.mkPkt s.peerPc 0 ptCourier 2 0 (encCr h), bytes := len, path := o.pathAt.getD psn % max s.paths 1,
    sentAt := n.now, resends := 0, rnr := 0, notBefore := 0, passed := 0, toSend := true }

/-- PSNs a queue pair has outstanding, from the lowest not yet acknowledged, and atomics. -/
def QpSt.outstanding (s : QpSt) : Nat :=
  match s.sent with
  | [] => 0
  | x :: _ => (s.txPsn + 2 ^ 32 - x.psn) % 2 ^ 32
def QpSt.atomicsOut (s : QpSt) : Nat :=
  (s.ops.filter fun o => o.started && !o.finished && (o.kind == .fetchAdd || o.kind == .compareSwap)).length

/-- PSNs an operation takes. -/
def CrOp.npsn (o : CrOp) : Nat :=
  match o.kind with
  | .write | .read => ceilDiv o.len 8192
  | .wait => 0
  | _ => 1

/-- Change one operation of a queue pair. -/
def Node.modOp (n : Node) (q msn : Nat) (f : CrOp → CrOp) : Node :=
  n.modQp q fun s => { s with ops := s.ops.map fun o => if o.msn = msn then f o else o }

/-- Does an operation read poisoned HBM as its source (R411)? -/
def Node.srcPoisoned (n : Node) (o : CrOp) : Bool :=
  (o.kind == .write || o.kind == .send) && o.src == [] && !bitAt o.loc 63 && n.poisoned (o.loc % 2 ^ 41) o.len

/-- The state in which a WAIT finds the pair it watches: done with a count, failed with a state, or still waiting. -/
inductive WaitState where
  | done (count : Nat) | failed (code : Nat) | waiting
  deriving DecidableEq, Repr

/-- Look at the counter a WAIT watches (R277): of a pair in ERROR, as it stood when the pair entered it. -/
def Node.waitState (n : Node) (o : CrOp) : WaitState :=
  let w := n.qp (bits o.op2 0 20)
  let c := if bitAt o.op2 20 then w.recvCnt else if w.st = .error then w.errComp else w.compCnt
  if 0 ≤ sdiff 64 c o.op1 then .done c
  else if w.st = .ready then .waiting else .failed w.st.code

/-- Issue what the next operation of a queue pair can send within the window (R275, R278, R288). `none` when nothing more
can be issued. -/
def Node.issueOne (n : Node) (q : Nat) : Option Node :=
  let s := n.qp q
  if s.st ≠ .ready ∨ !s.resident ∨ s.ending ≠ 0 ∨ (s.ops.any fun o => o.kind == .wait && o.started && !o.finished) then none
  else match s.ops.find? fun o => !o.finished && (!o.started || decide (o.psns < o.npsn)) with
    | none => none
    | some o =>
      let room := 1024 - s.outstanding
      if o.kind = .wait then
        some (n.modOp q o.msn fun o => { o with started := true, startAt := n.now })
      else if !o.started && n.srcPoisoned o then
        some (n.modOp q o.msn fun o => { o with started := true, finished := true, status := stPoisoned, psns := o.npsn })
      else if room = 0 then none
      else if o.kind = .send ∧ 2 ^ s.peerSlots ≤ (s.sendCnt + 2 ^ 32 - s.peerFreed % 2 ^ 32) % 2 ^ 32 then none
      else if (o.kind = .fetchAdd ∨ o.kind = .compareSwap) ∧ 64 ≤ s.atomicsOut then none
      else
        let psn0 := if o.started then o.psn0 else s.txPsn
        let done := o.psns
        match o.kind with
        | .read =>
          let k := min room (o.npsn - done)
          let len := min (k * 8192) (o.len - done * 8192)
          let head := n.opPacket q o s.txPsn (done * 8192) len (done + k == o.npsn)
          let rest := (upTo k).map fun i =>
            { head with psn := (s.txPsn + i) % 2 ^ 32, bytes := min 8192 (o.len - (done + i) * 8192), toSend := i == 0 }
          some ((n.modQp q fun s => { s with txPsn := (s.txPsn + k) % 2 ^ 32, sent := s.sent ++ rest }).modOp q o.msn fun o =>
            { o with started := true, startAt := n.now, psn0 := psn0, psns := done + k })
        | _ =>
          let x := n.opPacket q o s.txPsn (done * 8192) (if o.npsn = 1 then o.len else min 8192 (o.len - done * 8192)) (done + 1 == o.npsn)
          some ((n.modQp q fun s =>
            { s with txPsn := (s.txPsn + 1) % 2 ^ 32, sent := s.sent ++ [x],
                     sendCnt := if o.kind = .send then s.sendCnt + 1 else s.sendCnt }).modOp q o.msn fun o =>
            { o with started := true, startAt := n.now, psn0 := psn0, psns := done + 1 })

/-- Issue and pace until nothing more can leave. -/
def Node.issue : Nat → Node → Nat → Node
  | 0, n, _ => n
  | fuel + 1, n, q => match n.issueOne q with
    | none => n
    | some n => n.issue fuel q

/-- Send what a queue pair can send now. -/
def Node.crPump (n : Node) (q : Nat) : Node := (n.issue 1100 q).pace 1100 q

/-! ## Completion (R276, R298) -/

/-- Complete one operation to its user. -/
def Node.finishOp (n : Node) (q : Nat) (o : CrOp) (status detail : Nat) : Node :=
  let res := match o.kind with
    | .fetchAdd | .compareSwap | .wait => o.result
    | _ => o.doneN
  let n := n.modQp q fun s => { s with compCnt := s.compCnt + 1 }
  match o.user with
  | .host c => n.complete c status detail res
  | .none => n
  | u => { n with courier := { n.courier with done := n.courier.done ++ [(u, status, detail, res)] } }

/-- Is an operation over: all its PSNs issued and none outstanding? -/
def QpSt.opOver (s : QpSt) (o : CrOp) : Bool :=
  o.finished || (o.started && o.kind != .wait && o.psns == o.npsn && !(s.sent.any fun x => x.msn == o.msn))

/-- Complete the operations at the head of a queue pair that are over, in post order. -/
def Node.finishOps : Nat → Node → Nat → Node
  | 0, n, _ => n
  | fuel + 1, n, q =>
    match (n.qp q).ops with
    | [] => n
    | o :: rest =>
      if (n.qp q).closeAt.isSome ∨ !(n.qp q).opOver o then n
      else ((n.modQp q fun s => { s with ops := rest }).finishOp q o o.status o.detail).finishOps fuel q

/-- Every operation of a queue pair but those already over completes with ABORTED. -/
def Node.abortOps (n : Node) (q : Nat) : Node :=
  let ops := (n.qp q).ops
  let s := n.qp q
  let n := n.modQp q fun s => { s with ops := [], sent := [] }
  forEach ops n fun n o => if s.opOver o then n.finishOp q o o.status o.detail else n.finishOp q o stAborted 0

/-- ERROR is entered. -/
def QpSt.errs (s : QpSt) : QpSt := { s with st := .error, errComp := s.compCnt }

/-- A queue pair goes to ERROR after an operation fails with a status: the ones behind it are ABORTED (R274, R277, R289,
R293). -/
def Node.qpError (n : Node) (q msn status detail : Nat) : Node :=
  let n := n.modOp q msn fun o => { o with finished := true, status := status, detail := detail }
  ((n.modQp q QpSt.errs).nakHeld q).abortOps q

/-- An ORDERED pair in ERROR through R289 keeps its operations until the peer's CLOSE_ACK or its timeout (R294). -/
def Node.pathFailed (n : Node) (q msn status : Nat) : Node :=
  let s := n.qp q
  let bit := if status = stRnrContext then 2 else 1
  let n := n.crErr (n.qpSheet q) bit s.partition status q s.peerPc
  if s.ordered ∧ status = stInternal then
    let n := n.crErr (n.qpSheet q) 3 s.partition status q s.peerPc
    let (next, m) := match s.sent with | [] => (s.txPsn, s.msn) | x :: _ => (x.psn, x.msn)
    let first : Bool := !(s.ops.any fun o => o.msn == m && o.psn0 != next)
    let lastOp := if first then (m + 2 ^ 32 - 1) % 2 ^ 32 else m
    ((n.modOp q msn fun o => { o with result := (next + 2 ^ 32 - 1) % 2 ^ 32 + lastOp * 2 ^ 32 }).modQp q
      fun s => { s.errs with closeAt := some n.now, closeSent := false, closeMsn := msn }).nakHeld q
  else n.qpError q msn status 0

/-- The failing operation of an ORDERED close completes, the ones behind it are ABORTED. -/
def Node.closeEnds (n : Node) (q detail result : Nat) : Node :=
  let n := n.modQp q fun s => { s with closeAt := none }
  (n.modOp q (n.qp q).closeMsn fun o =>
    { o with finished := true, status := stInternal, detail := detail, doneN := result, result := result }).abortOps q

/-- WAITs whose counter has reached its target release what is behind them; those whose pair failed fail too (R277). -/
def Node.checkWaits : Nat → Node → Node
  | 0, n => n
  | fuel + 1, n =>
    let due : Option (Nat × CrOp × WaitState) := n.courier.qps.findSome? fun e =>
      (e.2.ops.find? fun o => o.kind == .wait && o.started && !o.finished).bind fun o =>
        match n.waitState o with
        | .waiting => none
        | w => some (e.1, o, w)
    match due with
    | none => n
    | some (q, o, .done c) =>
      (((n.modOp q o.msn fun o => { o with finished := true, result := c }).finishOps 64 q).crPump q).checkWaits fuel
    | some (q, o, .failed code) => (n.qpError q o.msn stBadState code).checkWaits fuel
    | some (_, _, .waiting) => n

/-- A queue pair goes to ERROR through no operation of its own (R274, R288, R293, R294, R296). -/
def Node.qpFalls (n : Node) (q : Nat) : Node := (((n.modQp q QpSt.errs).nakHeld q).abortOps q).checkWaits 256

/-- What follows any change at a queue pair: completions, then new packets, then WAITs elsewhere. -/
def Node.crAdvance (n : Node) (q : Nat) : Node := ((n.finishOps 1100 q).crPump q).checkWaits 256

/-- Post an operation (R275); a context that is not resident is fetched first (R296). -/
def Node.crPost (n : Node) (q : Nat) (o : CrOp) : Node :=
  let s := n.qp q
  (n.modQp q fun x =>
    { x with ops := x.ops ++ [{ o with msn := s.msn }], msn := (s.msn + 1) % 2 ^ 32, fetching := x.fetching || !x.resident
      }).crAdvance q

/-! ## Contexts (R296, R297) -/

/-- Resident contexts of a sheet. -/
def Node.residents (n : Node) (sheet : Nat) : List (Nat × QpSt) :=
  n.courier.qps.filter fun e => n.qpSheet e.1 == sheet && e.2.resident

/-- Evict the least recently used context that may go, when the sheet holds 4,096. -/
def Node.evictContext (n : Node) (sheet : Nat) : Node :=
  let rs := n.residents sheet
  if rs.length < 4096 then n
  else
    let can := rs.filter fun e => !e.2.pin && e.2.ops.isEmpty && e.2.held.isEmpty
    match sortOn (fun e => e.2.lastUse) can with
    | [] => n
    | e :: _ => n.modQp e.1 fun s => { s with resident := false }

/-- A context is used. -/
def Node.touchQp (n : Node) (q : Nat) : Node :=
  let n := { n with courier := { n.courier with useTick := n.courier.useTick + 1 } }
  n.modQp q fun s => { s with lastUse := n.courier.useTick, usedAt := n.now }

/-- Make a context resident, where the sheet has room or can evict another. -/
def Node.loadContext (n : Node) (q : Nat) : Node :=
  if (n.qp q).resident then n.touchQp q
  else
    let n := n.evictContext (n.qpSheet q)
    if 4096 ≤ (n.residents (n.qpSheet q)).length then n
    else (n.modQp q fun s => { s with resident := true, fetching := false }).touchQp q

/-- Poste restante bytes a partition uses on a sheet. -/
def Node.prUsed (n : Node) (sheet p : Nat) : Nat :=
  (n.courier.qps.filter fun e => n.qpSheet e.1 == sheet && e.2.partition == p).foldl
    (fun a e => a + e.2.held.foldl (fun a h => a + h.bytes) 0) 0

/-! ## Answering -/

/-- SACK of a receive map: bit i for PSN BASE + 1 + i. -/
def QpSt.sack (s : QpSt) : Nat := s.rxMap / 2 % 2 ^ 64

/-- Send an ACK (R288). -/
def Node.sendAck (n : Node) (q : Nat) : Node :=
  let s := n.qp q
  let h : CrHdr := { (default : CrHdr) with op := opAck, dst := s.peerQpn, src := q, psn := s.rxBase, addr := s.ceEcho,
                                             msn := s.freed % 2 ^ 32, operand := s.sack }
  (n.crSend q s.peerPc (s.entropy) h).modQp q fun s => { s with ceEcho := 0, sinceAck := 0, ackAt := none }

/-- Raise BASE over the PSNs that are done. -/
def raiseBase : Nat → Nat → Nat → Nat × Nat
  | 0, b, m => (b, m)
  | fuel + 1, b, m => if bitAt m 0 then raiseBase fuel ((b + 1) % 2 ^ 32) (m / 2) else (b, m)

/-- Mark a PSN done. -/
def QpSt.mark (s : QpSt) (psn : Nat) : QpSt :=
  let d := (psn + 2 ^ 32 - s.rxBase) % 2 ^ 32
  if 1024 ≤ d then s
  else
    let (b, m) := raiseBase 1100 s.rxBase (s.rxMap ||| 2 ^ d)
    { s with rxBase := b, rxMap := m }

/-- A packet is placed: its PSNs are done and acknowledgements follow the rules. -/
def Node.placed (n : Node) (q : Nat) (h : CrHdr) (psns : Nat) : Node :=
  let n := n.modQp q fun s => forEach (upTo psns) s fun s i => s.mark ((h.psn + i) % 2 ^ 32)
  let n := n.modQp q fun s =>
    { s with sinceAck := s.sinceAck + 1, ackAt := match s.ackAt with | some t => some t | none => some n.now,
             watermark := if h.sealBit then some h.psn else s.watermark,
             lastMsn := if h.last then h.msn else s.lastMsn }
  if h.sealBit ∨ h.fence ∨ n.crAckEvery ≤ (n.qp q).sinceAck then n.sendAck q else n

/-! ## Checks 4 and 5 and placement (R281, R282) -/

/-- Where a remote access lands: HBM bytes, or the status it gets. -/
inductive Place where
  | hbm (addr : Nat) | stop (status : Nat)
  deriving DecidableEq, Repr

/-- Checks 4 and 5 for an access of `len` bytes with a right. -/
def Node.crPlace (n : Node) (partition src : Nat) (h : CrHdr) (right len : Nat) : Place :=
  let e := n.keyEnt h.key
  if !{ e with valid := e.valid || e.withdrawn }.admits h.key src [right] || e.partition != partition then .stop stKeyFault
  else if e.kind = 0 then
    if e.size < h.addr + len then .stop stKeyFault
    else if e.withdrawn then .stop stWithdrawn
    else .hbm (e.base + h.addr)
  else
    let off := bits h.addr 0 20
    let k := leafKey e.base (bits h.addr 20 32)
    let l := n.leaf k
    match n.served? e.base with
    | none => if bits h.addr 52 12 ≠ 0 ∨ right ≠ rtRead then .stop stKeyFault else .stop stNotHome
    | some r =>
      let d := r.desc
      let stop := frameBytes d.fmt d.dcode d.p d.bias
      if bits h.addr 52 12 ≠ 0 then .stop stKeyFault
      else if r.lostSlot (bits h.addr 20 32) then .stop stPoisoned
      else if right = rtRead then
        if stop < off + len then .stop stKeyFault
        else if !n.inT1 l then .stop stNotHome
        else if l.poisoned then .stop stPoisoned
        else .hbm (frameAddr l.frame + off)
      else if right = rtWrite then
        let b := biasOff d.fmt d.dcode d.p
        if (l.st = .allocated ∨ l.st = .open) ∧ (n.hdr l.frame).sealSt = 0 ∧ d.bias ∧ b ≤ off ∧ off + len ≤ b + 2 * d.p then
          .hbm (frameAddr l.frame + off)
        else .stop stKeyFault
      else .stop stKeyFault

/-- The right an opcode needs. -/
def crRight (op : Nat) : Nat := if op = 1 then rtWrite else if op = 2 then rtRead else rtAtomic

/-- The bytes an opcode reaches. -/
def CrHdr.reach (h : CrHdr) : Nat := if h.op = 1 then h.data.length else if h.op = 2 then h.operand % 2 ^ 32 else 8

/-- An access fails with a status: NAKed, its PSNs done; an ORDERED pair's access failure ends the pair (R292, R293). -/
def Node.accessFails (n : Node) (q : Nat) (p : Packet) (h : CrHdr) (status : Nat) : Node :=
  let s := n.qp q
  let n := if status = stKeyFault then (n.crErr (n.qpSheet q) 0 s.partition status q p.src).errorBp 6 else n
  let k := if h.op = opReadReq then max 1 (ceilDiv (h.operand % 2 ^ 32) 8192) else 1
  let n := n.modQp q fun s => forEach (upTo k) s fun s i => s.mark ((h.psn + i) % 2 ^ 32)
  let n := n.sendNak q p.src h p.entropy status 0
  if s.ordered then n.qpFalls q else n

/-- An answer waits for its pace (R295). -/
def Node.respond (n : Node) (q dstPc entropy : Nat) (h : CrHdr) : Node :=
  n.modQp q fun s => { s with resp := s.resp ++ [(dstPc, entropy, encCr h)] }

/-- Answer a READ_REQ with its READ_RESP packets (R285, R287). -/
def Node.answerRead (n : Node) (q : Nat) (p : Packet) (h : CrHdr) (addr : Nat) : Node :=
  let len := h.operand % 2 ^ 32
  let k := ceilDiv len 8192
  let n := forEach (upTo k) n fun n i =>
    let bs := n.hbmRead (addr + i * 8192) (min 8192 (len - i * 8192))
    n.respond q p.src (p.entropy + i) { (default : CrHdr) with op := opReadResp, last := i + 1 == k, dst := h.src, src := q,
                                                               psn := (h.psn + i) % 2 ^ 32, msn := h.msn, data := bs }
  n.placed q h k

/-- Run an atomic once and answer with the old value (R290). -/
def Node.runAtomic (n : Node) (q : Nat) (p : Packet) (h : CrHdr) (addr : Nat) : Node :=
  let old := n.hbmNat addr 8
  let new := if h.op = opFetchAdd then (old + h.operand) % 2 ^ 64 else if old = h.operand then leAt h.data 0 8 else old
  let n := n.hbmStore addr (leBytes 8 new)
  let n := n.modQp q fun s => { s with atomics := ((h.psn, old) :: s.atomics).take 64 }
  let n := n.respond q p.src p.entropy { (default : CrHdr) with op := opAtomicResp, dst := h.src, src := q, psn := h.psn, msn := h.msn, operand := old }
  n.placed q h 1

/-- Place a SEND: into the receive ring, or to one of the node's own users (R278). -/
def Node.placeSend (n : Node) (q : Nat) (p : Packet) (h : CrHdr) : Node :=
  let s := n.qp q
  if 2 ^ s.slotLog2 < h.data.length + 8 then n.accessFails q p h stBadLength
  else
    let n := if 0xF0000 ≤ q then
        { n with courier := { n.courier with inbox := n.courier.inbox ++ [(p.src, h.data)] } }
      else
        n.ringWrite (s.ring + h.addr % 2 ^ s.slotsLog2 * 2 ^ s.slotLog2) (leBytes 4 h.data.length ++ leBytes 4 h.addr ++ h.data)
    let n := n.modQp q fun s => { s with recvCnt := s.recvCnt + 1, freed := if 0xF0000 ≤ q then s.freed + 1 else s.freed }
    (n.placed q h 1).checkWaits 256

/-- The last write of a page into a T2 store that this node hosts: does the page, whose tiles end at an address, hold what its
header says (R211)? -/
def Node.t2WriteOk (n : Node) (key a len : Nat) : Bool :=
  let e := n.keyEnt key
  let run := n.runAt (addrQuad e.base) (addrGran e.base)
  if run.any fun r => r.2.isStore then
    (upTo 80).any fun i =>
      let h := decPageHdr (n.hbmRead (a - i * 8192) 256)
      decide (e.base + i * 8192 ≤ a) && tileCount h == i + 1 && tileLen h i == len && n.bytesHashOk (a - i * 8192)
  else true

/-- Steps 4 to 6 of R281. `none` when a line the host holds must come back first. -/
def Node.crPerform (n : Node) (q : Nat) (p : Packet) (h : CrHdr) : Option Node :=
  let s := n.qp q
  if h.op = opSend then some (n.placeSend q p h)
  else match n.crPlace s.partition p.src h (crRight h.op) h.reach with
    | .stop st => some (n.accessFails q p h st)
    | .hbm a =>
      if (h.op = opFetchAdd ∨ h.op = opCompareSwap) ∧ h.addr % 8 ≠ 0 then some (n.accessFails q p h stBadFormat)
      else if n.hostHolds a h.reach then none
      else if h.op ≠ opWrite ∧ n.poisoned a h.reach then some (n.accessFails q p h stPoisoned)
      else
        let n := (n.snoopRange a h.reach (h.op != opReadReq)).wakeStack (addrQuad a)
        if h.op = opWrite then
          let n := n.hbmStore a h.data
          some (if h.sealBit && !n.t2WriteOk h.key a h.data.length then n.accessFails q p h stInternal else n.placed q h 1)
        else if h.op = opReadReq then some (n.answerRead q p h a)
        else some (n.runAtomic q p h a)

/-! ## Receiving requests -/

/-- Hold a packet in poste restante, or answer RNR_CONTEXT when the partition's share has no room (R293, R297). -/
def Node.holdPkt (n : Node) (q : Nat) (p : Packet) (h : CrHdr) (why : Nat) : Node :=
  let s := n.qp q
  let sheet := n.qpSheet q
  let size := ceilDiv p.payload.length 256 * 256
  if n.prKib sheet s.partition * 1024 < n.prUsed sheet s.partition + size then
    let f := if n.cw 14 3 0xFFFF 2 0 = 1 then 2 else 1
    let queued := (n.courier.qps.filter fun e => n.qpSheet e.1 == sheet && e.2.fetching).length
    n.sendNak q p.src h p.entropy stRnrContext (min 255 ((queued + 1) * f))
  else if s.held.any fun x => x.pkt == p then n
  else n.modQp q fun s => { s with held := s.held ++ [⟨p, size, why⟩] }

/-- Must a packet wait for every lower PSN (R291, R293)? -/
def CrHdr.waits (h : CrHdr) (s : QpSt) : Bool :=
  (if h.op = opWrite then h.sealBit || s.ordered else if h.op = opSend then s.ordered else h.fence) && h.psn != s.rxBase

/-- A request at its queue pair, its context resident: the window, the waits, then placement (R281, R288). -/
def Node.crRequest (n : Node) (q : Nat) (p : Packet) (h : CrHdr) : Node :=
  let s := n.qp q
  let d := psnDiff h.psn s.rxBase
  let dup : Bool := decide (d < 0) || (decide (d < 1024) && bitAt s.rxMap d.toNat) ||
    s.watermark.any fun w => decide (psnDiff h.psn w < 0)
  if 1024 ≤ d then
    (n.crErr (n.qpSheet q) 6 s.partition 0 q p.src).qpFalls q
  else if dup then
    if h.op = opFetchAdd ∨ h.op = opCompareSwap then
      match s.atomics.find? fun a => a.1 == h.psn with
      | some a => n.respond q p.src p.entropy { (default : CrHdr) with op := opAtomicResp, dst := h.src, src := q, psn := h.psn, msn := h.msn, operand := a.2 }
      | none => n.sendAck q
    else n.sendAck q
  else if h.waits s then n.holdPkt q p h (if s.ordered then 3 else 2)
  else match n.crPerform q p h with
    | some n => n
    | none =>
      match n.crPlace s.partition p.src h (crRight h.op) h.reach with
      | .hbm a => (n.snoopRange a h.reach (h.op != opReadReq)).holdPkt q p h 4
      | .stop _ => n

/-- Held packets that may go on now do, until none can. -/
def Node.releaseHeld : Nat → Node → Nat → Node
  | 0, n, _ => n
  | fuel + 1, n, q =>
    let s := n.qp q
    let ready (x : Parked) : Bool :=
      let h := decCr x.pkt.payload
      x.why != 4 && s.resident && !h.waits s ||
        x.why == 4 && match n.crPlace s.partition x.pkt.src h (crRight h.op) h.reach with
          | .hbm a => !n.hostHolds a h.reach
          | .stop _ => true
    match s.held.find? ready with
    | none => n
    | some x =>
      ((n.modQp q fun s => { s with held := s.held.filter (· != x) }).crRequest q x.pkt (decCr x.pkt.payload)).releaseHeld fuel q

/-! ## Receiving answers -/

/-- A sent packet is acknowledged. -/
def Node.ackPsns (n : Node) (q : Nat) (done : Nat → Bool) : Node :=
  let s := n.qp q
  let gone := s.sent.filter fun x => done x.psn && (decCr x.pkt.payload).op != opReadReq &&
    (decCr x.pkt.payload).op != opFetchAdd && (decCr x.pkt.payload).op != opCompareSwap
  let n := forEach gone n fun n x => n.modOp q x.msn fun o => { o with doneN := o.doneN + x.bytes }
  n.modQp q fun s =>
    { s with
      sent := (s.sent.filter fun x => !gone.contains x).map fun x =>
        { x with passed := x.passed + (gone.filter fun g => decide (0 < psnDiff g.psn x.psn)).length }
      winN := s.winN + gone.length }

/-- Resend a packet, or fail its operation at RETRY_LIMIT (R289). -/
def Node.resend (n : Node) (q : Nat) (x : SentPkt) : Node :=
  if n.crRetryLimit ≤ x.resends then n.pathFailed q x.msn stInternal
  else
    let n := n.inc R.CR_RETX_CNT_RESENT (sheetBase (n.qpSheet q)) 1
    let all := (n.qp q).ordered
    n.modQp q fun s =>
      { s with sent := s.sent.map fun y =>
          if y = x ∨ (all ∧ 0 ≤ psnDiff y.psn x.psn ∧ !y.toSend) then
            { y with resends := y.resends + (if y = x then 1 else 0), toSend := true, passed := 0, path := (y.path + 1) % max s.paths 1 }
          else y }

/-- The end of a congestion window (R295). -/
def Node.endWindow (n : Node) (q base : Nat) : Node :=
  let s := n.qp q
  if psnDiff base s.winEnd ≤ 0 ∨ s.winN = 0 then n
  else
    let cut := s.rate * n.crMd * s.winM / (256 * s.winN)
    let rate := if 0 < s.winM then max n.crMinRate (s.rate - cut) else min n.crMaxRate (s.rate + n.crStep)
    let n := if 0 < s.winM then n.inc R.CR_CE_CNT_RATE_CUTS (sheetBase (n.qpSheet q)) 1 else n
    n.modQp q fun s => { s with rate := rate, winEnd := s.txPsn, winN := 0, winM := 0 }

/-- A received ACK (R288, R289, R295). -/
def Node.crAck (n : Node) (q : Nat) (h : CrHdr) : Node :=
  let done (psn : Nat) : Bool :=
    let d := psnDiff psn h.psn
    decide (d < 0) || (decide (1 ≤ d) && decide (d ≤ 64) && bitAt h.operand (d.toNat - 1))
  let n := n.ackPsns q done
  let n := (n.modQp q fun s => { s with peerFreed := h.msn, winM := s.winM + h.addr % 2 ^ 32 }).endWindow q h.psn
  let late := (n.qp q).sent.filter fun x => decide (3 ≤ x.passed) && !x.toSend
  let n := forEach late n fun n x => if (n.qp q).st = .ready ∧ (n.qp q).sent.contains x then n.resend q x else n
  n.crAdvance q

/-- A received NAK (R289, R292, R293, R297). -/
def Node.crNak (n : Node) (q : Nat) (h : CrHdr) : Node :=
  match (n.qp q).sent.find? fun x => x.psn == h.psn with
  | none => n
  | some x =>
    let s := n.qp q
    if h.status = stRnrContext then
      let n := n.inc R.CR_NAK_CNT_RNR_RECEIVED (sheetBase (n.qpSheet q)) 1
      if n.crRnrLimit ≤ x.rnr + 1 then (n.pathFailed q x.msn stRnrContext).checkWaits 256
      else n.modQp q fun s =>
        { s with sent := s.sent.map fun y => if y = x then { y with rnr := y.rnr + 1, notBefore := n.now + h.addr % 256 * 1000, toSend := true } else y }
    else
      let read : Bool := (decCr x.pkt.payload).op == opReadReq
      let n := n.modQp q fun s => { s with sent := s.sent.filter fun y => !(y.psn == h.psn || (read && y.msn == x.msn && y.pkt == x.pkt)) }
      let n := n.modOp q x.msn fun o => if o.status = 0 then { o with status := h.status } else o
      let access : Bool := h.status == stKeyFault || h.status == stNotHome || h.status == stPoisoned || h.status == stWithdrawn
      if s.ordered && access then (n.qpError q x.msn h.status 0).checkWaits 256 else n.crAdvance q

/-- Place what a READ brings: a tile of a page read into staging joins its entry (R195); anything else goes to the
operation's local address. -/
def Node.landRead (n : Node) (o : CrOp) (off : Nat) (bs : Bytes) : Node :=
  match o.user with
  | .stage order tile =>
    n.modOffice fun x => { x with staged := mapAll (fun _ e => if e.order = order then { e with tiles := mapInsert e.tiles tile bs } else e) x.staged }
  | _ => n.ringWrite (o.loc + off) bs

/-- A received READ_RESP is placed at the requester's local address (R288). -/
def Node.crReadResp (n : Node) (q : Nat) (p : Packet) (h : CrHdr) : Node :=
  match (n.qp q).sent.find? fun x => x.psn == h.psn with
  | none => n
  | some x =>
    match (n.qp q).ops.find? fun o => o.msn == x.msn && o.kind == .read with
    | none => n
    | some o =>
      let off := (h.psn + 2 ^ 32 - o.psn0) % 2 ^ 32 * 8192
      let bs := h.data.take x.bytes
      let n := n.landRead o off bs
      let n := (n.modOp q x.msn fun o => { o with doneN := o.doneN + bs.length }).modQp q fun s =>
        { s with sent := s.sent.filter fun y => y.psn ≠ h.psn, winN := s.winN + 1, ceEcho := s.ceEcho + b2n p.ce }
      n.crAdvance q

/-- A received ATOMIC_RESP delivers the old value (R290). -/
def Node.crAtomicResp (n : Node) (q : Nat) (h : CrHdr) : Node :=
  match (n.qp q).sent.find? fun x => x.psn == h.psn with
  | none => n
  | some x =>
    match (n.qp q).ops.find? fun o => o.msn == x.msn with
    | none => n
    | some o =>
      if o.kind ≠ .fetchAdd ∧ o.kind ≠ .compareSwap then n
      else
        let n := n.ringWrite o.loc (leBytes 8 h.operand)
        let n := (n.modOp q x.msn fun o => { o with doneN := 8, result := h.operand }).modQp q fun s =>
          { s with sent := s.sent.filter fun y => y.psn ≠ h.psn, winN := s.winN + 1 }
        n.crAdvance q

/-- A received CLOSE: ERROR, nothing placed further, CLOSE_ACK with the last PSN and operation placed (R294). -/
def Node.crClose (n : Node) (q : Nat) (p : Packet) (h : CrHdr) : Node :=
  let s := n.qp q
  let n := n.qpFalls q
  n.crSend q p.src p.entropy { (default : CrHdr) with op := opCloseAck, dst := h.src, src := q, psn := (s.rxBase + 2 ^ 32 - 1) % 2 ^ 32,
                                                       operand := s.lastMsn }

/-- A received CLOSE_ACK within 100 µs (R294). -/
def Node.crCloseAck (n : Node) (q : Nat) (h : CrHdr) : Node :=
  let s := n.qp q
  if s.closeSent && s.closeAt.any fun t => decide (n.now ≤ t + 100000) then
    (n.closeEnds q 1 (h.psn + h.operand % 2 ^ 32 * 2 ^ 32)).checkWaits 256
  else n

/-! ## The whole receipt of a courier packet -/

/-- Is an opcode a request that takes a PSN at the target? -/
def crIsRequest (op : Nat) : Bool := op == 1 || op == 2 || op == 4 || op == 5 || op == 6

/-- A node-owned queue pair: RELAXED, 64 paths (R298). -/
def ownQpSt (part peer peerQpn rate : Nat) : QpSt :=
  { (default : QpSt) with
    st := .ready, partition := part, peerPc := peer, peerQpn := peerQpn, paths := 64, slotLog2 := 14, slotsLog2 := 16,
    rate := rate, peerSlot := 14, peerSlots := 16, user := some .none }

/-- The queue pair that a packet for one of the node's own QPNs finds: made for its sender when there is none (R298; log
entry 30). -/
def Node.ownQp (n : Node) (p : Packet) (h : CrHdr) : Node :=
  let s := n.qp h.dst
  if h.dst < 0xF0000 ∨ h.src < 0xF0000 ∨ s.st ≠ .free ∨ !crIsRequest h.op then n
  else
    let part := ((n.keyOwner h.key).getD (((n.seq? (leAt h.data 8 8)).map fun r => r.partition).getD 0))
    let s' := ownQpSt part p.src h.src n.crInitRate
    ({ n with courier := { n.courier with qps := mapSet n.courier.qps h.dst s' } }).loadContext h.dst

/-- Receive a courier packet (R281, R285). -/
def Node.receiveCourier (n : Node) (p : Packet) : Node :=
  let h := decCr p.payload
  let q := h.dst
  let sheet := n.qpSheet q
  if crBad p.payload then n.crErr sheet 6 0 0 q p.src
  else
    let n := (n.inc R.CR_PKT_CNT_RX (sheetBase sheet) 1).ownQp p h
    let s := n.qp q
    let n := if p.ce && (h.op == 1 || h.op == 3 || h.op == 4) then n.inc R.CR_CE_CNT_MARKED_RX (sheetBase sheet) 1 else n
    if s.st = .error ∧ h.op = opCloseAck ∧ p.src = s.peerPc then n.crCloseAck q h
    else if s.st ≠ .ready ∨ p.src ≠ s.peerPc then
      if crIsRequest h.op || h.op == opClose then n.sendNak q p.src h p.entropy stBadState 0 else n
    else
      let n := n.touchQp q
      let n := if crIsRequest h.op ∧ p.ce then n.modQp q fun s => { s with ceEcho := s.ceEcho + b2n (h.op == 1 || h.op == 4) } else n
      if crIsRequest h.op then
        if !s.resident then (n.holdPkt q p h 1).modQp q fun s => { s with fetching := true }
        else ((n.crRequest q p h).releaseHeld 1100 q).crPump q
      else if h.op = opAck then n.crAck q h
      else if h.op = opNak then n.crNak q h
      else if h.op = opReadResp then n.crReadResp q p h
      else if h.op = opAtomicResp then n.crAtomicResp q h
      else if h.op = opClose then n.crClose q p h
      else n

/-! ## Timers -/

/-- A WAIT's TIMEOUT_US has passed: EXPIRED, and the pair goes to ERROR (R277). -/
def Node.waitTimeout (n : Node) (q : Nat) : Node :=
  match (n.qp q).ops.find? fun o => o.kind == .wait && o.started && !o.finished with
  | none => n
  | some o =>
    let us := bits o.op2 32 32
    if us ≠ 0 ∧ o.startAt + us * 1000 ≤ n.now then (n.qpError q o.msn stExpired 0).checkWaits 256 else n

/-- A packet has been unacknowledged for its RTO (R287, R289, R295). -/
def Node.courierRto (n : Node) (q psn : Nat) : Node :=
  match (n.qp q).sent.find? fun x => x.psn == psn && !x.toSend with
  | none => n
  | some x =>
    if n.now < x.sentAt + n.crRtoUs * 1000 * 2 ^ x.resends then n
    else
      let n := n.inc R.CR_RETX_CNT_TIMEOUTS (sheetBase (n.qpSheet q)) 1
      let n := n.modQp q fun s =>
        let again : Bool := s.pathTo.any fun t => t.1 == x.path && decide (n.now ≤ t.2 + 100000)
        let rate := max n.crMinRate (s.rate / 2)
        if again then { s with rate := rate, pathTo := s.pathTo.filter fun t => t.1 ≠ x.path,
                               suspended := (s.suspended.filter fun t => t.1 ≠ x.path) ++ [(x.path, n.now + 1000000)] }
        else { s with rate := rate, pathTo := (s.pathTo.filter fun t => t.1 ≠ x.path) ++ [(x.path, n.now)] }
      (n.resend q x).crAdvance q

/-- A packet NAKed RNR_CONTEXT may be resent (R297). -/
def Node.rnrRetry (n : Node) (q psn : Nat) : Node :=
  if (n.qp q).sent.any fun x => x.psn == psn && x.toSend && decide (x.notBefore ≤ n.now) then n.crPump q else n

/-- A suspended path is used again (R287). -/
def Node.pathResume (n : Node) (q path : Nat) : Node :=
  n.modQp q fun s => { s with suspended := s.suspended.filter fun x => !(x.1 == path && decide (x.2 ≤ n.now)) }

/-- 500 ns after the oldest unacknowledged placement the receiver acknowledges (R288). -/
def Node.ackDelay (n : Node) (q : Nat) : Node :=
  if (n.qp q).ackAt.any fun t => decide (t + 500 ≤ n.now) then n.sendAck q else n

/-- A dead-letter notice names a courier packet of this node: it is resent (R289). -/
def Node.crDeadLetter (n : Node) (notice : Bytes) : Node :=
  let hd := notice.drop 32
  let q := bits (leAt hd 8 4) 0 20
  if leAt notice 2 1 ≠ ptCourier ∨ (n.qp q).st ≠ .ready then n
  else match (n.qp q).sent.find? fun x => x.psn == leAt hd 12 4 && !x.toSend with
    | none => n
    | some x => (n.resend q x).crAdvance q

/-- An ORDERED pair in ERROR sends CLOSE (R294). -/
def Node.orderedClose (n : Node) (q : Nat) : Node :=
  let s := n.qp q
  if s.closeSent || !(s.closeAt.any fun t => decide (t + n.crLifetime + n.guardNow ≤ n.now)) then n
  else (n.crSend q s.peerPc s.entropy { (default : CrHdr) with op := opClose, dst := s.peerQpn, src := q }).modQp q
    fun s => { s with closeSent := true, closeAt := some n.now }

/-- No CLOSE_ACK within 100 µs (R294). -/
def Node.closeTimeout (n : Node) (q : Nat) : Node :=
  let s := n.qp q
  if s.closeSent && s.closeAt.any fun t => decide (t + 100000 ≤ n.now) then
    (n.closeEnds q 0 (((s.ops.find? fun o => o.msn == s.closeMsn).map fun o => o.result).getD 0)).checkWaits 256
  else n

/-- A context fetch completes: the packets that waited for it go on (R296, R297). -/
def Node.contextFetched (n : Node) (q : Nat) : Node :=
  if (n.qp q).st = .free then n else ((n.loadContext q).releaseHeld 1100 q).crAdvance q

/-- A backing context cannot be read (R296). -/
def Node.contextLost (n : Node) (q : Nat) : Node :=
  let s := n.qp q
  if s.st = .free ∨ s.resident then n
  else
    let n := (n.crErr (n.qpSheet q) 4 s.partition 0 q s.peerPc).fault (.sheet (n.qpSheet q)) 3 0x09 4 (some s.partition)
    (n.modQp q fun s => { s with fetching := false }).qpFalls q

/-! ## Reset, destruction, own queue pairs (R274, R298) -/

/-- PSNs and counters to 0. -/
def QpSt.cleared (s : QpSt) : QpSt :=
  { s with txPsn := 0, rxBase := 0, rxMap := 0, compCnt := 0, recvCnt := 0, freed := 0, peerFreed := 0, sendCnt := 0, msn := 0,
           winEnd := 0, winN := 0, winM := 0, ceEcho := 0, sinceAck := 0, ackAt := none, watermark := none, ops := [], sent := [],
           held := [], atomics := [], suspended := [], pathTo := [], ending := 0, endCmd := none, closeAt := none,
           closeSent := false, closeMsn := 0, errComp := 0, resp := [], lastMsn := 0, endAt := 0 }

/-- A queue pair becomes RESET, or FREE when it is destroyed. -/
def Node.qpEnds (n : Node) (q : Nat) (destroy : Bool) : Node :=
  let n := n.nakHeld q
  let n := if destroy then { n with courier := { n.courier with qps := mapErase n.courier.qps q } }
    else n.modQp q fun s => { s.cleared with st := .reset }
  n.checkWaits 256

/-- Start the reset of a queue pair: operations ABORTED, then PKT_LIFETIME; at once where the pair is RESET. -/
def Node.startQpReset (n : Node) (q : Nat) (destroy : Bool) (cmd : Option CmdRef) : Node :=
  if (n.qp q).st = .reset then (n.qpEnds q destroy).completeOpt cmd stDone 0 0
  else
    let n := n.abortOps q
    n.modQp q fun s => { s with ending := if destroy then 2 else 1, endCmd := cmd, endAt := n.now + n.crLifetime, closeAt := none }

/-- PKT_LIFETIME has passed. -/
def Node.qpLifetimeEnd (n : Node) (q : Nat) : Node :=
  let s := n.qp q
  if s.ending = 0 ∨ n.now < s.endAt then n else (n.qpEnds q (s.ending == 2)).completeOpt s.endCmd stDone 0 0

/-- Free every queue pair of a partition at once (R274, R357); the packets they hold are discarded with no NAK (R359). -/
def Node.freeQps (n : Node) (p : Nat) : Node :=
  let qs := (n.courier.qps.filter fun e => e.2.partition == p).map Prod.fst
  let n := forEach qs n fun n q =>
    let cmd := (n.qp q).endCmd
    ((n.modQp q fun s => { s with held := [] }).abortOps q).completeOpt cmd stAborted 0 0
  forEach qs n fun n q => n.qpEnds q true

/-- The node's own queue pair of a user, peer and partition, made at need (R298), also in place of one in ERROR (log entry
112). Its peer's QPN is not stated: a free value among the node-owned ones. -/
def Node.userQp (n : Node) (kind peer part : Nat) : Nat × Node :=
  let mine (u : Nat × Nat × Nat × Nat) : Bool := u.1 == kind && u.2.1 == peer && u.2.2.1 == part
  match n.courier.userQps.find? fun u => mine u && (n.qp u.2.2.2).st != .error with
  | some u => (u.2.2.2, n.touchQp u.2.2.2)
  | none =>
    let used := mapKeys n.courier.qps
    let q := ((span 0xF0000 65536).find? fun q => !used.contains q).getD 0xF0000
    let (v, n) := n.fresh
    let s := ownQpSt part peer (0xF0000 + v % 65536) n.crInitRate
    let n := { n with courier := { n.courier with qps := mapSet n.courier.qps q s, userQps := n.courier.userQps.filter (fun u => !mine u) ++ [(kind, peer, part, q)] } }
    (q, (n.loadContext q).touchQp q)

/-- A node-owned queue pair unused for 1 s is destroyed (R298). -/
def Node.nodeQpIdle (n : Node) (q : Nat) : Node :=
  let s := n.qp q
  if q < 0xF0000 ∨ s.ops ≠ [] ∨ s.held ≠ [] ∨ n.now < s.usedAt + 1000000000 then n
  else
    let n := { n with courier := { n.courier with userQps := n.courier.userQps.filter fun u => u.2.2.2 ≠ q } }
    n.qpEnds q true

/-- Post an operation for one of the node's own users: 1 migration, 2 T2, 3 engine, 4 pool. -/
def Node.userPost (n : Node) (kind peer part : Nat) (o : CrOp) : Node :=
  let (q, n) := n.userQp kind peer part
  n.crPost q o

/-- An operation before it is posted. -/
def mkOp (user : CrUser) (kind : CrKind) (len loc : Nat) (src : Bytes) (key addr op1 op2 : Nat) (sealBit fence : Bool) : CrOp :=
  { user := user, kind := kind, msn := 0, sealed' := sealBit, fence := fence, len := len, loc := loc, src := src, pathAt := none, key := key,
    addr := addr, op1 := op1, op2 := op2, started := false, startAt := 0, psn0 := 0, psns := 0, doneN := 0, status := 0,
    detail := 0, result := 0, finished := false }

/-- Free slots of the receive ring (R278): the ACK that follows tells the sender. -/
def Node.qpFreed (n : Node) (q value : Nat) : Node :=
  let s := n.qp q
  if s.st = .free ∨ value % 2 ^ 64 < s.freed then n
  else (n.modQp q fun s => { s with freed := value % 2 ^ 64, ackAt := match s.ackAt with | some t => some t | none => some n.now })

end Sys2Proof.Machine
end

