-- ==== Sys2Proof/Machine/Partials.lean ====
section
/-!
DEFINITION. PARTIAL frames at an anchor or merge node (R81 to R85), cut-offs and tombstones, the route cache (R178), the
control writes of cores, sorting offices and translation units (R118, R140, R187).
-/

namespace Sys2Proof.Machine

/-! ## The refusal table (R85) -/

/-- Enter a refused ticket: the lowest free slot, else in place of the earliest DEADLINE. -/
def Node.refuseTicket (n : Node) (sheet requester ticketId deadline : Nat) : Node :=
  let here := n.office.refusals.filter fun r => r.sheet == sheet
  let n := n.inc R.SO_REFUSE_CNT_ENTRIES (sheetBase sheet) 1
  match (upTo 1024).find? fun i => !(here.any fun r => r.slot == i) with
  | some i => n.modOffice fun o => { o with refusals := o.refusals ++ [⟨sheet, i, requester, ticketId, deadline⟩] }
  | none =>
    let old := (lexFirst (fun i => match here.find? fun r => r.slot == i with
      | some r => [r.deadline, i]
      | none => [2 ^ 64, i]) (upTo 1024)).getD 0
    (n.inc R.SO_REFUSE_CNT_REPLACED (sheetBase sheet) 1).modOffice fun o =>
      { o with refusals := (o.refusals.filter fun r => !(r.sheet == sheet && r.slot == old)) ++
                 [⟨sheet, old, requester, ticketId, deadline⟩] }

/-! ## PARTIAL frames -/

/-- The context a PARTIAL's header would open for a ticket (R83). `group` is the partition its answer is sent for, 32 for
none (log entry 82). -/
def ticketCtx (sheet entropy group : Nat) (h : ReplyHdr) : MergeCtx :=
  { ticket := true, requester := h.origin, ident := h.ticketId, sheet := sheet, partition := group, letterId := h.letterId,
    key := 0, mailbox := h.mailbox, entropy := entropy, retNs := h.retNs, deadline := h.deadline, qcount := h.qcount,
    dcode := h.dcode, topk := h.topk, ofmt := 1, recipe := 0, param := 0, finalise := false, folded := false,
    ords := [(h.tFirst, h.tCount)], tFirst := h.tFirst, tCount := h.tCount, records := [],
    bytes := 48 * mergeBytes h.qcount h.dcode h.topk, copies := [], details := [], live := true }

/-- Does a later PARTIAL disagree with its ticket's context (R83)? -/
def MergeCtx.differs (m : MergeCtx) (h : ReplyHdr) : Bool :=
  m.qcount != h.qcount || m.dcode != h.dcode || m.topk != h.topk || m.retNs != h.retNs || m.tFirst != h.tFirst ||
    m.tCount != h.tCount

/-- Add the records of a PARTIAL to a live context, and the DETAIL of its status, and reply when every ordinal has one
(R68, R81). -/
def Node.mergePartial (n : Node) (m : MergeCtx) (bs : Bytes) : Node :=
  let h := decReplyHdr bs
  let rs := (decFrameRecords bs).filter fun r => m.ords.any fun x => decide (r.lo < x.1 + x.2) && decide (x.1 < r.hi)
  let n := n.modMerge m.ticket m.requester m.ident fun m =>
    { m with records := m.records ++ rs,
             details := if m.details.any fun d => d.1 == h.status then m.details else m.details ++ [(h.status, h.detail)] }
  n.tryMerge m.ticket m.requester m.ident

/-- A dead-letter notice answers an anchor's copy (R429): with REASON NO_ROUTE, PORT_FAILED or NO_PEER the ordinals of
that copy receive PAGE_LOST. The notice names the copy by its LETTER_ID, DEADLINE, page node and LENGTH; of several such
copies it answers the first that has no record yet (log entry 44). -/
def Node.copyLost (n : Node) (notice : Bytes) : Node :=
  let reason := leAt notice 0 1
  let head := notice.drop 32
  let missingOf (m : MergeCtx) : Option (List Nat) :=
    if m.live && !m.ticket && m.letterId == leAt head 8 8 && m.deadline == leAt notice 24 8 then
      (m.copies.find? fun c =>
        c.1 == leAt notice 16 4 && c.2.1 == leAt head 2 2 && c.2.2.all fun o => m.missing.contains o).map fun c => c.2.2
    else none
  if leAt notice 2 1 ≠ ptLetter ∨ leAt head 0 1 ≠ 3 ∨ (reason ≠ 2 ∧ reason ≠ 4 ∧ reason ≠ 5) then n
  else
    match n.office.merges.find? fun m => (missingOf m).isSome with
    | none => n
    | some m =>
      let rs := failRecords stPageLost ((missingOf m).getD [])
      (n.modMerge false m.requester m.ident fun m => { m with records := m.records ++ rs }).tryMerge false m.requester m.ident

/-- The first PARTIAL that names a ticket (R83, R85). The rules say nothing of one whose ticket coverage is empty or passes
2^24: the model ignores it (DESIGN CHOICE, log entry 83). -/
def Node.openTicket (n : Node) (entropy : Nat) (h : ReplyHdr) (bs : Bytes) : Node :=
  let sheet := h.ticketId % n.nSheets
  let m := ticketCtx sheet entropy (((n.ticketLetter h.origin h.ticketId).map fun x => x.partition).getD 32) h
  if h.tCount = 0 ∨ 2 ^ 24 < h.tFirst + h.tCount then n
  else if n.ticketKib sheet * 1024 < n.ticketUse sheet + m.bytes then
    (n.sendFrames sheet m.requester m.deadline entropy 32 (replyFrames (n.mergeHdr m stRefused 1 false false) [])).refuseTicket
      sheet h.origin h.ticketId h.deadline
  else
    let n := n.modOffice fun o => { o with merges := o.merges ++ [m] }
    (n.inc R.SO_MERGE_CNT_CONTEXTS (sheetBase sheet) 1).mergePartial m bs

/-- A received PARTIAL (R81, R83, R84, R85). -/
def Node.receivePartial (n : Node) (entropy : Nat) (bs : Bytes) : Node :=
  let h := decReplyHdr bs
  let ticket : Bool := h.ticketId != 0
  let ident := if ticket then h.ticketId else h.letterId
  if replyBad bs then n
  else match n.office.merges.find? fun m => m.is ticket h.origin ident with
    | some m =>
      if !m.live then n.inc R.SO_MERGE_CNT_TOMB_HITS (sheetBase m.sheet) 1
      else if ticket && m.differs h then n.endMerge m stConflict
      else n.mergePartial m bs
    | none =>
      if !ticket then n
      else match n.office.refusals.find? fun r => r.requester == h.origin && r.ticketId == h.ticketId with
        | some r => n.inc R.SO_MERGE_CNT_TOMB_HITS (sheetBase r.sheet) 1
        | none => n.openTicket entropy h bs

/-- The cut-offs that have come: DEADLINE - RETURN_NS (R81). -/
def Node.mergeCutoffs (n : Node) : Node :=
  forEach (n.office.merges.filter fun m => m.live && decide (m.cutoff ≤ n.now)) n fun n m => n.cutMerge m

/-- Tombstones whose DEADLINE has come go (R84). -/
def Node.expireTombs (n : Node) : Node :=
  n.modOffice fun o => { o with merges := o.merges.filter fun m => m.live || decide (n.now < m.deadline)
                                tickets := o.tickets.filter fun x => decide (n.now < x.deadline) }

/-- Refusal-table entries whose DEADLINE has come go (R85). -/
def Node.expireRefusals (n : Node) : Node :=
  n.modOffice fun o => { o with refusals := o.refusals.filter fun r => decide (n.now < r.deadline) }

/-! ## Shares on their way, fetches, the route cache -/

/-- The lead sheet of a share's letter. -/
def Node.shareLead (n : Node) (s : Share) : Nat := (mapGet n.office.ctxs s.ctx : LetterCtx).sheet

/-- A share sent from the lead sheet is collected by its own sorting office (R122). Shares between two sheets arrive in the
order in which they were sent (R19), and none over a link that is down. -/
def Node.shareArrives (n : Node) (ctx sheet : Nat) : Node :=
  match n.office.shares.find? fun s => s.ctx == ctx && s.sheet == sheet && s.travelling with
  | none => n
  | some s =>
    let lead := n.shareLead s
    let first := n.office.shares.find? fun x => x.travelling && x.sheet == sheet && n.shareLead x == lead
    if first.map (·.id) ≠ some s.id ∨ (n.linkPath lead sheet).any n.linkBroken then n
    else if n.noCollect then n.failShare s stRefused 0 else n.collectShare s n.now

/-- Enter one element in a list of bounded length: when it is full, a free value says which one makes room (R178 names no
replacement rule; log entry 26). -/
def Node.cacheIn {α : Type} (n : Node) (room : Nat) (l : List α) (x : α) : List α × Node :=
  if l.length < room then (l ++ [x], n)
  else
    let (v, n) := n.fresh
    (l.eraseIdx (v % room) ++ [x], n)

/-- Cache a slot's leaf entry, eight ways to a set, and the upper entries its walk read (R178). -/
def Node.cacheWalk (n : Node) (sheet seq slot : Nat) : Node :=
  match n.seq? seq with
  | none => n
  | some r =>
    let k := leafKey seq slot
    let set := Config.routeSet r.partition k % 2048
    let mine (e : RouteEnt) : Bool := e.sheet == sheet && e.set == set
    let (ways, n) := n.cacheIn 8 (n.office.routeCache.filter mine) ⟨sheet, set, r.partition, k, n.chart.epoch⟩
    let n := n.modOffice fun o => { o with routeCache := o.routeCache.filter (fun e => !mine e) ++ ways }
    forEach (([2, 1, 0].filter fun lv => (r.table lv slot).isSome).map fun lv => (⟨sheet, seq, tableKey lv slot⟩ : WalkEnt)) n
      fun n e =>
        if n.office.walkCache.contains e then n
        else
          let (l, n) := n.cacheIn 2048 (n.office.walkCache.filter fun x => x.sheet == sheet) e
          n.modOffice fun o => { o with walkCache := o.walkCache.filter (fun x => x.sheet != sheet) ++ l }

/-- A route cache miss ends: its walk is counted, the entry cached, and the letters whose translation waited for it alone
proceed, oldest first (R178). With `parity`, a cached entry was read with a parity error: it is discarded and walked again,
RC_PARITY set (R187). -/
def Node.routeWalk (n : Node) (sheet seq slot : Nat) (parity : Bool) : Node :=
  let k := leafKey seq slot
  let held (e : RouteEnt) : Bool := e.sheet == sheet && e.leafKey == k
  if parity then
    match n.office.routeCache.find? held with
    | none => n
    | some e =>
      let n := n.modOffice fun o => { o with routeCache := o.routeCache.filter fun x => !held x }
      let n := (n.xlErr sheet 2 0 0 e.partition 0 0).countSev 1
      (n.inc R.XL_WALK_CNT_WALKS (sheetBase sheet) 1).cacheWalk sheet seq slot
  else if !(n.office.walks.any fun w => w.sheet == sheet && w.keys.contains k) then n
  else
    let n := (n.inc R.XL_WALK_CNT_WALKS (sheetBase sheet) 1).cacheWalk sheet seq slot
    let ws := n.office.walks.map fun w => if w.sheet = sheet then { w with keys := w.keys.filter (· ≠ k) } else w
    let n := n.modOffice fun o => { o with walks := ws.filter fun w => w.keys ≠ [] }
    forEach (ws.filter fun w => w.keys = []) n fun n w => n.handleLetter w (!n.ready) false

/-! ## Control writes (R118, R140, R187, R212) -/

/-- Keep a control write for the next boundary. -/
def Node.wait (n : Node) (a : CtlAct) : Node := { n with waits := n.waits ++ [a] }

/-- The counters of a sorting office. -/
def officeCounters : List Fld :=
  [R.SO_MERGE_CNT_CONTEXTS, R.SO_MERGE_CNT_TOMB_HITS, R.SO_REFUSE_CNT_ENTRIES, R.SO_REFUSE_CNT_REPLACED]

/-- Its counters by partition. -/
def officePartCounters : List Fld :=
  [R.SO_LETTER_CNT_COLLECTED, R.SO_LETTER_CNT_ADMITTED, R.SO_HOLD_CNT_HELD, R.SO_HOLD_CNT_REFUSED,
   R.SO_EXPIRE_CNT_EXPIRED, R.SO_EXPIRE_CNT_LATE, R.SO_PASS_CNT_PASSES, R.SO_ROWS_CNT_ROWS]

/-- Clear a sorting office's counters. -/
def Node.clearOffice (n : Node) (s : Nat) : Node :=
  let b := sheetBase s
  let n := n.clr (officeCounters ++ [R.SO_T0_CNT_PROMOTED, R.SO_T0_CNT_DROPPED, R.SO_T0_CNT_SKIPPED]) b
  forEach (upTo 32) n fun n p => n.clr officePartCounters (b + 64 * p)

/-- The counters of a translation unit. -/
def xlCounters : List Fld :=
  [R.XL_RC_CNT_HITS, R.XL_RC_CNT_MISSES, R.XL_WALK_CNT_WALKS, R.XL_WALK_CNT_TABLE_PAGES, R.XL_SHARE_CNT_MATCHED,
   R.XL_SHARE_CNT_INSERTED, R.XL_SHARE_CNT_KEY_MISMATCH, R.XL_SHARE_CNT_HEADER_MISMATCH]

/-- The counters of a migration engine. -/
def migCounters : List Fld :=
  [R.MIG_STAGE_CNT_FROM_T2, R.MIG_STAGE_CNT_FROM_T3, R.MIG_DROP_CNT_DROPPED, R.MIG_DROP_CNT_FAILED,
   R.MIG_MOVE_CNT_MOVED_OUT, R.MIG_MOVE_CNT_MOVED_IN, R.MIG_SWAP_CNT_SWAPPED_OUT, R.MIG_SWAP_CNT_SWAPPED_IN]

/-- Drop every tier-0 copy of a sheet's quads (R139). -/
def Node.demoteSheet (n : Node) (s : Nat) : Node :=
  forEach ((mapKeys n.office.t0).filter fun f => quadSheet (frameQuad f) == s) n fun n f => n.dropT0 f

/-- Drop a sheet's cached translations and upper entries (R187). -/
def Node.flushRouteCache (n : Node) (s : Nat) : Node :=
  n.modOffice fun o => { o with routeCache := o.routeCache.filter fun e => e.sheet != s,
                                walkCache := o.walkCache.filter fun e => e.sheet != s }

/-- What a waiting control write does at its boundary. -/
def Node.runCtl (n : Node) (a : CtlAct) : Node :=
  match a with
  | .coreFence c => n.modCore c fun x => { x with fenceHost := true }
  | .coreUnfence c => n.modCore c CoreSt.unfenced
  | .coreClear c => n.clr coreCounters (coreBase c)
  | .soClear s => n.clearOffice s
  | .demote s => n.demoteSheet s
  | .xlClear s => n.clr xlCounters (sheetBase s)
  | .flushRc s => n.flushRouteCache s
  | .migClear q => n.clr migCounters (quadBase q)
  | .pause q on => n.modQuad q fun x => { x with paused := on }

/-- Every waiting control write takes effect. -/
def Node.runWaits (n : Node) : Node := forEach n.waits { n with waits := [] } fun n a => n.runCtl a

end Sys2Proof.Machine
end

