-- ==== Sys2Proof/Machine/Migration.lean ====
section
/-!
DEFINITION. Migration between nodes (R204 to R209), local moves and relocations (R210, R220), swaps (R202, R211): messages,
tiles, verification, switches.
-/

namespace Sys2Proof.Machine

/-! ## Messages (table Migration message) -/

/-- The types of migration messages. -/
def mgOffer : Nat := 0x40
def mgAccept : Nat := 0x41
def mgVerified : Nat := 0x42
def mgCommit : Nat := 0x43
def mgCommitted : Nat := 0x44
def mgCancel : Nat := 0x45
def mgReject : Nat := 0x46

/-- The 16 bytes of fold entries a message carries. -/
def Node.foldBytes (n : Node) (h : PageHdr) : Bytes :=
  match pageFmt h.format with
  | some f => if f.fold = 0 then List.replicate 16 0 else leBytes 16 (leNat ((n.foldTableD h.foldTable).entries.flatMap (leBytes 1)))
  | none => List.replicate 16 0

/-- Encode a message of a move. -/
def Node.encMig (n : Node) (typ status : Nat) (m : Move) (key switch : Nat) (withHdr : Bool) : Bytes :=
  let h := decPageHdr m.hdr
  leBytes 4 (typ + 2 ^ 8 + status * 2 ^ 16) ++ leBytes 4 m.moveId ++ leBytes 8 (keySeq m.leafKey) ++ leBytes 4 (keySlot m.leafKey) ++
    leBytes 1 (m.destQuad % 32 + b2n m.anyQuad * 32) ++ leBytes 1 (tileCount h) ++ leBytes 2 0 ++ leBytes 8 key ++
    leBytes 8 (switch % 2 ^ 48) ++ leBytes 4 (if m.kind = .into then m.peer else n.postcode) ++ leBytes 4 (dataEnd h) ++
    n.foldBytes h ++ (if withHdr then m.hdr else [])

/-- Send a message of a move to its peer (R205). -/
def Node.migSend (n : Node) (m : Move) (typ status key switch : Nat) : Node :=
  let bs := n.encMig typ status m key switch (typ == mgOffer)
  n.userPost 1 m.peer m.partition (mkOp .none .send bs.length 0 bs 0 0 0 0 false false)

/-! ## Ends of moves -/

/-- One page of a MIGRATE has ended (R204). -/
def Node.pageEnds (n : Node) (group : Option Nat) (status detail : Nat) : Node :=
  match group with
  | none => n
  | some g =>
    match mapFind? n.mig.cmds g with
    | none => n
    | some c =>
      let c := { c with left := c.left - 1, moved := c.moved + (if status = 0 then 1 else 0),
                        status := if c.status = 0 then status else c.status, detail := if c.status = 0 then detail else c.detail }
      if c.left = 0 then
        (n.modMig fun m => { m with cmds := mapErase m.cmds g }).complete c.cmd c.status c.detail c.moved
      else n.modMig fun m => { m with cmds := mapInsert m.cmds g c }

/-- The leaves that map the frame of a move at its source, or the slots an inbound move serves (R185). -/
def Node.moveLeaves (n : Node) (m : Move) : List Nat :=
  let l := n.leaf m.leafKey
  if m.kind ≠ .into ∧ n.inT1 l then n.leavesOf l.frame else m.keys

/-- A move starts: an outbound one sends its OFFER, one for each slot that maps the frame, under the one MOVE_ID (R185, R205;
DESIGN CHOICE, log entry 91). -/
def Node.beginMove (n : Node) (id : Nat) : Node :=
  let n := n.modMove id fun m => { m with phase := m.kind.first, waitAt := n.now, resent := false, tiles := 0, part := 0 }
  let m := n.move id
  if m.kind = .out then forEach (n.moveLeaves m) n fun n k => n.migSend { m with leafKey := k } mgOffer 0 0 0 else n

/-- The engine of a quad takes waiting moves while fewer than 16 run (R203). -/
def Node.startQueued (n : Node) (q : Nat) : Node :=
  if 16 ≤ n.movesActive q then n
  else match n.mig.moves.find? fun m => m.2.quad == q && m.2.phase == .queued with
    | none => n
    | some m => n.beginMove m.1

/-- A move is over: its entry goes and the next one starts. -/
def Node.endMove (n : Node) (id : Nat) : Node :=
  let q := (n.move id).quad
  (n.dropMove id).startQueued q

/-- A move fails with a status; it ends at the next boundary, since leaves change only there (R178). -/
def Node.failMove (n : Node) (id status detail : Nat) : Node :=
  n.modMove id fun m => { m with phase := .failed, fail := status, detail := detail, waitAt := n.now, readyAt := none }

/-- The other node of a move: its peer, this node for a move within it, the store or the T3 window for a swap (R212). -/
def Node.movePeer (n : Node) (m : Move) : Nat :=
  match m.kind with
  | .out | .into => m.peer
  | .local' | .relocate => n.postcode
  | .swapOut | .swapIn => n.storePc (m.target / 2 ^ 32)

/-- An error of the migration engine in a move (R212). -/
def Node.moveErr (n : Node) (m : Move) (bit : Nat) : Node :=
  n.migErr m.quad bit m.partition (keySeq m.leafKey) (keySlot m.leafKey) (n.movePeer m)

/-- The leaves a move holds MOVING are SEALED again. -/
def Node.resealMoving (n : Node) (m : Move) : Node :=
  forEach (n.moveLeaves m) n fun n k => if (n.leaf k).st = .moving then n.changeLeaf k fun l => { l with st := .sealed } else n

/-- Revoke the write key of an inbound move. -/
def Node.dropWriteKey (n : Node) (key : Nat) : Node :=
  if key = 0 then n
  else { n with courier := { n.courier with keys := mapMod n.courier.keys (keyIndex key) fun e =>
         { e with valid := false, nextGen := (e.gen + 1) % 256, gone := e.gen == 255 } } }

/-- A slot of an inbound move becomes what it was before: a redirect to the source, or NONE. -/
def Node.leafBack (n : Node) (m : Move) (k : Nat) (redirect : Bool) : Node :=
  if (n.leaf k).st ≠ .moving then n
  else if redirect then n.changeLeaf k fun l => { l with st := .redirect, postcode := m.peer }
  else n.clearLeaf k

/-- An inbound move ends without its switch: frame and key go, the leaves are what they were (R206). -/
def Node.failIn (n : Node) (id : Nat) : Node :=
  let m := n.move id
  let n := n.dropWriteKey m.key
  let n := if m.frame = 0 then n else n.freeRange (frameQuad m.frame) (frameGran m.frame) m.count
  let n := forEach ((m.leafKey, m.target == 1) :: m.also) n fun n x => n.leafBack m x.1 x.2
  (n.inc R.MIG_DROP_CNT_FAILED (quadBase m.quad) 1).endMove id

/-- The space that a move within the node has taken for its page is released. -/
def Node.freeTarget (n : Node) (m : Move) : Node :=
  match m.kind with
  | .local' | .relocate | .swapIn => n.freeRange (frameQuad m.frame) (frameGran m.frame) m.count
  | .swapOut => n.freeLow m.leafKey
  | .out | .into => n

/-- A failed move at its boundary: what it took is released, the leaf is SEALED again, or SWAPPED after a swap-in; after a
swap-out the policy goes on to its next victim (R208, R211). -/
def Node.endFailed (n : Node) (id : Nat) : Node :=
  let m := n.move id
  if m.kind = .into then n.failIn id
  else
    let n := n.freeTarget m
    let n := if m.kind = .swapIn then n.changeLeaf m.leafKey fun l => { l with st := .swapped } else n.resealMoving m
    let n := if m.kind = .swapOut then n.modMig fun x => { x with again := insNat m.partition x.again } else n
    ((n.inc R.MIG_DROP_CNT_FAILED (quadBase m.quad) 1).pageEnds m.cmd m.fail m.detail).endMove id

/-! ## MIGRATE at its boundary (R204) -/

/-- The source's checks of one page: 0 when it may move. -/
def Node.moveCheck (n : Node) (k : Nat) : Nat × Nat :=
  let l := n.leaf k
  if l.st ≠ .sealed ∨ l.poisoned then (stBadState, l.st.code)
  else if (n.hdr l.frame).sealSt ≠ 2 then (stBadState, l.st.code)
  else (0, 0)

/-- Start the move of one page to another node. -/
def Node.moveOut (n : Node) (group : Option Nat) (k destPc destQuad : Nat) (anyQuad : Bool) : Nat × Nat × Node :=
  let (st, dt) := n.moveCheck k
  let l := n.leaf k
  if st ≠ 0 then (st, dt, n)
  else
    let m : Move := { (default : Move) with
                      kind := .out, quad := l.quad, leafKey := k, partition := (n.seqRec (keySeq k)).partition, cmd := group,
                      peer := destPc, destQuad := destQuad, anyQuad := anyQuad, frame := l.frame, count := l.count,
                      hdr := n.hbmRead (frameAddr l.frame) 256 }
    match n.addMove m with
    | none => (stRefused, 0, n)
    | some (id, n) =>
      let n := forEach (n.leavesOf l.frame) n fun n k => n.changeLeaf k fun l => { l with st := .moving }
      let n := n.modMove id fun m => { m with moveId := id % 2 ^ 32 }
      (0, 0, if (n.move id).phase = .queued then n else n.beginMove id)

/-- Start a move within the node, to a named quad or, for a relocation, to any (R210, R220). -/
def Node.moveLocal (n : Node) (group : Option Nat) (k destQuad : Nat) (relocate : Bool) : Nat × Nat × Node :=
  let (st, dt) := n.moveCheck k
  let l := n.leaf k
  let p := (n.seqRec (keySeq k)).partition
  if st ≠ 0 then (st, dt, n)
  else if n.engineFull l.quad then (stRefused, 0, n)
  else if !relocate && !(n.pageQuads p).contains destQuad then (stBadFormat, 0, n)
  else if n.tierQuota p 1 < n.t1Used p + l.count then (stNoQuota, 0, n)
  else
    let spot := if relocate then n.frameSpot p l.quad l.count else (n.findFree destQuad l.count).map fun g => (destQuad, g)
    match spot with
    | none => (stNoQuota, 0, n)
    | some (q, g) =>
      let m : Move := { (default : Move) with
                        kind := if relocate then .relocate else .local', quad := l.quad, leafKey := k, partition := p, cmd := group,
                        destQuad := q, frame := frameKey q g, count := l.count, hdr := n.hbmRead (frameAddr l.frame) 256 }
      match n.addMove m with
      | none => (stRefused, 0, n)
      | some (id, n) =>
        let n := n.setClass q g l.count .frame (keySeq k) 0
        let n := forEach (n.leavesOf l.frame) n fun n k => n.changeLeaf k fun l => { l with st := .moving }
        (0, 0, n.modMove id fun m => { m with moveId := id })

/-! ## The destination: OFFER and its boundary (R204, R205) -/

/-- Is a slot held by an inbound move from a node that its CANCEL ends at the next boundary (R206)? -/
def Node.leaving (n : Node) (peer k : Nat) : Bool :=
  n.mig.moves.any fun x => x.2.kind == .into && x.2.peer == peer && x.2.cancelled && x.2.keys.contains k

/-- The destination's check on an OFFER: its status, 0 when it may go ahead. A slot that a CANCEL of the same source will make a
redirect at the next boundary counts as one, the boundary at which the frame would be allocated. -/
def Node.offerCheck (n : Node) (m : Move) (fold : Bytes) : Nat :=
  let h := decPageHdr m.hdr
  let folded := (pageFmt h.format).any fun f => f.fold != 0
  let l := n.leaf m.leafKey
  if folded ∧ !n.ident.part.fold then stUnsupported
  else match n.served? (keySeq m.leafKey) with
    | none => stNotHome
    | some r =>
      let d := r.desc
      if d.format ≠ h.format ∨ (folded ∧ d.foldTable ≠ h.foldTable) ∨ d.dcode ≠ h.dcode ∨ d.tcode ≠ h.tcode ∨ d.bias ≠ h.bias ∨
          (folded ∧ (!n.foldOk h.format h.foldTable r.partition ∨ n.foldBytes h ≠ fold)) ∨
          (!m.anyQuad ∧ !(n.pageQuads r.partition).contains m.destQuad) then stBadFormat
      else if r.lostSlot (keySlot m.leafKey) then stPoisoned
      else if l.st = .none ∨ (l.st = .redirect ∧ l.postcode = m.peer) ∨ n.leaving m.peer m.leafKey then 0
      else stConflict

/-- Is an inbound move still under way: not failed, cancelled or live? -/
def Move.inbound (m : Move) : Bool := m.kind == .into && m.phase != .failed && m.phase != .done && !m.cancelled

/-- A received OFFER: checked, then kept for the next boundary, or rejected (R205). A further OFFER of a move names a further
slot that maps its frame (log entry 91). -/
def Node.receiveOffer (n : Node) (src : Nat) (bs : Bytes) : Node :=
  let k := leafKey (leAt bs 8 8) (leAt bs 16 4)
  let any : Bool := bitAt (leAt bs 20 1) 5
  let dq := leAt bs 20 1 % 32
  let part := ((n.seq? (keySeq k)).map fun r => r.partition).getD 0
  let hdr := (bs.drop 64).take 256
  let place := ((n.seq? (keySeq k)).bind fun r => n.placeQuad r (keySlot k)).getD ((n.pageQuads part).headD 0)
  let m : Move := { (default : Move) with
                    kind := .into, quad := if any then place else dq, moveId := leAt bs 4 4, leafKey := k, partition := part, peer := src,
                    destQuad := dq, anyQuad := any, hdr := hdr, count := ceilDiv (dataEnd (decPageHdr hdr)) 4096 }
  let st := n.offerCheck m ((bs.drop 48).take 16)
  let same (x : Nat × Move) : Bool := x.2.kind == .into && x.2.peer == src && x.2.moveId == m.moveId && x.2.inbound
  match n.mig.moves.find? same with
  | some (id, x) =>
    if x.keys.contains k then n
    else if st ≠ 0 then (n.migSend m mgReject st 0 0).failMove id st 0
    else n.modMove id fun x => { x with also := x.also ++ [(k, false)] }
  | none =>
    if st ≠ 0 then n.migSend m mgReject st 0 0
    else match n.addMove m with
      | none => n.migSend m mgReject stRefused 0 0
      | some (_, n) => n

/-- The table pages for one slot of an inbound move, and its leaf MOVING over the frame (R205). -/
def Node.joinLeaf (n : Node) (m : Move) (r : SeqRec) (k f : Nat) : Option Node :=
  let miss := r.missing (keySlot k)
  if n.tierQuota r.partition 1 < n.t1Used r.partition + miss.length then none
  else (n.addPath r.desc.seq r.partition (keySlot k) miss).map fun n =>
    n.changeLeaf k fun l =>
      { l with st := .moving, postcode := m.peer, quad := frameQuad f, granule := frameGran f, count := m.count }

/-- At the boundary after an OFFER: the frame is allocated, the leaf becomes MOVING, ACCEPT names a write key over the frame
alone; or REJECT (R205). -/
def Node.acceptOne (n : Node) (id : Nat) : Node :=
  let m := n.move id
  let st := n.offerCheck m (n.foldBytes (decPageHdr m.hdr))
  let reject (st : Nat) : Node := (n.migSend m mgReject st 0 0).failIn id
  if st ≠ 0 then reject st
  else match n.seq? (keySeq m.leafKey) with
    | none => reject stNotHome
    | some r =>
      let p := r.partition
      let was := (n.leaf m.leafKey).st
      let spot := if m.anyQuad then n.frameSpot p m.quad m.count else (n.findFree m.destQuad m.count).map fun g => (m.destQuad, g)
      match spot with
      | none => reject stNoQuota
      | some (q, g) =>
        if n.tierQuota p 1 < n.t1Used p + m.count then reject stNoQuota
        else match (n.setClass q g m.count .frame r.desc.seq 0).joinLeaf m r m.leafKey (frameKey q g) with
          | none => reject stNoQuota
          | some n =>
            let (v, n) := n.fresh
            let idx := (((upTo 4096).map fun i => n.keyLimit - 1 - i).find? fun i =>
              let e : KeyEnt := mapGet n.courier.keys i
              !e.valid && !e.gone).getD 0
            let e0 : KeyEnt := mapGet n.courier.keys idx
            let secret := v % (2 ^ 32 - 1) + 1
            let e : KeyEnt := { e0 with
                                valid := true, gen := e0.nextGen, secret := secret, kind := 0, rights := 2, srcPrefix := m.peer, srcLen := 32,
                                base := granAddr q g, size := m.count * 4096, partition := p, extent := none, withdrawn := false }
            let key := idx + e0.nextGen * 2 ^ 24 + secret * 2 ^ 32
            let n := { n with courier := { n.courier with keys := mapSet n.courier.keys idx e } }
            let n := n.modMove id fun m =>
              { m with phase := .tiles, frame := frameKey q g, key := key, waitAt := n.now, target := if was = .redirect then 1 else 0 }
            n.migSend (n.move id) mgAccept 0 key 0

/-- The further slots of a shared frame whose OFFERs have come since: each becomes MOVING over the frame, or the move is
rejected (R185; log entry 91). -/
def Node.acceptAlso (n : Node) (id : Nat) : Node :=
  let m := n.move id
  if m.frame = 0 ∨ !m.inbound then n
  else forEach (m.also.filter fun x => (n.leaf x.1).st != .moving) n fun n x =>
    let redirect : Bool := (n.leaf x.1).st == .redirect
    let m1 := { m with leafKey := x.1 }
    let st := n.offerCheck m1 (n.foldBytes (decPageHdr m.hdr))
    let reject (st : Nat) : Node := if (n.move id).inbound then (n.migSend m1 mgReject st 0 0).failMove id st 0 else n
    if st ≠ 0 then reject st
    else match (n.seq? (keySeq x.1)).bind fun r => n.joinLeaf m r x.1 m.frame with
      | none => reject stNoQuota
      | some n => n.modMove id fun m => { m with also := m.also.map fun y => if y.1 = x.1 then (y.1, redirect) else y }

/-- Every OFFER that waits for this boundary. -/
def Node.acceptOffers (n : Node) : Node :=
  let n := forEach ((n.mig.moves.filter fun m => m.2.kind == .into && m.2.phase == .offered).map Prod.fst) n fun n id => n.acceptOne id
  forEach ((n.mig.moves.filter fun m => m.2.kind == .into && m.2.also != []).map Prod.fst) n fun n id => n.acceptAlso id

/-! ## The source: answers -/

/-- The outbound move a message names. -/
def Node.outMove (n : Node) (src : Nat) (bs : Bytes) : Option (Nat × Move) :=
  n.mig.moves.find? fun m => m.2.kind == .out && m.2.phase != .failed && m.2.peer == src && m.2.moveId == leAt bs 4 4
/-- The inbound move a message names. -/
def Node.inMove (n : Node) (src : Nat) (bs : Bytes) : Option (Nat × Move) :=
  n.mig.moves.find? fun m =>
    m.2.kind == .into && m.2.phase != .failed && !m.2.cancelled && m.2.peer == src && m.2.moveId == leAt bs 4 4

/-- Name the next switch tick and send COMMIT (R206). -/
def Node.commitMove (n : Node) (id : Nat) : Node :=
  let n := n.modMove id fun m =>
    { m with phase := .commit, switchAt := n.kNow + 1 + n.switchLead, answered := false, commits := m.commits + 1, waitAt := n.now }
  n.migSend (n.move id) mgCommit 0 0 (n.move id).switchAt

/-- A received migration message (R205, R206). A REJECT has no field for the DETAIL that CONFLICT completes with, the
destination's leaf state: it is a free value among the states other than NONE (log entry 93). -/
def Node.migMessage (n : Node) (src : Nat) (bs : Bytes) : Node :=
  let typ := leAt bs 0 1
  let tick := leAt bs 32 6
  if typ = mgOffer then n.receiveOffer src bs
  else if typ = mgAccept then
    match n.outMove src bs with
    | some (id, m) => if m.phase = .offered then n.modMove id fun m => { m with phase := .tiles, key := leAt bs 24 8, tiles := 0, waitAt := n.now } else n
    | none => n
  else if typ = mgVerified then
    match n.outMove src bs with
    | some (id, m) => if m.phase = .verify then n.commitMove id else n
    | none => n
  else if typ = mgCommitted then
    match n.outMove src bs with
    | some (id, m) =>
      if m.phase = .commit ∧ tick = m.switchAt % 2 ^ 48 ∧ n.now < n.boundary (m.switchAt - 1) then n.modMove id fun m => { m with answered := true } else n
    | none => n
  else if typ = mgReject then
    match n.outMove src bs with
    | some (id, m) =>
      let st := leAt bs 2 1
      if m.phase = .commit then n
      else if st = stInternal ∧ m.phase = .verify ∧ !m.resent then n.modMove id fun m => { m with phase := .tiles, tiles := 0, part := 0, resent := true }
      else
        let n := if st = stInternal then n.moveErr m 0 else n
        if st ≠ stConflict then n.failMove id st 0
        else
          let (v, n) := n.fresh
          n.failMove id st (v % 7 + 1)
    | none => n
  else if typ = mgCommit then
    match n.inMove src bs with
    | some (id, m) =>
      if m.phase ≠ .commit ∧ m.phase ≠ .committed then n
      else
        let d := tickDiff tick (n.kNow % 2 ^ 48)
        let s := n.kNow + d.toNat
        if 0 < d ∧ n.now + n.time.period ≤ n.boundary s then
          let n := n.modMove id fun m => { m with phase := .committed, switchAt := s, answered := true, waitAt := n.now }
          n.migSend (n.move id) mgCommitted 0 0 s
        else n.migSend m mgReject stLate 0 0
    | none => n
  else if typ = mgCancel then
    match n.inMove src bs with
    | some (id, m) =>
      if m.live then
        n.modMove id fun m => { m with cancelled := true }
      else n.failMove id stAborted 0
    | none => n
  else n

/-! ## Tiles (R195, R203, R208, R211) -/

/-- The source frame takes an uncorrected error while its tiles are read (R208). -/
def Node.sourceUe (n : Node) (id : Nat) : Node :=
  let m := n.move id
  let n := n.moveErr m 5
  let n := if m.kind = .out then n.migSend m mgCancel 0 0 m.switchAt else n
  ((n.poisonPage (n.leaf m.leafKey).frame).fault (.quad m.quad) 2 0x04 5 (some m.partition)).failMove id stPoisoned 0

/-- The store of a swap to T2: postcode and key. -/
def Node.t2Peer (n : Node) (m : Move) : Nat × Nat :=
  let s := m.target / 2 ^ 32
  (n.cw 9 5 s 2 0, n.cw 9 5 s 4 0)

/-- A lower tier cannot be reached or answers with an error in a swap: T2_LOST or T3_LOST, a FAULT record, and the swap
fails (R196, R211). -/
def Node.lowLost (n : Node) (id : Nat) : Node :=
  let m := n.move id
  let b := if m.toT2 then 2 else 3
  ((n.moveErr m b).fault (.quad m.quad) 3 0x04 b (some m.partition)).failMove id stInternal 0

/-- The quads whose HBM a move's tiles are read from or written to. -/
def Move.quads (m : Move) : List Nat :=
  m.quad :: (if (m.kind == .local' || m.kind == .relocate) && frameQuad m.frame != m.quad then [frameQuad m.frame] else [])

/-- Granules the migration engine of a quad may still move in this tick: what admission leaves unused, up to
MIG_CFG.TICK_GRANULES (R203). -/
def Node.migRoom (n : Node) (q : Nat) : Nat :=
  min (n.fetchGranules - (n.quad q).fetched) (n.cw 11 2 0xFFFF 3 16) - (n.quad q).migSlots

/-- Use spare slots for the next tile of a move: the granules there is room for in this tick. Answers whether the whole tile
has now been moved. -/
def Node.takeSlots (n : Node) (id need : Nat) : Bool × Node :=
  let m := n.move id
  let g := min (need - m.part) (m.quads.foldl (fun a q => min a (n.migRoom q)) need)
  let n := forEach m.quads n fun n q => n.modQuad q fun x => { x with migSlots := x.migSlots + g }
  if m.part + g < need then (false, n.modMove id fun m => { m with part := m.part + g })
  else (true, n.modMove id fun m => { m with part := 0 })

/-- The header of the page a move carries. -/
def Node.movedHdr (n : Node) (m : Move) (data : Bytes) : PageHdr :=
  match m.kind with
  | .swapIn => decPageHdr (if m.tiles = 0 then data else n.hbmRead (frameAddr m.frame) 256)
  | _ => n.hdr (n.leaf m.leafKey).frame

/-- Tile `i` of a move is read and handed on: over the fabric, to the T3 window, or to the page's new frame (R195, R205,
R210, R211). A swap-in from T2 asks its store for the tile, on the path its number names. -/
def Node.carryTile (n : Node) (id i len : Nat) (last : Bool) (data : Bytes) : Node :=
  let m := n.move id
  let src := frameAddr (n.leaf m.leafKey).frame + i * 8192
  let low := m.target % 2 ^ 32 * 4096 + i * 8192
  match m.kind with
  | .out => n.userPost 1 m.peer m.partition (mkOp (.migration id) .write len src [] m.key (i * 8192) 0 0 last false)
  | .local' | .relocate => n.hbmStore (frameAddr m.frame + i * 8192) (n.hbmRead src len)
  | .swapOut =>
    if m.toT2 then
      let (pc, key) := n.t2Peer m
      n.userPost 2 pc m.partition (mkOp (.t2 id) .write len src [] key low 0 0 last false)
    else
      let n := n.hostWrite (n.rd R.HP_T3_BASE_BASE 0 + low) (n.hbmRead src len)
      if last then n.modMove id fun m => { m with readyAt := some n.now } else n
  | .swapIn =>
    if m.toT2 then
      let (pc, key) := n.t2Peer m
      n.userPost 2 pc m.partition
        { mkOp (.t2 id) .read len (frameAddr m.frame + i * 8192) [] key low 0 0 false false with pathAt := some i }
    else n.hbmStore (frameAddr m.frame + i * 8192) (data.take len)
  | .into => n

/-- The engine moves the next tile of a move in slots that admission leaves unused (R203); `data` is what the T3 window gave
for it. -/
def Node.moveTile (n : Node) (id : Nat) (data : Bytes) : Node :=
  match mapFind? n.mig.moves id with
  | none => n
  | some m =>
    if m.phase ≠ .tiles ∨ m.kind = .into then n
    else
      let f := (n.leaf m.leafKey).frame
      let d := (n.seqRec (keySeq m.leafKey)).desc
      let i := m.tiles
      let stop := if m.kind = .swapIn then frameBytes d.fmt d.dcode d.p d.bias else dataEnd (n.movedHdr m data)
      let len := min 8192 (stop - i * 8192)
      let last : Bool := decide (stop ≤ (i + 1) * 8192)
      if (m.kind = .swapOut ∨ m.kind = .swapIn) ∧ !m.toT2 ∧ !n.t3Window then n.lowLost id
      else
        let (whole, n) := n.takeSlots id (ceilDiv len 4096)
        if !whole then n
        else
          let n := (n.wakeStack (frameQuad f)).wakeStack (frameQuad m.frame)
          if m.kind ≠ .swapIn ∧ n.poisoned (frameAddr f + i * 8192) len then n.sourceUe id
          else
            let n := n.modMove id fun m => { m with tiles := i + 1, phase := if last then .verify else .tiles, waitAt := n.now }
            n.carryTile id i len last data

/-! ## Reading a page from its T2 store into staging (R195, R196) -/

/-- A page that is to be staged from a lower tier and whose tiles have not been asked for. -/
def Node.unread (n : Node) : Option (Nat × Staged) := n.office.staged.find? fun e => e.2.lower && !e.2.waiting && !e.2.reading

/-- Ask the store for every tile of a page that is to be staged, one READ a tile, each on the path its number names. -/
def Node.readStore (n : Node) (key : Nat) (e : Staged) : Node :=
  let n := n.modOffice fun o => { o with staged := mapSet o.staged key { e with reading := true } }
  let k := key - 2 ^ 120
  let d := (n.seqRec (keySeq k)).desc
  let stop := frameBytes d.fmt d.dcode d.p d.bias
  match n.lowOf k with
  | none => n
  | some l =>
    if l.store = 2 ^ 16 then n
    else forEach (upTo (ceilDiv stop 8192)) n fun n i =>
      n.userPost 2 (n.storePc l.store) e.partition
        { mkOp (.stage e.order i) .read (min 8192 (stop - i * 8192)) 0 [] (n.cw 9 5 l.store 4 0) (l.start * 4096 + i * 8192) 0 0 false
            false with pathAt := some i }

/-- A READ of a page that is being staged came back with an error. -/
def Node.stageBroken (n : Node) (order : Nat) : Node :=
  n.modOffice fun o => { o with staged := mapAll (fun _ e => if e.order = order then { e with broken := true } else e) o.staged }

/-! ## Verification -/

/-- The engine has recomputed CONTENT_HASH (R205, R210). -/
def Node.hashVerified (n : Node) (id : Nat) : Node :=
  match mapFind? n.mig.moves id with
  | none => n
  | some m =>
    match m.kind with
    | .into =>
      if m.phase ≠ .tiles ∧ m.phase ≠ .verify then n
      else if n.frameHashOk m.frame ∧ n.hbmRead (frameAddr m.frame) 256 = m.hdr then
        let n := (n.dropWriteKey m.key).modMove id fun m => { m with phase := .commit, key := 0, waitAt := n.now }
        n.migSend (n.move id) mgVerified 0 0 0
      else
        let n := (n.moveErr m 0).migSend m mgReject stInternal 0 0
        if m.resent then n.failMove id stInternal 0 else n.modMove id fun m => { m with resent := true, phase := .tiles, waitAt := n.now }
    | .local' | .relocate =>
      if m.phase ≠ .verify then n
      else if n.frameHashOk m.frame then n.modMove id fun m => { m with phase := .committed, readyAt := some n.now }
      else
        let n := n.moveErr m 0
        if m.resent then n.failMove id stInternal 0
        else n.modMove id fun m => { m with resent := true, phase := .tiles, tiles := 0, part := 0 }
    | _ => n

/-! ## Switches (R206, R207, R210, R211, R202) -/

/-- An outbound move at B(S). -/
def Node.switchOut (n : Node) (id : Nat) : Node :=
  let m := n.move id
  if m.answered then
    let ks := n.moveLeaves m
    let f := (n.leaf m.leafKey).frame
    let n := n.freeFrame f m.count
    let n := forEach ks n fun n k =>
      n.changeLeaf k fun l => { l with st := .redirect, postcode := m.peer, shared := false, pinned := false, heat := 0 }
    ((n.inc R.MIG_MOVE_CNT_MOVED_OUT (quadBase m.quad) 1).pageEnds m.cmd stDone 0).endMove id
  else
    let n := (n.moveErr m 6).migSend m mgCancel 0 0 m.switchAt
    if 3 ≤ m.commits then (n.modMove id fun m => { m with fail := stInternal, detail := 0 }).endFailed id else n.beginMove id

/-- A page that arrives with a PREFIX_HASH enters the content section of its new home (R235); log entry 31. -/
def Node.gzArrive (n : Node) (p k f : Nat) : Node :=
  let h := n.hdr f
  let s := quadSheet (frameQuad f)
  if h.prefixHash = 0 ∨ !n.ident.part.content then n
  else match n.gzInsert s p (n.part p).gen (hkeyOf h) f with
    | some n => n.changeLeaf k fun l => { l with shared := true }
    | none => n.inc R.GZ_CONTENT_UPD_NO_ROOM (sheetBase s) 1

/-- An inbound move at B(S), if it answered COMMITTED. -/
def Node.switchIn (n : Node) (id : Nat) : Node :=
  let m := n.move id
  let n := forEach m.keys n fun n k => n.changeLeaf k fun l =>
    { l with st := .sealed, postcode := n.postcode, quad := frameQuad m.frame, granule := frameGran m.frame, count := m.count,
             heat := 0, shared := false, pinned := false, poisoned := false }
  let n := n.modHdr m.frame fun h => { h with refs := m.keys.length }
  let n := n.gzArrive m.partition m.leafKey m.frame
  (n.inc R.MIG_MOVE_CNT_MOVED_IN (quadBase (frameQuad m.frame)) 1).modMove id fun m => { m with phase := .done, live := true, waitAt := n.now }

/-- A cancelled inbound move that went live: REDIRECT to the source, the frame freed (R206). -/
def Node.undoIn (n : Node) (id : Nat) : Node :=
  let m := n.move id
  let n := n.freeFrame m.frame m.count
  (forEach m.keys n fun n k => n.changeLeaf k fun l => { l with st := .redirect, postcode := m.peer, shared := false }).endMove id

/-- The content entry of a shared frame goes with it (R235): rewritten in place by a relocation on its sheet, else removed
and inserted in the new home's slice, or counted as NO_ROOM with SHARED cleared. -/
def Node.gzMove (n : Node) (old new : Nat) (relocate : Bool) : Node :=
  let os := quadSheet (frameQuad old)
  let ns := quadSheet (frameQuad new)
  match (n.gzSlice os).content.find? fun e => e.2.quad == frameQuad old && e.2.granule == frameGran old with
  | none => n
  | some (i, e) =>
    if relocate && os == ns then
      n.modSlice os fun s => { s with content := mapInsert s.content i { e with quad := frameQuad new, granule := frameGran new } }
    else
      let n := n.gzDropFrame old
      match n.gzInsert ns e.partition e.gen e.hkey new with
      | some n => n
      | none =>
        let n := n.inc R.GZ_CONTENT_UPD_NO_ROOM (sheetBase ns) 1
        forEach (n.leavesOf new) n fun n k => n.changeLeaf k fun l => { l with shared := false }

/-- A local move switches: the leaves are rewritten in place (R210); a relocation's old granules retire (R220). -/
def Node.switchLocal (n : Node) (id : Nat) : Node :=
  let m := n.move id
  let old := (n.leaf m.leafKey).frame
  let ks := n.moveLeaves m
  let n := (n.dropT0 old).unstage old
  let n := forEach ks n fun n k =>
    n.changeLeaf k fun l => { l with st := .sealed, quad := frameQuad m.frame, granule := frameGran m.frame }
  let n := n.gzMove old m.frame (m.kind == .relocate)
  let n := n.modHdr m.frame fun h => { h with refs := (n.hdr old).refs }
  let n := n.freeRange (frameQuad old) (frameGran old) m.count
  let n := if m.kind = .relocate then
      forEach (span (frameGran old) m.count) n fun n g => n.retireOne (frameQuad old) g false 0 0
    else n
  let n := (n.inc R.MIG_MOVE_CNT_MOVED_OUT (quadBase m.quad) 1).inc R.MIG_MOVE_CNT_MOVED_IN (quadBase (frameQuad m.frame)) 1
  (n.pageEnds m.cmd stDone 0).endMove id

/-- A swap-out whose last write has completed: the leaf becomes SWAPPED and the T1 frame is freed (R211). -/
def Node.switchSwapOut (n : Node) (id : Nat) : Node :=
  let m := n.move id
  let l := n.leaf m.leafKey
  let n := n.freeFrame l.frame m.count
  let n := n.changeLeaf m.leafKey fun l =>
    { l with st := .swapped, postcode := if m.toT2 then (n.t2Peer m).1 else 0xFFFFFFFF, quad := 0, granule := m.target % 2 ^ 32, shared := false }
  (n.inc R.MIG_SWAP_CNT_SWAPPED_OUT (quadBase m.quad) 1).endMove id

/-- A swap-in whose tiles are copied and verified: SEALED in T1 (R202); bytes that differ poison the page and leave it
SWAPPED. -/
def Node.switchSwapIn (n : Node) (id : Nat) : Node :=
  let m := n.move id
  if n.frameHashOk m.frame then
    let n := (n.freeLow m.leafKey).modOffice fun o => { o with staged := mapErase o.staged (lowKey m.leafKey) }
    let n := n.changeLeaf m.leafKey fun l =>
      { l with st := .sealed, postcode := n.postcode, quad := frameQuad m.frame, granule := frameGran m.frame, count := m.count }
    (n.inc R.MIG_SWAP_CNT_SWAPPED_IN (quadBase m.quad) 1).endMove id
  else
    let n := (n.moveErr m 0).fault (.quad m.quad) 2 0x04 0 (some m.partition)
    (n.changeLeaf m.leafKey fun l => { l with poisoned := true }).endFailed id

/-- Is a move due to switch at the present time? -/
def Node.switchDue (n : Node) (m : Move) : Bool :=
  if m.phase = .failed then decide (n.boundary (n.tickAt m.waitAt + 1) ≤ n.now)
  else match m.kind with
  | .out => m.phase == .commit && decide (n.boundary m.switchAt ≤ n.now)
  | .into => (m.phase == .committed && decide (n.boundary m.switchAt ≤ n.now)) || m.cancelled
  | _ => m.readyAt.any fun t => decide (n.boundary (n.tickAt t + 1) ≤ n.now)

/-- Switch one move that is due. -/
def Node.switchMove (n : Node) (id : Nat) : Node :=
  match mapFind? n.mig.moves id with
  | none => n
  | some m =>
    if !n.switchDue m then n
    else if m.phase = .failed then n.endFailed id
    else match m.kind with
      | .out => n.switchOut id
      | .into => if m.cancelled then n.undoIn id else n.switchIn id
      | .local' | .relocate => n.switchLocal id
      | .swapOut => n.switchSwapOut id
      | .swapIn => n.switchSwapIn id

/-- Every move that is due at a boundary. -/
def Node.switchMoves (n : Node) : Node := forEach (mapKeys n.mig.moves) n fun n id => n.switchMove id

/-- Is a courier operation of a swap still under way? -/
def Node.t2Waits (n : Node) (id : Nat) : Bool := n.courier.qps.any fun e => e.2.ops.any fun o => o.user == .t2 id

/-- The last write of a swap has completed, or its last tile is in place and verified: it switches at the next boundary. -/
def Node.swapComplete (n : Node) (id : Nat) : Node :=
  match mapFind? n.mig.moves id with
  | none => n
  | some m =>
    let n := if (m.kind = .swapOut ∨ m.kind = .swapIn) ∧ m.phase = .verify ∧ m.readyAt.isNone ∧ !n.t2Waits id then
        n.modMove id fun m => { m with readyAt := some n.now } else n
    n.switchMove id

/-! ## Failures and ends from outside -/

/-- A courier operation of the migration engine has completed. -/
def Node.migOpDone (n : Node) (id status : Nat) : Node :=
  match mapFind? n.mig.moves id with
  | none => n
  | some m => if status = 0 ∨ m.kind ≠ .out ∨ m.phase = .failed then n else n.failMove id stInternal 0

/-- A courier operation of a swap to or from T2 has completed. -/
def Node.t2OpDone (n : Node) (id status : Nat) : Node :=
  match mapFind? n.mig.moves id with
  | none => n
  | some m =>
    if m.phase = .failed then n
    else if status ≠ 0 then n.lowLost id
    else if m.phase = .verify ∧ m.kind = .swapOut ∧ !n.t2Waits id then n.modMove id fun m => { m with readyAt := some n.now }
    else n

/-- A peer has not answered within MIG_TIMEOUT (R208). -/
def Node.migTimedOut (n : Node) (id : Nat) : Node :=
  match mapFind? n.mig.moves id with
  | none => n
  | some m =>
    if n.now < m.waitAt + n.migTimeoutNs then n
    else match m.kind with
      | .out =>
        if m.phase = .offered ∨ m.phase = .verify ∨ m.phase = .tiles then
          (n.moveErr m 1).failMove id stInternal 0
        else n
      | .into =>
        if m.live then n.endMove id
        else if m.phase = .tiles ∨ m.phase = .commit then
          (n.moveErr m 1).failMove id stInternal 0
        else n
      | _ => n

/-- SEQ_CLOSE, a destroyed partition or a reset cancels a move: CANCEL to the peer, what it allocated goes (R207). -/
def Node.cancelMove (n : Node) (id : Nat) : Node :=
  match mapFind? n.mig.moves id with
  | none => n
  | some m =>
    if m.kind = .into then (if m.live then n.endMove id else n.failIn id)
    else
      let n := if m.kind = .out ∧ m.phase ≠ .queued then n.migSend m mgCancel 0 0 m.switchAt else n
      (((n.freeTarget m).inc R.MIG_DROP_CNT_FAILED (quadBase m.quad) 1).pageEnds m.cmd stAborted 0).endMove id

end Sys2Proof.Machine
end

