-- ==== Sys2Proof/Machine/Operands.lean ====
section
/-!
DEFINITION. The operands of host commands: the 16 B header (R309), the table Opcodes (R313), the bodies and the checks of
R7 to R10 and R477 that a command's bytes alone decide (R311, at fetch).
-/

namespace Sys2Proof.Machine

/-- The little-endian field of bits `lo .. lo+w-1` of the 8 bytes at an offset of a command. -/
def cmdBits (bs : Bytes) (off lo w : Nat) : Nat := bits (leAt bs off 8) lo w

/-- Are all bytes from an offset up to 0x40 zero? -/
def zeroFrom (bs : Bytes) (off : Nat) : Bool := leAt bs off (64 - off) == 0

/-! ## The command header (R309) -/

def cmdOp (bs : Bytes) : Nat := leAt bs 0 1
def cmdVersion (bs : Bytes) : Nat := leAt bs 1 1
def cmdFence (bs : Bytes) : Bool := bitAt (leAt bs 0 4) 16
def cmdAtTickEn (bs : Bytes) : Bool := bitAt (leAt bs 0 4) 17
def cmdTag (bs : Bytes) : Nat := leAt bs 4 2
def cmdAtTick (bs : Bytes) : Nat := leAt bs 8 6
/-- A 64-bit body field. -/
def cmdQ (bs : Bytes) (off : Nat) : Nat := leAt bs off 8
/-- A 32-bit body field. -/
def cmdD (bs : Bytes) (off : Nat) : Nat := leAt bs off 4

/-! ## The table Opcodes (R313) -/

def opcodes : List Nat :=
  [0x00, 0x10, 0x11, 0x12, 0x13, 0x14, 0x15, 0x16, 0x17, 0x18, 0x19, 0x20, 0x21, 0x22, 0x23, 0x24, 0x30, 0x31, 0x32, 0x33,
   0x34, 0x35, 0x36, 0x37, 0x38, 0x39, 0x40, 0x41, 0x42, 0x43, 0x50, 0x51, 0x52, 0x53, 0x60, 0x61]

/-- Owner column: 0 either, 1 a partition, 2 NODE. -/
def opOwner (op : Nat) : Nat := if op = 0 then 0 else if op < 0x50 then 1 else 2

/-- Is a command applied at a boundary (Applied column)? -/
def opAtBoundary (op : Nat) : Bool :=
  [0x10, 0x11, 0x12, 0x13, 0x16, 0x17, 0x18, 0x19, 0x20, 0x21, 0x22, 0x24, 0x51, 0x52, 0x53].contains op

/-- Does a command carry the page-range body (R314)? -/
def opRange (op : Nat) : Bool := [0x12, 0x13, 0x16, 0x17, 0x18, 0x19].contains op

/-! ## The page-range body (R314) -/

/-- The page-range body. -/
structure PageRange where
  seq    : Nat
  layer  : Nat
  head   : Nat
  first  : Nat
  kind   : Nat
  count  : Nat
  destQuad : Nat
  anyQuad  : Bool
  destPc   : Nat
  hash     : Nat              -- PREFIX_HASH of HINT SHARE
  deriving DecidableEq, Repr, Inhabited

/-- Decode a page-range body; HINT SHARE names one ordinal. -/
def decRange (bs : Bytes) : PageRange :=
  let w := cmdQ bs 0x18
  let x := cmdQ bs 0x20
  let share : Bool := cmdOp bs == 0x17 && bits w 56 8 == 3
  { seq := cmdQ bs 0x10, layer := bits w 0 16, head := bits w 16 16, first := bits w 32 24, kind := bits w 56 8,
    count := if share then 1 else bits x 0 24, destQuad := bits x 24 5, anyQuad := bitAt x 29, destPc := bits x 32 32,
    hash := leAt bs 0x20 32 }

/-! ## Reserved fields and fields that do not apply (R7, R477) -/

/-- Reserved bits of the command header. -/
def headerBad (bs : Bytes) : Bool :=
  let w := leAt bs 0 4
  cmdVersion bs != 1 || bits w 18 14 != 0 || leAt bs 6 2 != 0 || leAt bs 14 2 != 0 ||
    (!cmdAtTickEn bs && cmdAtTick bs != 0) || (cmdAtTickEn bs && !opAtBoundary (cmdOp bs))

/-- A page-range body's fields that must be 0, and a HINT without a kind. -/
def rangeBad (bs : Bytes) : Bool :=
  let op := cmdOp bs
  let r := decRange bs
  let x := cmdQ bs 0x20
  if op = 0x17 ∧ r.kind = 3 then false
  else
    (if op = 0x17 then r.kind != 1 && r.kind != 2 else r.kind != 0) || bits x 30 2 != 0 || !zeroFrom bs 0x28 ||
      (if op = 0x16 then r.anyQuad && r.destQuad != 0 else bits x 24 6 != 0 || r.destPc != 0)

/-- A courier operation's reserved fields and misaligned addresses (R275, R477): codes 0x34 to 0x39. -/
def crOpBad (bs : Bytes) : Bool :=
  let op := cmdOp bs
  let w := cmdQ bs 0x10
  bits w 22 10 != 0 || (op != 0x34 && bitAt w 20) || (op != 0x35 && op != 0x37 && op != 0x38 && bitAt w 21) ||
    (op = 0x39 && cmdQ bs 0x18 != 0) || ((op = 0x36 || op = 0x39) && (cmdQ bs 0x20 != 0 || cmdQ bs 0x28 != 0)) ||
    (op < 0x37 && cmdQ bs 0x30 != 0) || (op < 0x38 && cmdQ bs 0x38 != 0) ||
    (op = 0x39 && bits (cmdQ bs 0x38) 21 11 != 0) || ((op = 0x37 || op = 0x38) && cmdQ bs 0x28 % 8 != 0)

/-- Do two byte ranges meet? -/
def rangesMeet (a la b lb : Nat) : Bool := decide (a < b + lb) && decide (b < a + la)

/-- A near-memory descriptor's reserved fields, and a COPY onto its own source (R222, R477): codes 0x40 to 0x43. -/
def nmeBad (bs : Bytes) : Bool :=
  let op := cmdOp bs
  let x := cmdQ bs 0x20
  let dir := bits x 40 2
  let remote : Bool := op == 0x41 && dir != 0
  bits (cmdQ bs 0x10) 41 23 != 0 || bits (cmdQ bs 0x18) 41 23 != 0 || bits x 46 18 != 0 || bits (cmdQ bs 0x30) 32 32 != 0 ||
    (op != 0x41 && dir != 0) || dir == 3 || (op != 0x43 && bits x 42 4 != 0) || (op == 0x43 && bits x 42 2 == 3) ||
    (op == 0x40 && cmdQ bs 0x18 != 0) || (remote && dir == 2 && cmdQ bs 0x18 != 0) || (remote && dir == 1 && cmdQ bs 0x10 != 0) ||
    (op == 0x41 && !remote && cmdQ bs 0x28 != 0) || (op == 0x42 && cmdQ bs 0x28 != 0) ||
    (op == 0x43 && bits (cmdQ bs 0x28) 17 47 != 0) || (!remote && cmdD bs 0x30 != 0) ||
    (!remote && op != 0x43 && cmdQ bs 0x38 != 0) ||
    (op == 0x41 && dir == 0 && rangesMeet (bits (cmdQ bs 0x10) 0 41) (bits x 0 40) (bits (cmdQ bs 0x18) 0 41) (bits x 0 40))

/-- A body's reserved fields, fields that do not apply, and values that are BAD_FORMAT whatever the state. -/
def bodyBad (bs : Bytes) : Bool :=
  let op := cmdOp bs
  let w := cmdQ bs 0x10
  let x := cmdQ bs 0x18
  if op = 0x00 then !zeroFrom bs 0x10
  else if op = 0x10 ∨ op = 0x11 ∨ op = 0x21 then !zeroFrom bs 0x18
  else if opRange op then rangeBad bs
  else if op = 0x14 ∨ op = 0x15 then bits x 16 16 != 0 || !zeroFrom bs 0x20 || w % 8 != 0
  else if op = 0x20 then
    decide (1 < bits x 0 2) || bits x 2 6 != 0 || bits x 13 51 != 0 || bits (cmdQ bs 0x20) 38 26 != 0 ||
      bits (cmdQ bs 0x30) 40 24 != 0 || cmdQ bs 0x38 != 0 || (bits x 0 2 == 1 && bits (cmdQ bs 0x30) 0 40 != 0)
  else if op = 0x22 then
    bits x 41 23 != 0 || bits (cmdQ bs 0x20) 40 24 != 0 || bits (cmdQ bs 0x28) 41 23 != 0 ||
      bits (cmdQ bs 0x30) 16 48 != 0 || cmdQ bs 0x38 != 0 || x % 4096 != 0 || bits (cmdQ bs 0x20) 0 40 % 4096 != 0
  else if op = 0x23 then bits x 44 20 != 0 || !zeroFrom bs 0x20 || bits x 0 32 == 0xFFFFFFFF
  else if op = 0x24 then bits w 12 52 != 0 || !zeroFrom bs 0x18
  else if op = 0x30 then bits w 22 2 != 0 || bits w 28 4 != 0 || bits w 37 27 != 0 || !zeroFrom bs 0x20
  else if op = 0x31 then bits w 20 12 != 0 || bits x 27 5 != 0 || bits x 48 16 != 0 || !zeroFrom bs 0x20
  else if op = 0x32 ∨ op = 0x33 then bits w 20 44 != 0 || !zeroFrom bs 0x18
  else if 0x34 ≤ op ∧ op ≤ 0x39 then crOpBad bs
  else if 0x40 ≤ op ∧ op ≤ 0x43 then nmeBad bs
  else if op = 0x50 then bits x 32 32 != 0 || !zeroFrom bs 0x20
  else if op = 0x51 ∨ op = 0x52 ∨ op = 0x53 then
    bits w 6 26 != 0 || (op != 0x53 && bitAt w 5) || (op = 0x52 && bits w 32 32 != 0) || !zeroFrom bs 0x18
  else if op = 0x60 then decide (7 < bits w 0 4) || bits w 4 28 != 0 || !zeroFrom bs 0x28
  else if op = 0x61 then
    let lv := bits w 0 3
    let kind := bits w 4 4
    bitAt w 3 || bits w 8 24 != 0 || lv == 0 || decide (5 < lv) || (if lv = 1 then kind == 0 || decide (4 < kind) else kind != 0) ||
      (decide (4 ≤ lv) && bits w 32 32 != 0) ||
      (if lv = 1 ∧ kind = 3 then false else if lv = 1 ∧ kind = 4 then bits x 32 32 != 0 else x != 0) || !zeroFrom bs 0x20
  else false

/-- A field or range beyond what its table allows, whatever the state (R9). -/
def bodyLong (bs : Bytes) : Bool :=
  let op := cmdOp bs
  let w := cmdQ bs 0x10
  let x := cmdQ bs 0x18
  if opRange op then
    let r := decRange bs
    decide (r.count = 0) || decide (256 < r.count)
  else if op = 0x14 ∨ op = 0x15 then decide (bits x 0 16 < 128) || decide (9216 < bits x 0 16)
  else if op = 0x20 then decide (32 < bits (cmdQ bs 0x20) 32 6)
  else if op = 0x22 then
    decide (32 < bits (cmdQ bs 0x28) 32 6) || decide (60000 < bits (cmdQ bs 0x30) 0 16) || bits (cmdQ bs 0x20) 0 40 == 0
  else if op = 0x30 then decide (bits w 24 4 < 6) || decide (14 < bits w 24 4) || decide (16 < bits w 32 5)
  else if op = 0x31 then decide (bits x 20 7 = 0) || decide (64 < bits x 20 7)
  else if op = 0x34 then
    let len := bits w 32 32
    decide (len = 0) || decide ((if bitAt w 20 then 8192 else 16777216) < len)
  else if op = 0x35 then decide (bits w 32 32 = 0) || decide (16777216 < bits w 32 32)
  else if op = 0x36 then decide (bits w 32 32 = 0) || decide (8192 < bits w 32 32)
  else if op = 0x37 ∨ op = 0x38 then bits w 32 32 != 8
  else if op = 0x39 then bits w 32 32 != 0
  else if op = 0x43 then decide (bits (cmdQ bs 0x28) 0 17 = 0) || decide (65536 < bits (cmdQ bs 0x28) 0 17)
  else false

/-- RESET_LEVEL's targets within their ranges (R419): `cores` is the part's. -/
def resetLong (bs : Bytes) (cores : Nat) : Bool :=
  let w := cmdQ bs 0x10
  let lv := bits w 0 3
  let kind := bits w 4 4
  let target := bits w 32 32
  (lv == 1 && kind == 1 && decide (0xFFFFF < target)) || (lv == 1 && kind == 2 && decide (4095 < target)) ||
    (lv == 2 && decide (cores ≤ target)) || (lv == 3 && decide (31 < target))

end Sys2Proof.Machine
end

