-- ==== Sys2Proof/Machine/Ranges.lean ====
section
/-!
DEFINITION. Sequence and page-range commands at their boundary: SEQ_OPEN, SEQ_CLOSE (R172, R179), PAGE_ALLOC, PAGE_FREE, PIN,
UNPIN, HINT (R179, R198, R314), HINT SHARE (R184, R234), MIGRATE (R204).
-/

namespace Sys2Proof.Machine

/-- How applying a command ends: completed with STATUS, DETAIL and RESULT; completing later by itself; applied at the next
boundary instead; or an allocation failed, to be tried again after the pressure policy has run (R180). -/
inductive Applied where
  | done (status detail result : Nat) (n : Node)
  | later (n : Node)
  | hold (w : BoxWait) (n : Node)
  | noRoom (n : Node)

/-- A command that completes with a failing status and changes nothing. -/
abbrev failCmd (n : Node) (status detail : Nat) : Applied := .done status detail 0 n

/-! ## Sequences -/

/-- SEQ_OPEN: the descriptor at DESC_ADDR, the placement list in host memory at LIST_ADDR (R172). -/
def Node.applyOpen (n : Node) (p : Nat) (bs data : Bytes) : Applied :=
  let a := cmdQ bs 0x10
  match n.namedFault p a 64 with
  | (some e, n) => failCmd n e.1 e.2
  | (none, n) =>
    let desc := n.namedBytes a 64 data
    let list := if bitAt a 63 then data.drop 64 else data
    let (r, n) := n.seqOpenAt p desc list
    .done r.1 r.2 0 n

/-- The moves of a sequence's pages, those of a shared frame that another sequence's MIGRATE started among them (R179,
R185). -/
def Node.movesOfSeq (n : Node) (seq : Nat) : List Nat :=
  (n.mig.moves.filter fun m => !m.2.live && (n.moveLeaves m.2).any fun k => keySeq k == seq).map Prod.fst

/-- Cancel a move and give its pages the state they had before it. -/
def Node.undoMove (n : Node) (id : Nat) : Node :=
  let m := n.move id
  let n := n.cancelMove id
  if m.kind = .swapIn then n.changeLeaf m.leafKey fun l => { l with st := .swapped }
  else if m.kind = .into then n
  else n.resealMoving m

/-- Close a sequence: its moves are cancelled, every leaf becomes NONE, tables and record go (R174, R179, R207). -/
def Node.closeSeq (n : Node) (seq : Nat) : Node :=
  let n := forEach (n.movesOfSeq seq) n fun n id => n.undoMove id
  let n := forEach (n.seqLeaves seq) n fun n k => n.releaseLeaf k
  n.dropSeq seq

/-- SEQ_CLOSE (R172, R179). -/
def Node.applyClose (n : Node) (p : Nat) (bs : Bytes) : Applied :=
  let seq := cmdQ bs 0x10
  match n.seqIn seq p with
  | none => failCmd n stNotHome 0
  | some _ => .done stDone 0 0 (n.closeSeq seq)

/-! ## Page ranges -/

/-- The slots a range names, or the status that refuses it (R314). -/
def Node.rangeSlots (n : Node) (p : Nat) (r : PageRange) : Except (Nat × Nat) (SeqRec × List Nat) :=
  match (n.seqIn r.seq p).filter fun s => !s.dirLost with
  | none => .error (stNotHome, 0)
  | some s =>
    if s.desc.layers ≤ r.layer ∨ s.desc.kvHeads ≤ r.head ∨ s.desc.ordLimit < r.first + r.count then .error (stBadLength, 0)
    else .ok (s, (span r.first r.count).map fun o => s.desc.slot r.layer r.head o)

/-- A command's check of a slot. No command reads a slot below a lost table page, which is unreadable: POISONED (R186;
DEDUCED, log entry 90). -/
def slotCheck (check : Node → SeqRec → Nat → Nat × Nat) (n : Node) (s : SeqRec) (slot : Nat) : Nat × Nat :=
  if s.lostSlot slot then (stPoisoned, 0) else check n s slot

/-- Check every page before any changes, the first failing one giving the status (R314). -/
def Node.rangeCmd (n : Node) (p : Nat) (bs : Bytes) (check : Node → SeqRec → Nat → Nat × Nat)
    (act : Node → SeqRec → Nat → Node) : Applied :=
  match n.rangeSlots p (decRange bs) with
  | .error e => failCmd n e.1 e.2
  | .ok (s, slots) =>
    match slots.find? fun x => (slotCheck check n s x).1 != 0 with
    | some x => failCmd n (slotCheck check n s x).1 (slotCheck check n s x).2
    | none => .done stDone 0 slots.length (forEach slots n fun n x => act n s x)

/-- The check of a command that accepts some leaf states (table Page states, table Redirect leaf). -/
def Node.stateCheck (ok : LeafState → Bool) (n : Node) (s : SeqRec) (slot : Nat) : Nat × Nat :=
  let st := (n.leaf (leafKey s.desc.seq slot)).st
  if ok st then (0, 0) else (stBadState, st.code)

/-- PAGE_FREE: the states that have a page, and a redirect. -/
def Node.applyFree (n : Node) (p : Nat) (bs : Bytes) : Applied :=
  n.rangeCmd p bs (Node.stateCheck fun st => st != .none && st != .moving)
    fun n s x => n.releaseLeaf (leafKey s.desc.seq x)

/-- PIN. -/
def Node.applyPin (n : Node) (p : Nat) (bs : Bytes) : Applied :=
  n.rangeCmd p bs (Node.stateCheck fun st => st == .allocated || st == .open || st == .sealed)
    fun n s x => n.changeLeaf (leafKey s.desc.seq x) fun l => { l with pinned := true }

/-- The states that UNPIN and HINT accept. -/
def hintable (st : LeafState) : Bool :=
  st == .allocated || st == .open || st == .sealed || st == .moving || st == .swapped

/-- UNPIN. -/
def Node.applyUnpin (n : Node) (p : Nat) (bs : Bytes) : Applied :=
  n.rangeCmd p bs (Node.stateCheck hintable)
    fun n s x => n.changeLeaf (leafKey s.desc.seq x) fun l => { l with pinned := false }

/-- HINT HOT: the bit is set, a SWAPPED page comes back (R198, R202). -/
def Node.applyHot (n : Node) (p : Nat) (bs : Bytes) : Applied :=
  n.rangeCmd p bs (Node.stateCheck hintable) fun n s x =>
    let k := leafKey s.desc.seq x
    let n := n.changeLeaf k fun l => { l with hot := true }
    if (n.leaf k).st = .swapped then n.startSwapIn k true else n

/-- HINT COLD: HOT is cleared and COUNT becomes 0 (R198). -/
def Node.applyCold (n : Node) (p : Nat) (bs : Bytes) : Applied :=
  n.rangeCmd p bs (Node.stateCheck hintable)
    fun n s x => n.changeLeaf (leafKey s.desc.seq x) fun l => { l with hot := false, heat := 0 }

/-- PAGE_ALLOC's check of a slot. -/
def Node.allocCheck (n : Node) (s : SeqRec) (slot : Nat) : Nat × Nat :=
  match n.home s slot with
  | .fresh => (0, 0)
  | .leaf l => if l.st = .dropped then (0, 0) else (stBadState, l.st.code)
  | _ => (stNotHome, 0)

/-- Allocate every slot of a range, or none: the first slot that finds no room stops it. -/
def Node.allocAll (n : Node) (s : SeqRec) : List Nat → Except Nat Node
  | [] => .ok n
  | x :: xs =>
    let k := leafKey s.desc.seq x
    let again : Bool := (n.leaf k).st == .dropped
    match n.allocPage (n.seqRec s.desc.seq) x with
    | none => .error x
    | some n => (n.modLeaf k fun l => { l with refill := again }).allocAll s xs

/-- PAGE_ALLOC (R179, R180). `last`: the policy has run, so a failure is final. -/
def Node.applyAlloc (n : Node) (p : Nat) (bs : Bytes) (last : Bool) : Applied :=
  match n.rangeSlots p (decRange bs) with
  | .error e => failCmd n e.1 e.2
  | .ok (s, slots) =>
    match slots.find? fun x => (slotCheck Node.allocCheck n s x).1 != 0 with
    | some x => failCmd n (slotCheck Node.allocCheck n s x).1 (slotCheck Node.allocCheck n s x).2
    | none =>
      match n.allocAll s slots with
      | .ok n => .done stDone 0 slots.length n
      | .error x => if last then failCmd (n.allocFailed s x) stNoQuota 0 else .noRoom n

/-! ## HINT SHARE (R184, R234) -/

/-- What a hit is remembered by: sheet, entry index and frame. -/
def hitId (h : Nat × Nat × Content) : Nat := (h.1 * 2 ^ 20 + h.2.1) * 2 ^ 29 + frameKey h.2.2.quad h.2.2.granule

/-- The header of a page with the prefix hash of its HINT SHARE. -/
def Node.shareHdr (n : Node) (k hash : Nat) : PageHdr := { n.hdr (n.leaf k).frame with prefixHash := hash }

/-- The sheets a content lookup of a partition is sent to (R233). -/
def Node.lookSheets (n : Node) (p : Nat) : List Nat := n.sheetList.filter fun s => (n.pageQuads p).any fun q => quadSheet q == s

/-- A content lookup: counted on every sheet it is sent to, with the hits. -/
def Node.contentLookup (n : Node) (p hkey : Nat) : List (Nat × Nat × Content) × Node :=
  let hits := n.gzHits p hkey
  let n := forEach (n.lookSheets p) n fun n s => n.inc R.GZ_CONTENT_CNT_LOOKUPS (sheetBase s) 1
  (hits, forEach hits n fun n h => n.inc R.GZ_CONTENT_CNT_HITS (sheetBase h.1) 1)

/-- Pre-verification: the hits of a lookup that waits its turn like a frame's (R228), to be found again at application. -/
def Node.preRead (n : Node) (p : Nat) (bs : Bytes) : List Nat × Node :=
  match n.rangeSlots p (decRange bs) with
  | .error _ => ([], n)
  | .ok (s, slots) =>
    let k := leafKey s.desc.seq (slots.headD 0)
    if (n.leaf k).st = .sealed then
      let (hits, n) := (forEach (n.lookSheets p) n fun n s => n.gzLookup s).contentLookup p
        (hkeyOf (n.shareHdr k (decRange bs).hash))
      (hits.map hitId, n)
    else ([], n)

/-- Do two headers have the same full key? -/
def sameKey (a b : PageHdr) : Bool :=
  a.modelId == b.modelId && a.layer == b.layer && a.kvHead == b.kvHead && a.prefixHash == b.prefixHash
/-- Do two headers agree in the fields that sharing needs? -/
def sameContent (a b : PageHdr) : Bool :=
  a.format == b.format && a.foldTable == b.foldTable && a.dcode == b.dcode && a.tcode == b.tcode && a.bias == b.bias &&
    a.ordinal == b.ordinal && a.stepBase == b.stepBase && a.hash == b.hash

/-- Verify hits from the lowest sheet: the first that agrees, counting those that do not; the page's own frame `f` needs no
verification, and a full REFS ends the search as a miss (R184, R185, R233). -/
def Node.verifyHits (n : Node) (home f : Nat) (h : PageHdr) (failed : Bool) :
    List (Nat × Nat × Content) → Option Content × Bool × Node
  | [] => (none, failed, n)
  | c :: cs =>
    let g := n.hdr (frameKey c.2.2.quad c.2.2.granule)
    if frameKey c.2.2.quad c.2.2.granule = f then (some c.2.2, false, n)
    else if !sameKey h g then (n.inc R.XL_SHARE_CNT_KEY_MISMATCH (sheetBase home) 1).verifyHits home f h true cs
    else if !sameContent h g then (n.inc R.XL_SHARE_CNT_HEADER_MISMATCH (sheetBase home) 1).verifyHits home f h true cs
    else if 16777215 ≤ g.refs then (none, false, n)
    else (some c.2.2, false, n)

/-- Share one page whose SEAL is 2. -/
def Node.sharePage (n : Node) (p k hash : Nat) (w : BoxWait) : Applied :=
  let l := n.leaf k
  let f := l.frame
  let home := quadSheet l.quad
  let old := n.hdr f
  let h := n.shareHdr k hash
  let (hits, n) := n.contentLookup p (hkeyOf h)
  if hits.any fun c => !c.2.2.fresh && !w.seen.contains (hitId c) && frameKey c.2.2.quad c.2.2.granule != f then
    .hold { w with seen := hits.map hitId } n
  else
    match (n.putHdr f h).verifyHits home f h false hits with
    | (some c, _, n) =>
      let g := frameKey c.quad c.granule
      if g = f then .done stDone 1 0 n
      else
        let n := n.unmap f l.count
        let n := n.modHdr g fun x => { x with refs := x.refs + 1 }
        let n := n.changeLeaf k fun l => { l with quad := c.quad, granule := c.granule, shared := true }
        .done stDone 1 1 (n.inc R.XL_SHARE_CNT_MATCHED (sheetBase home) 1)
    | (none, true, n) => .done stDone 2 0 (n.putHdr f old)
    | (none, false, n) =>
      match n.gzInsert home p (n.part p).gen (hkeyOf h) f with
      | none => .done stDone 3 0 (n.inc R.GZ_CONTENT_UPD_NO_ROOM (sheetBase home) 1)
      | some n =>
        let n := n.changeLeaf k fun l => { l with shared := true }
        .done stDone 0 1 (n.inc R.XL_SHARE_CNT_INSERTED (sheetBase home) 1)

/-- HINT SHARE at its boundary: attempted once SEAL is 2. -/
def Node.applyShare (n : Node) (p : Nat) (w : BoxWait) : Applied :=
  let r := decRange w.bytes
  match n.rangeSlots p r with
  | .error e => failCmd n e.1 e.2
  | .ok (s, slots) =>
    let k := leafKey s.desc.seq (slots.headD 0)
    let l := n.leaf k
    if s.lostSlot (slots.headD 0) then failCmd n stPoisoned 0
    else if l.st ≠ .sealed then failCmd n stBadState l.st.code
    else if (n.hdr l.frame).sealSt ≠ 2 then .hold w n
    else n.sharePage p k r.hash w

/-- Entries inserted at the last boundary are no longer kept on-die (R234). -/
def Node.clearFresh (n : Node) : Node :=
  forEach n.sheetList n fun n s =>
    n.modSlice s fun x => { x with content := x.content.map fun e => (e.1, { e.2 with fresh := false }) }

/-! ## MIGRATE (R204) -/

/-- Start one page of a MIGRATE. -/
def Node.migrateOne (n : Node) (g : Nat) (r : PageRange) (s : SeqRec) (slot : Nat) : Node :=
  let k := leafKey s.desc.seq slot
  let res :=
    if s.lostSlot slot then (stPoisoned, 0, n)
    else if r.destPc = n.postcode then
      n.moveLocal (some g) k (if r.anyQuad then (n.placeQuad s slot).getD 0 else r.destQuad) false
    else n.moveOut (some g) k r.destPc r.destQuad r.anyQuad
  if res.1 ≠ 0 then res.2.2.pageEnds (some g) res.1 res.2.1 else res.2.2

/-- MIGRATE at its boundary: every page is a move of its own. -/
def Node.applyMigrate (n : Node) (p : Nat) (ref : CmdRef) (bs : Bytes) : Applied :=
  let r := decRange bs
  match n.rangeSlots p r with
  | .error e => failCmd n e.1 e.2
  | .ok (s, slots) =>
    let g := n.mig.nextId + 1
    let n := n.modMig fun m => { m with nextId := g, cmds := mapInsert m.cmds g ⟨ref, slots.length, 0, 0, 0⟩ }
    .later (forEach slots n fun n x => n.migrateOne g r s x)

end Sys2Proof.Machine
end

