-- ==== Sys2Proof/Machine/Hbm.lean ====
section
/-!
DEFINITION. The HBM subsystem: training and re-centring (R214), the outcomes of the decoder (R217), refresh (R218), the thermal
rules of stacks and dies (R219, R475), granule retirement (R220), self-refresh (R388).
-/

namespace Sys2Proof.Machine

/-! ## Geometry (R215) -/

/-- Pseudo-channel of a burst: bits 11:7 of its offset. -/
def burstPc (b : Nat) : Nat := b / 4 % 32
/-- Bank of a burst: granule bits 8:3. -/
def burstBank (b : Nat) : Nat := addrGran (b * 32) / 8 % 64
/-- Offset of a burst in its granule. -/
def burstOff (b : Nat) : Nat := b * 32 % 4096

/-- The Survey's thresholds (R438). -/
def Node.eyeWarn (n : Node) : Nat := n.cw 12 3 0xFFFF 0 25
def Node.marginWarn (n : Node) : Nat := n.cw 12 3 0xFFFF 1 4
def Node.guardWarn (n : Node) : Nat := n.cw 12 3 0xFFFF 2 15

/-! ## Training (R214) -/

/-- A channel fails training in service: the quad goes OFFLINE at the next boundary. -/
def Node.hbmTrainFail (n : Node) (q ch : Nat) : Node :=
  let n := n.modQuad q fun x =>
    { x with failedCh := x.failedCh ||| 2 ^ ch, goOffline := x.st != .offline }
  (n.hbmErr q 4 (2 * ch) 0 0 0 0).alarm (.quad q) 3 0x05 4

/-- Record a channel's four margins, read and write, setup and hold (R433, R444). -/
def Node.recordMargins (n : Node) (q ch : Nat) (margins : List Nat) : Node :=
  let a := histChannelAt q ch
  let n := forEach (upTo 4) n fun n i =>
    let v := margins.getD i 0
    (n.histPut (a + 2 * i) 2 v).histMin (a + 8 + 2 * i) 2 v
  let low := margins.foldl min (margins.headD 0)
  if low < n.marginWarn then
    n.oncePerSecond (3 * 2 ^ 20 + q * 16 + ch) fun n => n.healthRec (.quad q) 0x10 0x211 (1 + ch * 2 ^ 8) low 0
  else n

/-! ## Decode outcomes (R217) -/

/-- CE_RETIRE and the window in ticks (R220, R226). -/
def Node.ceRetire (n : Node) (q : Nat) : Nat := max 1 (n.rd R.HBM_CFG_CE_RETIRE (quadBase q))
def Node.ceWindow (n : Node) (q : Nat) : Nat := 2 ^ min 28 (max 16 (n.rd R.HBM_CFG_CE_WINDOW_LOG2 (quadBase q)))

/-- One symbol of a burst was corrected: the burst is rewritten, the error counted, and the granule's count checked for
retirement. -/
def Node.hbmCorrected (n : Node) (b symbol : Nat) (data : List Nat) : Node :=
  let n := n.hbmWrite (b * 32) (data.map (BitVec.ofNat 8))
  let q := addrQuad (b * 32)
  let g := addrGran (b * 32)
  let pc := burstPc b
  let n := n.inc R.HBM_ERR_CNT_CORRECTED (quadBase q) 1
  let n := (n.hbmErr q 0 pc (burstBank b) g (burstOff b) symbol).countSev 1
  let n := n.histInc (histChannelAt q (pc / 2) + 0x10 + (pc % 2 * 64 + burstBank b) * 4) 4 1
  let k := n.kNow
  let seen := ((n.quad q).ceSeen.filter fun e => decide (k < e.2 + n.ceWindow q)) ++ [(g, k)]
  if n.ceRetire q ≤ (seen.filter fun e => e.1 == g).length then
    n.modQuad q fun x => { x with ceSeen := seen.filter fun e => e.1 != g, retireReq := x.retireReq ++ [(g, true)] }
  else n.modQuad q fun x => { x with ceSeen := seen }

/-- The table page in a frame: its sequence and table key. -/
def Node.tableAt (n : Node) (f : Nat) : Option (Nat × Nat) :=
  n.seqs.findSome? fun s => (s.2.tables.find? fun t => t.2 == f + 1).map fun t => (s.1, t.1)

/-- An uncorrected error in a table page: every slot below it is unreadable (R186). -/
def Node.tableUe (n : Node) (f : Nat) : Node :=
  match n.tableAt f with
  | none => n
  | some (s, key) =>
    let level := key / 2 ^ 32
    if level = 4 then n
    else
      let r := n.seqRec s
      let q := frameQuad f
      let n := { n with seqs := mapMod n.seqs s fun r =>
                   { r with lostTables := if r.lostTables.contains key then r.lostTables else r.lostTables ++ [key] } }
      (n.xlErr (quadSheet q) 0 q level r.partition (frameGran f) (key % 2 ^ 32 * 256 ^ (level + 1))).fault (.quad q) 2 0x03 0
        (some r.partition)

/-- The sequence whose directory record a burst holds a half of (R174). -/
def Node.dirAt (n : Node) (b : Nat) : Option Nat :=
  (n.seqs.find? fun s => (n.dirAddr s.2).any fun a => a / 64 == b / 2).map Prod.fst

/-- A directory record is unreadable: its sequence answers NOT_HOME until it is closed and opened again (R186). -/
def Node.dirUe (n : Node) (seq q g : Nat) : Node :=
  match n.seq? seq with
  | none => n
  | some r =>
    let n := { n with seqs := mapMod n.seqs seq fun r => { r with dirLost := true } }
    (n.xlErr (quadSheet q) 1 q 4 r.partition g 0).fault (.quad q) 3 0x03 1 (some r.partition)

/-- A key table entry is unreadable: invalid as after KEY_REVOKE, NEXT_GEN unchanged (R409). -/
def Node.keyUe (n : Node) (idx q : Nat) : Node :=
  let e : KeyEnt := mapGet n.courier.keys idx
  if !e.valid then n
  else
    let n := { n with courier := { n.courier with keys := mapMod n.courier.keys idx fun e => { e with valid := false } } }
    n.fault (.quad q) 3 0x09 0 (some e.partition)

/-- An uncorrected burst, or a tag mismatch after decoding: poisoned, counted, its granule retired. A directory record, a key
table entry (`key`) or a table page in it is lost. -/
def Node.hbmUncorrected (n : Node) (b : Nat) (tag : Bool) (key : Option Nat) : Node :=
  let q := addrQuad (b * 32)
  let g := addrGran (b * 32)
  let pc := burstPc b
  let bit := if tag then 2 else 1
  let n := { n with poison := insNat b n.poison }
  let n := n.inc R.HBM_ERR_CNT_UNCORRECTED (quadBase q) 1
  let n := n.hbmErr q bit pc (burstBank b) g (burstOff b) 0
  let n := n.histInc (histChannelAt q (pc / 2) + 0x210 + pc % 2 * 4) 4 1
  let n := (n.fault (.quad q) 2 0x05 bit none).errorBp 2
  let n := n.modQuad q fun x => { x with retireReq := x.retireReq ++ [(g, false)] }
  match key, n.dirAt b with
  | some k, _ => n.keyUe k q
  | none, some seq => n.dirUe seq q g
  | none, none => n.tableUe (frameKey q g)

/-- The codeword that stands for a burst. -/
def Node.storedWord (n : Node) (b : Nat) : List Nat :=
  eccWord ((n.hbmRead (b * 32) 32).map BitVec.toNat) (tagByte (addrGran (b * 32)) (burstOff b) (n.poison.contains b))

/-- The controller reads a burst and acts on what it decodes to (table Decode outcomes). -/
def Node.burstRead (n : Node) (b : Nat) (x : BurstRead) (key : Option Nat) : Node :=
  match eccOutcome (withErrors (n.storedWord x.reached) x.errors) (tagByte (addrGran (b * 32)) (burstOff b) false) with
  | .sound => n
  | .corrected i data => n.hbmCorrected b i data
  | .failed tag => n.hbmUncorrected b tag key
  | .poisoned => n

/-! ## Retirement at the boundary (R220) -/

/-- The leaf of the page a granule belongs to, if it can be relocated. -/
def Node.relocatable (n : Node) (q g : Nat) : Option Nat :=
  (n.leaves.find? fun p =>
    p.2.st == .sealed && n.inT1 p.2 && p.2.quad == q && decide (p.2.granule ≤ g) && decide (g < p.2.granule + p.2.count) &&
      (n.hdr p.2.frame).sealSt == 2).map Prod.fst

/-- The class change of one granule. -/
def Node.retireGranule (n : Node) (q g : Nat) (ce : Bool) : Node :=
  let cls := n.classOf q g
  let r : GRun := ((n.runAt q g).map Prod.snd).getD default
  let pend (n : Node) : Node := n.retireOne q g true r.owner r.kind
  match cls with
  | .retired | .retirePending => n
  | .free => n.retireOne q g false 0 0
  | .frame =>
    match (if ce then n.relocatable q g else none) with
    | none => pend n
    | some k =>
      let (st, _, n') := n.moveLocal none k 0 true
      if st = 0 then n' else pend n
  | _ => pend n

/-- Every granule that waits for this boundary. -/
def Node.retireAll (n : Node) : Node :=
  forEach n.quadList n fun n q =>
    let l := (n.quad q).retireReq
    if l = [] then n
    else forEach l (n.modQuad q fun x => { x with retireReq := [] }) fun n e => n.retireGranule q e.1 e.2

/-! ## Patrol, refresh (R217, R218, R226) -/

/-- A patrol pass starts: every allocatable granule is read, in the slots R221 leaves; what it finds comes as the errors do. -/
def Node.patrol (n : Node) (q : Nat) : Node :=
  n.modQuad q fun x => { x with patrolAt := n.now, patrolLeft := reservedGran }

/-- A pass starts by itself once per PATROL_HOURS. -/
def Node.patrolTimer (n : Node) (q : Nat) : Node :=
  let at' := (n.quad q).patrolAt
  if at' = 0 ∨ at' + n.rd R.HBM_CFG_PATROL_HOURS (quadBase q) * 3600000000000 ≤ n.now then n.patrol q else n

/-- An RFM command is issued. -/
def Node.rfm (n : Node) (q : Nat) : Node := n.inc R.HBM_RFM_CNT_RFM (quadBase q) 1

/-- The counters HBM_CTL.CLEAR_CNT clears. -/
def hbmCounters : List Fld := [R.HBM_ERR_CNT_CORRECTED, R.HBM_ERR_CNT_UNCORRECTED, R.HBM_RFM_CNT_RFM]

/-- 10 µs without access to a stack of a sheet in Park: it goes back into self-refresh (R388). -/
def Node.stackIdle (n : Node) (q : Nat) : Node :=
  if bitAt n.power.parked (quadSheet q) then n.modQuad q fun x => { x with selfRefresh := true } else n

/-! ## Thermal rules (R219, R475) -/

/-- Ten milliseconds. -/
def ms10 : Nat := 10000000

/-- One step of a rule: hotter than its limit, cool for 10 ms, or between. Answers the point asked for, the time of the last
step down while the condition lasts (plus 1; 0 once it is over) and since when it has been cool. -/
def thermStep (now op at' : Nat) (cool : Option Nat) (hot isCool : Bool) : Nat × Nat × Option Nat :=
  if hot then
    if at' = 0 ∨ at' + ms10 ≤ now + 1 then (min 3 (op + 1), now + 1, none) else (op, at', none)
  else if isCool then
    match cool with
    | none => (op, 0, some now)
    | some t => if 0 < op ∧ t + ms10 ≤ now then (op - 1, 0, some now) else (op, 0, cool)
  else (op, 0, none)

/-- A Survey record about a die's temperature; its EVENT code is not stated. -/
def Node.dieRec (n : Node) (sc : RecScope) (alarm : Bool) : Node :=
  let (e, n) := n.fresh
  if alarm then n.alarm sc 0 0x10 (e % 65536) else n.health sc 0x10 (e % 65536)

/-- The hottest of some units. -/
def hottestOf (l : List Nat) : Nat := l.foldl max 0

/-- Take one quad's temperatures into its state and histograms; HBM_ERR_STATUS shows each time a limit is reached. -/
def Node.noteTemps (n : Node) (q die stack : Nat) : Node :=
  let was := n.quad q
  let n := if 85 ≤ stack ∧ !was.hot then n.hbmErr q 5 0 0 0 0 0 else n
  let n := if 95 ≤ stack ∧ !was.critical then n.hbmErr q 6 0 0 0 0 0 else n
  let n := n.modQuad q fun x =>
    { x with tempDie := die, tempStack := stack, maxStack := max x.maxStack stack, x2 := decide (85 ≤ stack),
             hot := decide (85 ≤ stack), critical := decide (95 ≤ stack) }
  let a := histQuadAt q
  let n := (n.histInc (a + tempBin die * 8) 8 1).histInc (a + 0x40 + tempBin stack * 8) 8 1
  (n.histMax (a + 0x104) 1 (min die 255)).histMax (a + 0x105) 1 (min stack 255)

/-- The records and parking of one quad's stack. -/
def Node.stackRule (n : Node) (q : Nat) : Node :=
  let t := (n.quad q).tempStack
  let n := if 85 ≤ t then
      n.oncePerSecond (5 * 2 ^ 20 + q) fun n => n.health (.quad q) 0x05 5
    else n
  if 95 ≤ t then
    let n := n.oncePerSecond (6 * 2 ^ 20 + q) fun n => n.alarm (.quad q) 0 0x05 6
    (n.modPower fun p => { p with thermPark := p.thermPark ||| 2 ^ quadSheet q }).wr R.PWR_ERR_STATUS_THERMAL_PARK 0 1
  else n

/-- The records and parking of one sheet's dies, and the ends of both kinds of Park; `stack` is the node's hottest. -/
def Node.sheetRule (n : Node) (s stack : Nat) : Node :=
  let die := hottestOf ((sheetQuads s).map fun q => (n.quad q).tempDie)
  let n := if 100 ≤ die then n.oncePerSecond (7 * 2 ^ 20 + s) fun n => n.dieRec (.quad (n.hottest s)) false else n
  let n := if 105 ≤ die then
      ((n.oncePerSecond (8 * 2 ^ 20 + s) fun n => n.dieRec (.quad (n.hottest s)) true).modPower fun p =>
        { p with diePark := p.diePark ||| 2 ^ s }).wr R.PWR_ERR_STATUS_THERMAL_PARK 0 1
    else n
  let n := if stack < 80 then n.modPower fun p => { p with thermPark := p.thermPark - bits p.thermPark s 1 * 2 ^ s } else n
  if die < 95 then n.modPower fun p => { p with diePark := p.diePark - bits p.diePark s 1 * 2 ^ s } else n

/-- The temperatures of one millisecond: die and stack by global quad, and the hub. -/
def Node.thermalSample (n : Node) (die stack : List Nat) (hub : Nat) : Node :=
  let n := forEach n.quadList n fun n q => n.noteTemps q (die.getD q 0) (stack.getD q 0)
  let n := forEach n.quadList n fun n q => n.stackRule q
  let hs := hottestOf (n.quadList.map fun q => (n.quad q).tempStack)
  let n := forEach n.sheetList n fun n s => n.sheetRule s hs
  let p := n.power
  let hd := hottestOf (n.quadList.map fun q => (n.quad q).tempDie)
  let (os, sa, sc) := thermStep n.now p.opStack p.stackStepAt p.coolStackAt (decide (85 ≤ hs)) (decide (hs < 83))
  let top := max hd hub
  let (od, da, dc) := thermStep n.now p.opDie p.dieStepAt p.coolDieAt (decide (100 ≤ top)) (decide (top < 97))
  let n := if 100 ≤ hub then n.oncePerSecond (9 * 2 ^ 20) fun n => n.dieRec .hub false else n
  let n := if 105 ≤ hub then n.oncePerSecond (10 * 2 ^ 20) fun n => n.dieRec .hub true else n
  let coolHub : Option Nat := if hub < 97 then (match p.coolHubAt with | none => some n.now | some t => some t) else none
  let release : Bool := coolHub.any fun t => decide (t + ms10 ≤ n.now)
  let held : Bool := decide (105 ≤ hub) || (p.hubHot && !release)
  n.modPower fun p =>
    { p with opStack := os, stackStepAt := sa, coolStackAt := sc, opDie := if held then 3 else od, dieStepAt := da, coolDieAt := dc,
             coolHubAt := coolHub, hubHot := held, hubTemp := hub,
             opThermal := if held then 3 else max os od }

end Sys2Proof.Machine
end

