-- ==== Sys2Proof/Machine/Nme.lean ====
section
/-!
DEFINITION. The near-memory engines: the checks of an NME command (R222), the queue (R221), the operations (R223) and their
faults (R224). Scrubs run as operations of the same engines (R225).
-/

namespace Sys2Proof.Machine

/-! ## The command's fields and checks (R222) -/

/-- An operation as its descriptor gives it. -/
def decNme (bs : Bytes) (p : Nat) (ref : Option CmdRef) : NmeOp :=
  let x := cmdQ bs 0x20
  { (default : NmeOp) with
    cmd := ref, partition := p, op := cmdOp bs - 0x40, addrA := cmdBits bs 0x10 0 41, addrB := cmdBits bs 0x18 0 41,
    len := bits x 0 40, dir := bits x 40 2, rop := bits x 42 2, ifmt := bits x 44 1, ofmt := bits x 45 1,
    word := cmdQ bs 0x28, remote := cmdD bs 0x30, aux := cmdQ bs 0x38 }

/-- Bytes of an element. -/
def nmeSize (fmt : Nat) : Nat := if fmt = 0 then 4 else 2

/-- The HBM ranges an operation writes. -/
def NmeOp.dests (o : NmeOp) : List (Nat × Nat) :=
  match o.op with
  | 0 => [(o.addrA, o.len)]
  | 1 => if o.dir = 1 then [] else [(o.addrA, o.len)]
  | 2 => []
  | _ => [(o.addrA, o.len / nmeSize o.ifmt * nmeSize o.ofmt)]

/-- The HBM ranges an operation reads. -/
def NmeOp.sources (o : NmeOp) : List (Nat × Nat) :=
  match o.op with
  | 0 => []
  | 1 => if o.dir = 2 then [] else [(o.addrB, o.len)]
  | 2 => [(o.addrA, o.len), (o.addrB, o.len)]
  | _ => (upTo (o.word % 2 ^ 17)).map fun v => (o.addrB + v * o.aux, o.len)

/-- An address that is not a multiple of 64, a length out of its range, or a range outside the quads the post box may name:
BAD_LENGTH, at fetch like the other checks of R10. -/
def Node.nmeLong (n : Node) (o : NmeOp) : Bool :=
  let ranges := o.dests ++ o.sources
  o.len % 64 != 0 || o.len == 0 || decide (51531218944 < o.len) || (ranges.any fun r => r.1 % 64 != 0) ||
    (o.op == 3 && o.aux % 64 != 0) || !(ranges.all fun r => n.inQuads o.partition r.1 r.2)

/-- The first granule class that bars an operation (R222). -/
def Node.nmeTouches (n : Node) (o : NmeOp) : Option GClass :=
  (o.dests ++ o.sources).findSome? fun r =>
    n.firstClass r.1 r.2 fun c => c == .frame || c == .system || c == .retired || c == .retirePending

/-- The quad whose engine runs an operation: the one it writes, else the one it reads first. -/
def NmeOp.home (o : NmeOp) : Nat := addrQuad (((o.dests ++ o.sources).headD (0, 0)).1)

/-! ## The queue (R221) -/

def Node.nmeActive (n : Node) (q : Nat) : Nat := (n.nme.ops.filter fun o => o.2.quad == q && o.2.active).length
def Node.nmeQueued (n : Node) (q : Nat) : Nat := (n.nme.ops.filter fun o => o.2.quad == q && !o.2.active).length
def Node.nmeOp (n : Node) (id : Nat) : NmeOp := mapGet n.nme.ops id
def Node.modNme (n : Node) (f : NmeSt → NmeSt) : Node := { n with nme := f n.nme }
def Node.modNmeOp (n : Node) (id : Nat) (f : NmeOp → NmeOp) : Node := n.modNme fun m => { m with ops := mapMod m.ops id f }

/-! ## Slots (R221, R225) -/

/-- Granules a range touches. -/
def rangeGrans (r : Nat × Nat) : Nat := if r.2 = 0 then 0 else (r.1 + r.2 - 1) / 4096 + 1 - r.1 / 4096

/-- Slots a command's operation takes: one for each granule read or written in the quad whose engine runs it (log entry 95). -/
def NmeOp.slots (o : NmeOp) : Nat :=
  listSum (((o.dests ++ o.sources).filter fun r => addrQuad r.1 == o.quad).map rangeGrans)

/-- Slots near-memory operations of a quad may use in the current tick: the engine's own limit within what admission and the
migration engine leave, or the rate of the core write path. -/
def Node.nmeLimit (n : Node) (o : NmeOp) : Nat :=
  let x := n.quad o.quad
  if o.byCores then n.time.period * 600 / 4096
  else min (n.time.period * 1100 / 4096) (n.fetchGranules - x.fetched - x.migSlots)

/-- Slots an operation could still use in the current tick; before ticks are generated nothing else uses them. -/
def Node.nmeRoom (n : Node) (o : NmeOp) : Nat :=
  if n.ticking then min (o.need - o.done) (n.nmeLimit o - (n.quad o.quad).nmeSlots) else o.need - o.done

/-- An operation uses slots. -/
def Node.nmeUse (n : Node) (id g : Nat) : Node :=
  (n.modQuad (n.nmeOp id).quad fun x => { x with nmeSlots := x.nmeSlots + g }).modNmeOp id fun o => { o with done := o.done + g }

/-- A tick ends: running operations have used the slots left to them, in the order the engine took them, patrol reads the slots
left after that, and the quads' shares start again. -/
def Node.slotTick (n : Node) : Node :=
  let n := forEach ((n.nme.ops.filter fun o => o.2.active).map Prod.fst) n fun n id => n.nmeUse id (n.nmeRoom (n.nmeOp id))
  let spare := n.fetchGranules
  forEach n.quadList n fun n q => n.modQuad q fun x =>
    { x with fetched := 0, migSlots := 0, nmeSlots := 0, nmeLast := x.nmeSlots,
             patrolLeft := x.patrolLeft - (spare - x.fetched - x.migSlots - x.nmeSlots) }

/-- May an operation be over: do the slots it still needs stand in the current tick? -/
def Node.nmeReached (n : Node) (o : NmeOp) : Bool := decide (o.need ≤ o.done + n.nmeRoom o)

/-- Bytes of a range that the first `g` of an operation's slots complete. -/
def NmeOp.bytesAfter (o : NmeOp) (g : Nat) : Nat :=
  let r := ((o.dests ++ o.sources).headD (0, 0))
  let k := g * rangeGrans r / max 1 o.need
  if k = 0 then 0 else min r.2 ((r.1 / 4096 + k) * 4096 - r.1)

/-- How many bytes of a range stand before its first poisoned 64 B line. -/
def Node.soundBytes (n : Node) (a len : Nat) : Nat :=
  match (n.poison.filter fun b => decide (a / 64 * 2 ≤ b) && decide (b * 32 < a + len)).head? with
  | none => len
  | some b => b / 2 * 64 - a

/-- An operation begins: lines the host holds are snooped; a remote copy posts its courier operation, cut short at a poisoned
source line (R224, R320). -/
def Node.nmeBegin (n : Node) (id : Nat) : Node :=
  let o := n.nmeOp id
  let n := forEach o.sources n fun n r => (n.snoopRange r.1 r.2 false).wakeStack (addrQuad r.1)
  let n := forEach o.dests n fun n r => (n.snoopRange r.1 r.2 true).wakeStack (addrQuad r.1)
  let sound := if o.op = 1 ∧ o.dir = 1 then n.soundBytes o.addrB o.len else o.len
  let n := n.modNme fun m =>
    { m with ops := mapMod m.ops id fun o => { o with active := true, len := sound, fail := if sound < o.len then stPoisoned else 0 } }
  if o.op = 1 ∧ o.dir = 1 ∧ 0 < sound then
    n.userPost 3 o.remote o.partition (mkOp (.nme o.quad id) .write sound o.addrB [] o.word o.aux 0 0 false false)
  else if o.op = 1 ∧ o.dir = 2 then
    n.userPost 3 o.remote o.partition (mkOp (.nme o.quad id) .read o.len o.addrA [] o.word o.aux 0 0 false false)
  else n

/-- Enter an operation: it begins at once with fewer than 4 running and none waiting. -/
def Node.nmeAdd (n : Node) (o : NmeOp) : Nat × Node :=
  let id := n.nme.nextId + 1
  let run : Bool := decide (n.nmeActive o.quad < 4) && n.nmeQueued o.quad == 0
  let n := n.modNme fun m => { m with nextId := id, ops := mapSet m.ops id { o with active := false, done := 0 } }
  (id, if run then n.nmeBegin id else n)

/-- The engine takes a queued operation when one of its four places is free: a scrub of an extent before the commands, then
in order (R221, R336). -/
def Node.nmeStart (n : Node) (q : Nat) : Node :=
  if 4 ≤ n.nmeActive q then n
  else
    let ws := n.nme.ops.filter fun o => o.2.quad == q && !o.2.active
    match (ws.find? fun o => o.2.scrub == 3).orElse fun _ => ws.head? with
    | none => n
    | some o => n.nmeBegin o.1

/-- NME_FILL, NME_COPY, NME_COMPARE, NME_REDUCE as they start: a failing status, or none when the operation runs. -/
def Node.nmePost (n : Node) (p : Nat) (ref : CmdRef) (bs : Bytes) : Option (Nat × Nat × Nat) × Node :=
  let o := decNme bs p (some ref)
  match n.nmeTouches o with
  | some c => (some (stBadState, c.code, 0), n)
  | none =>
    let o := { o with quad := o.home }
    let o := { o with need := o.slots }
    if 4 ≤ n.nmeActive o.quad ∧ 64 ≤ n.nmeQueued o.quad then (some (stRefused, 0, 0), n)
    else (none, (n.nmeAdd o).2)

/-! ## The operations (R223) -/

/-- A 64-bit pattern repeated over `len` bytes. -/
def patBytes (w len : Nat) : Bytes := ((List.replicate (len / 8) (leBytes 8 w)).flatten)

/-- An input element as FP32: BF16 is widened exactly. -/
def nmeIn (fmt : Nat) (v : Nat) : F32 := BitVec.ofNat 32 (if fmt = 0 then v else v * 65536)

/-- A subnormal result becomes +0; a zero keeps its sign. -/
def flushF32 (c : F32) : F32 := if bits c.toNat 23 8 = 0 ∧ bits c.toNat 0 23 ≠ 0 then f32Zero else c

/-- Combine two values: SUM, MAX or MIN; a NaN gives the canonical NaN, and a subnormal result is flushed. -/
def nmeCombine (rop : Nat) (a b : F32) : F32 :=
  if isNaN a || isNaN b then f32NaN
  else match rop with
    | 0 => flushF32 (fadd a b)
    | 1 => flushF32 (if fkey a < fkey b then b else a)
    | _ => flushF32 (if fkey b < fkey a then b else a)

/-- An output element: FP32, or rounded to BF16 (R145). -/
def nmeOut (fmt : Nat) (c : F32) : Bytes :=
  if fmt = 0 then leBytes 4 c.toNat else leBytes 2 (convElem .bf16 (decF32 c))

/-- Reduce element `i` of the vectors in ascending order. -/
def Node.nmeElem (n : Node) (o : NmeOp) (i : Nat) : F32 :=
  let z := nmeSize o.ifmt
  let x (v : Nat) : F32 := nmeIn o.ifmt (n.hbmNat (o.addrB + v * o.aux + i * z) z)
  let first := if isNaN (x 0) then f32NaN else x 0
  flushF32 ((span 1 (o.word % 2 ^ 17 - 1)).foldl (fun r v => nmeCombine o.rop r (x v)) first)

/-- Poison the 64 B lines a range touches. -/
def Node.poisonLines (n : Node) (a len : Nat) : Node :=
  if len = 0 then n else n.poisonRange (a / 64 * 64) ((a + len - 1) / 64 * 64 + 64 - a / 64 * 64)

/-- The lowest offset at which two byte strings differ. -/
def firstDiff : Nat → Bytes → Bytes → Option Nat
  | i, x :: xs, y :: ys => if x = y then firstDiff (i + 1) xs ys else some i
  | _, _, _ => none

/-- Run an operation that stays in the node: STATUS, RESULT and what it writes. -/
def Node.nmeRun (n : Node) (o : NmeOp) : Nat × Nat × Node :=
  match o.op with
  | 0 =>
    let n := if o.word = 0 then n.hbmZero o.addrA o.len else n.hbmStore o.addrA (patBytes o.word o.len)
    (stDone, o.len, n)
  | 1 =>
    if o.dir ≠ 0 then (o.fail, o.len, n)
    else
      let sound := n.soundBytes o.addrB o.len
      let bad := (upTo (o.len / 64)).filter fun i => n.poisoned (o.addrB + i * 64) 64
      let n := n.hbmStore o.addrA (n.hbmRead o.addrB o.len)
      let n := forEach bad n fun n i => n.poisonLines (o.addrA + i * 64) 64
      (if bad = [] then stDone else stPoisoned, sound, n)
  | 2 =>
    let sound := min (n.soundBytes o.addrA o.len) (n.soundBytes o.addrB o.len)
    match firstDiff 0 (n.hbmRead o.addrA sound) (n.hbmRead o.addrB sound) with
    | some d => (stDone, d, n)
    | none => if sound < o.len then (stPoisoned, sound, n) else (stDone, 2 ^ 64 - 1, n)
  | _ =>
    let z := nmeSize o.ifmt
    let w := nmeSize o.ofmt
    let count := o.len / z
    let out := ((upTo count).map fun i => nmeOut o.ofmt (n.nmeElem o i)).flatten
    let bad := (upTo count).filter fun i => (upTo (o.word % 2 ^ 17)).any fun v => n.poisoned (o.addrB + v * o.aux + i * z) z
    let n := n.hbmStore o.addrA out
    let n := forEach bad n fun n i => n.poisonLines (o.addrA + i * w) w
    match bad with
    | [] => (stDone, count * w, n)
    | i :: _ => (stPoisoned, (o.addrA + i * w) / 64 * 64 - o.addrA, n)

/-! ## Ends (R224) -/

/-- Finish an operation of a command: counters, error bits, completion; its entry goes. -/
def Node.nmeEnd (n : Node) (id status result written : Nat) : Node :=
  let o := n.nmeOp id
  let base := quadBase o.quad
  let n := n.modNme fun m => { m with ops := mapErase m.ops id }
  let n := n.inc (if status = stDone then R.NME_OP_CNT_DONE else R.NME_OP_CNT_FAILED) base 1
  let n := n.inc R.NME_BYTE_CNT_BYTES base written
  let n := if status = stPoisoned then n.nmeErr o.quad 0 o.partition status
    else if status = stAborted then n.nmeErr o.quad 2 o.partition status
    else if status ≠ stDone then n.nmeErr o.quad 1 o.partition status
    else n
  n.completeOpt o.cmd status 0 result

/-- Does an operation wait for lines the host holds? -/
def Node.nmeWaits (n : Node) (o : NmeOp) : Bool := (o.dests ++ o.sources).any fun r => n.hostHolds r.1 r.2

/-- A command's operation ends by itself once the engine has had its slots: run over HBM, or a remote copy whose source was
poisoned from its first byte. -/
def Node.nmeComplete (n : Node) (id : Nat) : Node :=
  let o := n.nmeOp id
  if !o.active || n.nmeWaits o || !n.nmeReached o then n
  else if o.op = 1 ∧ o.dir ≠ 0 then
    if o.fail ≠ 0 ∧ o.len = 0 then n.nmeEnd id o.fail 0 0 else n
  else
    let (st, res, n) := (n.nmeUse id (n.nmeRoom o)).nmeRun o
    n.nmeEnd id st res (o.dests.foldl (fun a r => a + r.2) 0)

/-- The courier operation of a remote copy has completed. -/
def Node.nmeOpDone (n : Node) (id status result : Nat) : Node :=
  match mapFind? n.nme.ops id with
  | none => n
  | some o =>
    let st := if status ≠ 0 then status else o.fail
    n.nmeEnd id st result (if o.dir = 2 then result else 0)

/-- The part of an operation that its first `got` bytes make up; a comparison writes nothing. -/
def NmeOp.cut (o : NmeOp) (got : Nat) : NmeOp :=
  { o with len := if o.op = 3 then got / nmeSize o.ofmt * nmeSize o.ifmt else got }

/-- Operations of commands that a test names stop with ABORTED. What the earlier ticks completed stands written; how far the
engine came in the current tick is not stated (log entry 95). -/
def Node.nmeAbort (n : Node) (t : NmeOp → Bool) : Node :=
  forEach ((n.nme.ops.filter fun o => o.2.scrub == 0 && t o.2).map Prod.fst) n fun n id =>
    let o := n.nmeOp id
    if !o.active then n.nmeEnd id stAborted 0 0
    else
      let (v, n) := n.fresh
      let got := o.bytesAfter (o.done + v % (n.nmeRoom o + 1))
      let part := o.cut got
      let n := if o.op = 2 then n else (n.nmeRun part).2.2
      n.nmeEnd id stAborted got (listSum (part.dests.map (·.2)))

end Sys2Proof.Machine
end

