-- ==== Sys2Proof/Machine/Gazetteer.lean ====
section
/-!
DEFINITION. The Gazetteer's rule section (R236 to R239), its errors (R243) and what a chart or overlay loads into a slice (R238,
R240).
-/

namespace Sys2Proof.Machine

/-- HOLE_STRIDE and DEFAULT_ACTION of the chart (R237, R238). -/
def Node.holeStride (n : Node) : Nat := max 1 (n.cw 14 5 0xFFFF 0 16)
def Node.defaultAction (n : Node) : Nat := n.cw 14 5 0xFFFF 1 0

/-! ## Lookups (R236, R237) -/

/-- The classification word. -/
def classWord (src typ cls port : Nat) (keyed : Bool) (part : Nat) : Nat :=
  src % 2 ^ 32 + typ % 256 * 2 ^ 32 + cls % 4 * 2 ^ 40 + port % 2 * 2 ^ 42 + b2n keyed * 2 ^ 43 + part % 32 * 2 ^ 44

/-- Does a rule match a word? -/
def Rule.matches (r : Rule) (w : Nat) : Bool := (w &&& r.mask) == (r.value &&& r.mask)

/-- The winner among the matching rules: highest PRIORITY, then lowest index. -/
def ruleBest (w : Nat) (rules : Map Rule) : Option Rule :=
  rules.foldl (fun best e =>
    if e.2.matches w then
      match best with
      | none => some e.2
      | some b => if b.priority < e.2.priority then some e.2 else best
    else best) none

/-- Classify a frame on a sheet: the action (0 ACCEPT, 1 DISCARD, 2 REFUSE), with the counters. -/
def Node.ruleLookup (n : Node) (sheet w : Nat) : Nat × Node :=
  let n := (n.gzLookup sheet).inc R.GZ_RULE_CNT_LOOKUPS (sheetBase sheet) 1
  match ruleBest w (n.gzSlice sheet).rules with
  | none => (n.defaultAction, n.inc R.GZ_RULE_CNT_DEFAULT_HITS (sheetBase sheet) 1)
  | some r => (r.action, n.inc R.GZ_RULE_HIT_COUNT (sheetBase sheet + 8 * r.counter) 1)

/-! ## Insertion, removal, respread (R238, R239) -/

/-- A bad rule (R237). -/
def Rule.bad (r : Rule) : Bool :=
  (r.value &&& r.mask) != r.value || bits r.value 49 15 != 0 || bits r.mask 49 15 != 0 || r.action == 3

/-- Rules in their order, laid out with the last index of every stride left free. -/
def layRules (stride : Nat) (rs : List Rule) : Map Rule :=
  let usable := max 1 (stride - 1)
  rs.zipIdx.map fun r => (if stride ≤ 1 then r.2 else r.2 / usable * stride + r.2 % usable, r.1)

/-- Rules in descending PRIORITY, equal ones in their order. -/
def sortRules (rs : List Rule) : List Rule := sortOn (fun r => 255 - r.priority) rs

/-- Does every stride hold a free index? -/
def strideFree (stride : Nat) (m : Map Rule) : Bool :=
  (upTo (16384 / stride)).all fun j => decide ((m.filter fun e => e.1 / stride == j).length < stride)

/-- The lowest free index from `i` up. -/
def freeUp (m : Map Rule) : Nat → Nat → Option Nat
  | _, 0 => none
  | i, fuel + 1 => if 16384 ≤ i then none else if (mapFind? m i).isNone then some i else freeUp m (i + 1) fuel

/-- The highest free index from `i` down. -/
def freeDown (m : Map Rule) : Nat → Option Nat
  | 0 => if (mapFind? m 0).isNone then some 0 else none
  | i + 1 => if (mapFind? m (i + 1)).isNone then some (i + 1) else freeDown m i

/-- Insert a rule after every present rule of equal or higher priority, moving the rules between its place and the nearest free
index: the index written and the moves made. -/
def insertRule (m : Map Rule) (r : Rule) : Option (Map Rule × Nat × Nat) :=
  let higher := (m.filter fun e => decide (r.priority ≤ e.2.priority)).map Prod.fst
  let place := match higher.getLast? with | none => 0 | some a => a + 1
  let up := freeUp m place 16384
  let down := if place = 0 then none else freeDown m (place - 1)
  let goUp (f : Nat) : Map Rule × Nat × Nat :=
    let m' := m.map fun e => if place ≤ e.1 ∧ e.1 < f then (e.1 + 1, e.2) else e
    (mapInsert m' place r, place, f - place)
  let goDown (f : Nat) : Map Rule × Nat × Nat :=
    let m' := m.map fun e => if f < e.1 ∧ e.1 < place then (e.1 - 1, e.2) else e
    (mapInsert m' (place - 1) r, place - 1, place - 1 - f)
  match up, down with
  | none, none => none
  | some f, none => some (goUp f)
  | none, some f => some (goDown f)
  | some f, some g => if f - place ≤ place - 1 - g then some (goUp f) else some (goDown g)

/-- The rule the command registers of a slice name. -/
def Node.cmdRule (n : Node) (sheet : Nat) : Rule :=
  let b := sheetBase sheet
  ⟨n.rd R.GZ_RULE_VALUE_VALUE b, n.rd R.GZ_RULE_MASK_MASK b, n.rd R.GZ_RULE_CMD_PRIORITY b, n.rd R.GZ_RULE_CMD_ACTION b,
    n.rd R.GZ_RULE_CMD_COUNTER b⟩

/-- Report the end of an operation in GZ_RULE_STATUS. -/
def Node.ruleResult (n : Node) (sheet result : Nat) (index moves : Option Nat) : Node :=
  n.modSlice sheet fun s => { s with result := result, resIdx := index.getD s.resIdx, resMoves := moves.getD s.resMoves }

/-- INSERT: results 0 DONE, 1 FULL, 3 BAD_FORMAT. -/
def Node.ruleInsert (n : Node) (sheet : Nat) : Node :=
  let r := n.cmdRule sheet
  let m := (n.gzSlice sheet).rules
  if r.bad then n.ruleResult sheet 3 none none
  else if 16384 - 16384 / n.holeStride ≤ m.length then n.ruleResult sheet 1 none none
  else match insertRule m r with
    | none => n.ruleResult sheet 1 none none
    | some (m', i, k) =>
      let (e, n) := (n.modSlice sheet fun s => { s with rules := m' }).gzChain sheet (k + 1)
      (n.modSlice sheet fun s => { s with ruleEnd := e }).ruleResult sheet 0 (some i) (some k)

/-- REMOVE: results 0 DONE, 2 NOT_FOUND. -/
def Node.ruleRemove (n : Node) (sheet : Nat) : Node :=
  let r := n.cmdRule sheet
  match (n.gzSlice sheet).rules.find? fun e => e.2.value == r.value && e.2.mask == r.mask && e.2.priority == r.priority with
  | none => n.ruleResult sheet 2 none none
  | some e =>
    let (t, n) := (n.modSlice sheet fun s => { s with rules := mapErase s.rules e.1 }).gzChain sheet 1
    (n.modSlice sheet fun s => { s with ruleEnd := t }).ruleResult sheet 0 (some e.1) none

/-- Is a rule operation running (R239)? -/
def Node.ruleBusy (n : Node) (sheet : Nat) : Bool := decide (n.now6 < (n.gzSlice sheet).ruleEnd)

/-- A write of GZ_RULE_CMD.GO with an OP: ignored while an operation runs. -/
def Node.ruleGo (n : Node) (sheet op : Nat) : Node :=
  if n.ruleBusy sheet then n
  else match op with
    | 1 => n.ruleInsert sheet
    | 2 => n.ruleRemove sheet
    | _ => n.ruleResult sheet 3 none none

/-- The entry after another in a list. -/
def nextIn : List Nat → Nat → Nat
  | p :: q :: rest, x => if x = p then q else nextIn (q :: rest) x
  | _, x => x

/-- Free the last index of a full stride (R238): rules move one place on, past the free indexes of the strides between, into
the nearest stride with two free indexes; fewer moves win, and a tie goes up (log entry 96). The rules and the moves made. -/
def freeStride (stride : Nat) (m : Map Rule) (j : Nat) : Map Rule × Nat :=
  let last := j * stride + stride - 1
  let free (i : Nat) : List Nat := (span (i * stride) stride).filter fun x => (mapFind? m x).isNone
  let room (i : Nat) : Bool := decide (2 ≤ (free i).length)
  let up := ((span (j + 1) (16384 / stride - (j + 1))).find? room).bind fun i => (free i).head?
  let down := ((upTo j).reverse.find? room).bind fun i => (free i).getLast?
  let pathUp (f : Nat) : List Nat := ((mapKeys m).filter fun x => decide (last ≤ x) && decide (x < f)) ++ [f]
  let pathDown (f : Nat) : List Nat := (f :: (mapKeys m).filter fun x => decide (f < x) && decide (x ≤ last)).reverse
  let path := match up.map pathUp, down.map pathDown with
    | none, none => []
    | some p, none => p
    | none, some q => q
    | some p, some q => if q.length < p.length then q else p
  (m.map fun e => (nextIn path e.1, e.2), path.length - 1)

/-- Move rules, one update at a time, until every stride again holds a free index (R238): whenever no update runs, or at once
for RESPREAD_NOW. -/
def Node.respread (n : Node) (sheet : Nat) (force : Bool) : Node :=
  let m := (n.gzSlice sheet).rules
  if strideFree n.holeStride m ∨ (!force && decide (0 < n.updating sheet)) then n
  else
    let full := (upTo (16384 / n.holeStride)).filter fun j =>
      decide (n.holeStride ≤ (m.filter fun e => e.1 / n.holeStride == j).length)
    let (m', k) := full.foldl (fun acc j => let r := freeStride n.holeStride acc.1 j; (r.1, acc.2 + r.2)) (m, 0)
    ((n.modSlice sheet fun s => { s with rules := m' }).gzChain sheet k).2

/-! ## What a composition loads (R237, R240) -/

/-- The rule of a chart record. -/
def ruleOf (r : ChartRec) : Rule := ⟨r.words.getD 0 0, r.words.getD 1 0, r.words.getD 2 0, r.words.getD 3 0, r.words.getD 4 0⟩

/-- The rules of a composition in the order of the section: by index within equal priority. -/
def compRules (comp : List ChartSec) : List Rule := sortRules ((sortOn (·.index) (compRecs comp 15 1)).map ruleOf)

/-- A route entry of a chart record: VALUE, PREFIX_LEN, KIND, ports. -/
def routeOf (r : ChartRec) : Nat × Nat × Nat × List Nat :=
  let w := r.words.getD 0 0
  let count := bits w 40 3
  (bits w 0 32, bits w 32 6, bits w 38 2, (upTo count).map fun k => bits (r.words.getD 1 0) (4 * k) 4)

/-- The routes of a composition in index order. -/
def compRoutes (comp : List ChartSec) : List (Nat × Nat × Nat × List Nat) := (sortOn (·.index) (compRecs comp 7 2)).map routeOf

/-- Load the rule set into every slice. -/
def Node.loadRules (n : Node) : Node :=
  let m := layRules n.holeStride (compRules n.chart.comp)
  forEach n.sheetList n fun n s => n.modSlice s fun x => { x with rules := m }

/-- Load the routes into every slice (R242). -/
def Node.loadRoutes (n : Node) : Node :=
  let rs := compRoutes n.chart.comp
  forEach n.sheetList n fun n s => n.modSlice s fun x => { x with routes := rs }

/-! ## Errors (R243) -/

/-- An error in an entry: structure 0 content, 1 rule, 2 route. -/
def Node.gzEntryError (n : Node) (sheet part index : Nat) (uncorrected : Bool) : Node :=
  match part with
  | 0 =>
    let n := n.modSlice sheet fun s => { s with content := mapErase s.content index }
    (n.gzErr sheet 0 index).fault (.sheet sheet) 3 0x07 0 none
  | 1 => if uncorrected then (n.gzErr sheet 2 index).fault (.sheet sheet) 3 0x07 2 none else (n.gzErr sheet 1 index).countSev 1
  | _ => if uncorrected then (n.gzErr sheet 4 index).fault (.sheet sheet) 3 0x07 4 none else (n.gzErr sheet 3 index).countSev 1

/-- The counters GZ_CTL.CLEAR_CNT clears. -/
def gzCounters : List Fld :=
  [R.GZ_CONTENT_CNT_LOOKUPS, R.GZ_CONTENT_CNT_HITS, R.GZ_CONTENT_UPD_INSERTS, R.GZ_CONTENT_UPD_REMOVES,
   R.GZ_CONTENT_UPD_NO_ROOM, R.GZ_RULE_CNT_LOOKUPS, R.GZ_RULE_CNT_DEFAULT_HITS, R.GZ_ROUTE_CNT_LOOKUPS,
   R.GZ_ROUTE_CNT_MISSES, R.GZ_STEAL_CNT_STOLEN, R.GZ_STEAL_CNT_DELAYED, R.GZ_STEAL_CNT_DELAY_MAX]

/-- Clear every GZ_ counter of a sheet. -/
def Node.clearGz (n : Node) (sheet : Nat) : Node :=
  forEach (upTo 256) (n.clr gzCounters (sheetBase sheet)) fun n k => n.clr [R.GZ_RULE_HIT_COUNT] (sheetBase sheet + 8 * k)

end Sys2Proof.Machine
end

