-- ==== Sys2Proof/Machine/Signed.lean ====
section
/-!
DEFINITION. Signed objects (R369, R370): the two signature blocks, the class of key each security state requires, and whether
an object verifies.
-/

namespace Sys2Proof.Machine

def ecdsaLen : Nat := 200
def lmsLen : Nat := 1840

/-- Where the LMS block starts after an ECDSA block at an offset: the next multiple of 8 B. -/
def lmsOff (sig : Nat) : Nat := (sig + ecdsaLen + 7) / 8 * 8

/-- What kind of object is verified (table Signing keys). -/
inductive SignedKind where
  | firmware | chart | token | own | ret | reprovision
  deriving DecidableEq, Repr

/-- The key class a state requires: 1 vendor, 2 owner, none where the state refuses the object. -/
def keyClass : SecState → SignedKind → Option Nat
  | _, .firmware => some 1
  | .blank, .chart => some 1
  | .blank, .token => some 1
  | .blank, .own => some 1
  | .owned, .chart => some 2
  | .owned, .token => some 2
  | .owned, .ret => some 2
  | .returned, .chart => some 1
  | .returned, .token => some 1
  | .returned, .reprovision => some 1
  | _, _ => none

/-- The stored SHA-384 hashes of a class, ECDSA key then LMS key. -/
def SecSt.keyHashes (s : SecSt) (cls : Nat) : Option (Nat × Nat) :=
  if cls = 1 then some (Config.vendorEcdsa, Config.vendorLms)
  else if s.ownerAbsent then none
  else some (s.ownerEcdsa, s.ownerLms)

/-- Does the ECDSA block at an offset verify over a message? -/
def ecdsaOk (bs : Bytes) (sig cls hash : Nat) (msg : Bytes) : Bool :=
  let blk := (bs.drop sig).take ecdsaLen
  let pub := (blk.drop 8).take 96
  blk.length == ecdsaLen && leAt blk 0 2 == ecdsaLen && leAt blk 2 1 == 1 && leAt blk 3 1 == cls && leAt blk 4 4 == 0 &&
    leNat (sha384 pub) == hash && Config.ecdsaVerify pub ((blk.drop 0x68).take 96) msg

/-- Does the LMS block after an ECDSA block verify over a message? -/
def lmsOk (bs : Bytes) (sig cls hash : Nat) (msg : Bytes) : Bool :=
  let blk := (bs.drop (lmsOff sig)).take lmsLen
  let pub := (blk.drop 8).take 56
  blk.length == lmsLen && leAt blk 0 2 == lmsLen && leAt blk 2 1 == 2 && leAt blk 3 1 == cls && leAt blk 4 4 == 0 &&
    leAt blk 0x72C 4 == 0 && leNat (sha384 pub) == hash && Config.lmsVerify pub ((blk.drop 0x40).take 1772) msg

/-- Does an object whose signed bytes end at `sig` verify under a class? -/
def SecSt.verifies (s : SecSt) (cls : Nat) (bs : Bytes) (sig : Nat) : Bool :=
  match s.keyHashes cls with
  | none => false
  | some (e, l) => ecdsaOk bs sig cls e (bs.take sig) && lmsOk bs sig cls l (bs.take sig)

/-- Does an object verify in a security state? -/
def SecSt.accepts (s : SecSt) (k : SignedKind) (bs : Bytes) (sig : Nat) : Bool :=
  match keyClass s.st k with
  | none => false
  | some cls => s.verifies cls bs sig

end Sys2Proof.Machine
end

