-- ==== Sys2Proof/Machine/ChartImage.lean ====
section
/-!
DEFINITION. Chart and overlay images: their layout (R340, R341), the records and their ranges (R342), and the checks of R343
in their order, each naming what CHART_REJECT captures.
-/

namespace Sys2Proof.Machine

/-! ## What a record may hold (R342) -/

/-- One field of a record: a number in a range, a mask of defined bits, a signed number, anything. -/
inductive FSpec where
  | num (lo hi : Nat)
  | mask (m : Nat)
  | sgn (lo hi : Int)
  | any
  deriving DecidableEq, Repr

/-- What an INDEX names, and below which figure it lies. -/
inductive IdxSpec where
  | all | below (n : Nat) | quad | sheet | port | sheetPart | portEntry
  deriving DecidableEq, Repr

/-- A record type: what its INDEX names, its fields, whether an overlay may hold it. -/
structure RecSpec where
  idx    : IdxSpec
  fields : List FSpec
  ovl    : Bool
  deriving DecidableEq, Repr

/-- Page format codes as bits (R143). -/
def formatMask : Nat := 0xFE + 0xF8 * 2 ^ 16 + 3 * 2 ^ 33

/-- The records of sections 0x01 to 0x06. -/
def recSpecLow (typ rtype : Nat) : Option RecSpec :=
  match typ, rtype with
  | 1, 1 => some ⟨.below 32, [.mask (2 ^ 32 - 1), .num 1 255], false⟩
  | 2, 1 => some ⟨.quad, [.mask 7], true⟩
  | 3, 1 => some ⟨.below 32, [.mask 0x3F], true⟩
  | 3, 2 => some ⟨.below 64, [.any, .any, .any], true⟩
  | 4, 1 => some ⟨.below 32, [.mask formatMask], true⟩
  | 4, 2 => some ⟨.below 32, [.mask (0x3F + 0x700 + 0x30000 + 0x1000000)], true⟩
  | 5, 1 => some ⟨.sheetPart, [.num 0 4096, .num 0 32768, .num 0 3584, .num 0 8192], true⟩
  | 5, 2 => some ⟨.sheet, [.num 0 8192], true⟩
  | 5, 3 => some ⟨.all, [.num 16 4096, .num 1 25, .num 4 20], true⟩
  | 5, 4 => some ⟨.below 32, [.num 0 0xEFFFF, .num 0 0xF0000], true⟩
  | 5, 5 => some ⟨.sheetPart, [.num 0 2048, .num 0 4095], true⟩
  | 6, 1 => some ⟨.all, [.num 250 1000000], true⟩
  | 6, 2 => some ⟨.all, [.any], false⟩
  | 6, 3 => some ⟨.all, [.num 0 10000], false⟩
  | 6, 4 => some ⟨.all, [.num 10000 1000000], false⟩
  | 6, 5 => some ⟨.all, [.num 0 3, .num 0 3, .num 0 10000], false⟩
  | 6, 6 => some ⟨.all, [.num 0 15, .num 0 15, .num 0 15, .num 0 15, .num 0 3], false⟩
  | 6, 7 => some ⟨.all, [.num 125000 10000000], false⟩
  | 6, 8 => some ⟨.port, [.sgn (-1000) 1000], false⟩
  | 6, 9 => some ⟨.all, [.num 8 1000], false⟩
  | 6, 10 => some ⟨.port, [.num 0 127, .num 0 1, .sgn (-7) 0], false⟩
  | _, _ => none

/-- The records of sections 0x07 to 0x0B. -/
def recSpecMid (typ rtype : Nat) : Option RecSpec :=
  match typ, rtype with
  | 7, 1 => some ⟨.all, [.num 0 0xFFFFFFFF, .num 0 32, .num 0 32, .num 0 32], true⟩
  | 7, 2 => some ⟨.below 4096, [.any, .any], true⟩
  | 7, 3 => some ⟨.below 65536, [.num 0 0xFFFFFFFF, .any, .any, .any, .any], true⟩
  | 7, 4 => some ⟨.all, [.num 1 256], true⟩
  | 7, 5 => some ⟨.below 1024, [.num 0 0xFFFFFFFF, .num 0 0xFFFFFFFF], true⟩
  | 8, 1 => some ⟨.below 256, .num 1 1024 :: List.replicate 512 .any, true⟩
  | 9, 1 => some ⟨.below 32, [.any, .any, .any, .any], true⟩
  | 9, 2 => some ⟨.below 32, [.any], true⟩
  | 9, 3 => some ⟨.quad, [.num 0 reservedGran], true⟩
  | 9, 4 => some ⟨.sheetPart, [.num 0 65535, .num 0 65536], true⟩
  | 9, 5 => some ⟨.below 128, [.num 0 0xFFFFFFFF, .num 0 31, .num 0 0xFFFFFFFF, .any, .any, .num 0 3], true⟩
  | 10, 1 => some ⟨.port, [.num 0 2, .num 0 1, .num 0 8, .num 0 3, .num 1 100, .num 1 1000], false⟩
  | 10, 2 => some ⟨.port, [.num 256 16384, .num 0 16384, .num 0 16384, .num 0 16384, .num 1 10, .num 0 100, .num 0 100, .any, .any, .any,
      .num 0 63, .num 0 63, .num 0 63, .num 0 63], false⟩
  | 10, 3 => some ⟨.port, [.mask (2 ^ 48 - 1), .mask (2 ^ 48 - 1), .any, .any, .num 1 65535], false⟩
  | 10, 4 => some ⟨.portEntry, [.num 0 0xFFFFFFFF, .num 0 32, .any, .any], false⟩
  | 10, 5 => some ⟨.port, [.num 0 0xFFFFFFFF, .num 0 32], false⟩
  | 10, 6 => some ⟨.below 8, [.any, .any, .any, .any, .any, .any], false⟩
  | 10, 7 => some ⟨.all, [.num 1 64, .num 1000 1000000], false⟩
  | 11, 1 => some ⟨.below 32, [.num 0 2, .num 1 50, .num 1 60], true⟩
  | 11, 2 => some ⟨.all, [.num 1 65535, .num 8 24, .num 2 255, .num 1 255, .num 100 100000], true⟩
  | _, _ => none

/-- The records of sections 0x0C to 0x0F. -/
def recSpecHigh (typ rtype : Nat) : Option RecSpec :=
  match typ, rtype with
  | 12, 1 => some ⟨.below 4, [.num 1 65535, .num 1 65535], true⟩
  | 12, 2 => some ⟨.all, [.num 64 65536, .num 1 15], true⟩
  | 12, 3 => some ⟨.all, [.num 1 200, .num 1 100, .num 1 100], true⟩
  | 12, 4 => some ⟨.all, [.num 0 256, .num 0 1024], true⟩
  | 12, 5 => some ⟨.all, [.num 8 0x77, .mask 7], true⟩
  | 13, 1 => some ⟨.all, [.num 0 2, .num 60 604800], false⟩
  | 14, 1 => some ⟨.all, [.num 1 1000, .num 0 1, .num 10 10000], false⟩
  | 14, 2 => some ⟨.all, [.num 1024 1048576, .num 36 44], false⟩
  | 14, 3 => some ⟨.all, [.num 4096 16777216, .num 65536 1048576, .num 0 1, .num 1 15, .num 2 1000, .num 1 32, .num 1 255,
      .num 1 1000], false⟩
  | 14, 4 => some ⟨.all, [.num 0 0xFFFF, .num 0 0xFFFF, .num 0 255, .num 0 255, .num 0 255], false⟩
  | 14, 5 => some ⟨.all, [.num 4 64, .num 0 2], false⟩
  | 14, 6 => some ⟨.all, [.num 1 60000], false⟩
  | 15, 1 => some ⟨.below 15360, [.any, .any, .num 0 255, .num 0 3, .num 0 255], true⟩
  | _, _ => none

/-- What the record type holds, if there is one. -/
def recSpec (typ rtype : Nat) : Option RecSpec :=
  if typ ≤ 6 then recSpecLow typ rtype else if typ ≤ 11 then recSpecMid typ rtype else recSpecHigh typ rtype

/-- Sections a chart must hold, and those an overlay may hold (table Sections). -/
def requiredSections : List Nat := [1, 2, 3, 4, 5, 6, 7, 9, 10, 14]
def overlaySections : List Nat := [2, 3, 4, 5, 6, 7, 8, 9, 11, 12, 15]

/-! ## Layout (R340, R341) -/

/-- Why an image is rejected: code, section, record type, index, status. -/
structure Reject where
  code    : Nat
  sectId : Nat
  rtype   : Nat
  index   : Nat
  status  : Nat
  deriving DecidableEq, Repr, Inhabited

/-- The 8 B words of a record's value. -/
def wordsOf (bs : Bytes) : List Nat := (chunks 8 bs.length bs).map leNat

/-- The records of a section, if it breaks down into whole ones. -/
def parseRecs : Nat → Bytes → Option (List ChartRec)
  | 0, bs => if bs.isEmpty then some [] else none
  | fuel + 1, bs =>
    if bs.isEmpty then some []
    else
      let len := leAt bs 4 4
      if bs.length < 8 + len ∨ len % 8 ≠ 0 then none
      else (parseRecs fuel (bs.drop (8 + len))).map fun rs =>
        ⟨leAt bs 0 2, leAt bs 2 2, wordsOf ((bs.drop 8).take len)⟩ :: rs

/-- Do numbers rise strictly? -/
def risesNat : List Nat → Bool
  | a :: b :: l => decide (a < b) && risesNat (b :: l)
  | _ => true

/-- One directory entry: TYPE, SVERSION, OFFSET, LENGTH, and whether a reserved bit is set. -/
def dirEntry (bs : Bytes) (i : Nat) : Nat × Nat × Nat × Nat × Bool :=
  let e := (bs.drop (0x100 + 16 * i)).take 16
  (leAt e 0 1, leAt e 1 1, leAt e 4 4, leAt e 8 4, leAt e 2 2 != 0 || leAt e 12 4 != 0)

/-- Reserved legend bits, all 0 in a well-formed image. -/
def legendRsv (bs : Bytes) : Bool :=
  bits (leAt bs 0x08 4) 17 15 != 0 || bits (leAt bs 0x10 4) 20 4 != 0 || leAt bs 0x2E 2 != 0 || leAt bs 0x36 2 != 0 ||
    leAt bs 0x3A 2 != 0 || leAt bs 0x50 0xB0 != 0

def imgKind (bs : Bytes) : Nat := bits (leAt bs 0x08 4) 16 1
def imgSections (bs : Bytes) : Nat := leAt bs 0x38 2
def imgSigned (bs : Bytes) : Nat := leAt bs 0x40 4
def imgSecVer (bs : Bytes) : Nat := leAt bs 0x28 4
def imgEpoch (bs : Bytes) : Nat := leAt bs 0x2C 2
def imgTick (bs : Bytes) : Nat := leAt bs 0x30 6
def imgSerial (bs : Bytes) : Nat := leAt bs 0x20 8

/-- The composition an image holds, when its directory and sections have the layout of R341. -/
def imgComp (bs : Bytes) : Option (List ChartSec) :=
  let es := (upTo (imgSections bs)).map (dirEntry bs)
  let low := 0x100 + 16 * imgSections bs
  let spans := sortOn (fun e => e.1) (es.map fun e => (e.2.2.1, e.2.2.2.1))
  let apart := (spans.zip (spans.drop 1)).all fun p => decide (p.1.1 + p.1.2 ≤ p.2.1)
  if !(risesNat (es.map fun e => e.1)) || !apart ||
      es.any (fun e => e.2.1 != 1 || e.2.2.2.2 || e.2.2.1 % 8 != 0 || decide (e.2.2.1 < low) ||
        decide (imgSigned bs < e.2.2.1 + e.2.2.2.1)) then none
  else es.mapM fun e => (parseRecs (e.2.2.2.1 / 8 + 1) ((bs.drop e.2.2.1).take e.2.2.2.1)).map fun rs => ⟨e.1, rs⟩

/-! ## Checks 1 to 8 -/

/-- Check 1. -/
def legendBad (ovl : Bool) (bs : Bytes) : Bool :=
  leAt bs 0 8 != 0x5452414843415856 || leAt bs 8 2 != 1 || imgKind bs != b2n ovl || leAt bs 0x3C 4 != 0x100 ||
    decide (16 < imgSections bs) || (!ovl && imgSections bs == 0) || legendRsv bs || (!ovl && imgTick bs != 0)

/-- Check 2, against the length given. -/
def sizeBad (ovl : Bool) (bs : Bytes) (given : Nat) : Bool :=
  let len := leAt bs 0x0C 4
  let sig := leAt bs 0x44 4
  len != given || decide ((if ovl then 2 ^ 20 else 2 ^ 25) < len) || decide (bs.length < len) || sig != imgSigned bs || sig % 8 != 0 ||
    leAt bs 0x48 4 != ecdsaLen || leAt bs 0x4C 4 != lmsLen || len != lmsOff sig + lmsLen

/-- Does a record stand at its place: a known type, no word more than its fields? -/
def recUnknown (typ : Nat) (r : ChartRec) : Bool :=
  match recSpec typ r.rtype with
  | none => true
  | some f => decide (f.fields.length < r.words.length) ||
      ((typ == 3 && r.rtype == 2) && r.words.length != 3) || ((typ == 7 && r.rtype == 2) && r.words.length != 2)

/-- The records of a composition with their sections. -/
def allRecs (comp : List ChartSec) : List (Nat × ChartRec) := comp.flatMap fun s => s.recs.map fun r => (s.typ, r)

/-- The first record a test names, as a rejection. -/
def rejectRec (code status : Nat) (comp : List ChartSec) (t : Nat → ChartRec → Bool) : Option Reject :=
  ((allRecs comp).find? fun r => t r.1 r.2).map fun r => ⟨code, r.1, r.2.rtype, r.2.index, status⟩

/-- The first section a test names, as a rejection. -/
def rejectSec (code status : Nat) (comp : List ChartSec) (t : ChartSec → Bool) : Option Reject :=
  (comp.find? t).map fun s => ⟨code, s.typ, 0, 0, status⟩

/-- Check 7 on the sections found. -/
def directoryBad (ovl : Bool) (comp : List ChartSec) : Option Reject :=
  rejectSec 7 stBadFormat comp (fun s => decide (s.typ = 0 ∨ 15 < s.typ) ||
      !(risesNat (s.recs.map fun r => r.rtype * 65536 + r.index))) <|>
    rejectRec 7 stBadFormat comp recUnknown <|>
    (if ovl then none
     else (requiredSections.find? fun t => !(comp.any fun s => s.typ == t)).map fun t => ⟨7, t, 0, 0, stBadFormat⟩) <|>
    (if ovl then none
     else ([(6, 1), (6, 2), (7, 1)].find? fun t => (compRec comp t.1 t.2 0xFFFF).isNone).map
       fun t => ⟨7, t.1, t.2, 0xFFFF, stBadFormat⟩)

/-- Check 8: sections and records an overlay may not hold (R347). -/
def overlayBad (comp : List ChartSec) : Option Reject :=
  rejectSec 8 stBadFormat comp (fun s => !overlaySections.contains s.typ) <|>
    rejectRec 8 stBadFormat comp fun t r => match recSpec t r.rtype with | some f => !f.ovl | none => true

/-! ## Checks 9 to 11 -/

/-- The sheet, quad or port a record's INDEX names lies beyond CAP_UNITS. -/
def idxAbsent (part : Part) (s : IdxSpec) (i : Nat) : Bool :=
  match s with
  | .quad => decide (4 * part.sheets ≤ i)
  | .sheet => decide (part.sheets ≤ i)
  | .port => decide (2 * part.sheets ≤ i)
  | .sheetPart => decide (part.sheets ≤ i / 32)
  | .portEntry => decide (2 * part.sheets ≤ i / 1024)
  | _ => false

/-- The ports a ROUTE or UPSTREAM record names. -/
def portsNamed (typ : Nat) (r : ChartRec) : List Nat :=
  if typ = 7 ∧ r.rtype = 2 then (routeOf r).2.2.2
  else if typ = 6 ∧ r.rtype = 6 then r.words.take (1 + r.words.getD 4 0)
  else []

/-- Check 9: a record names a unit the part does not have, or needs one (R3, R28, R151, R227, R240). -/
def absentBad (part : Part) (typ : Nat) (r : ChartRec) : Bool :=
  (match recSpec typ r.rtype with | some f => idxAbsent part f.idx r.index | none => false) ||
    (portsNamed typ r).any (fun p => decide (2 * part.sheets ≤ p)) ||
    (typ == 1 && decide (2 ^ (4 * part.sheets) ≤ r.words.getD 0 0 % 2 ^ 32)) ||
    (typ == 3 && r.rtype == 2 && !part.fold) ||
    (typ == 4 && r.rtype == 1 && !part.fold && bits (r.words.getD 0 0) 33 2 != 0) ||
    (typ == 4 && r.rtype == 2 && !part.fold && bitAt (r.words.getD 0 0) 24) ||
    (typ == 9 && r.rtype == 4 && !part.content && r.words.getD 1 0 != 0)

/-- Check 10: reserved bits of masks and structures (R7). -/
def reservedBad (typ : Nat) (r : ChartRec) : Bool :=
  (match recSpec typ r.rtype with
   | some f => (f.fields.zip r.words).any fun p => match p.1 with | .mask m => (p.2 &&& m) != p.2 | _ => false
   | none => false) ||
    (typ == 3 && r.rtype == 2 && bits (r.words.getD 0 0) 8 24 != 0) ||
    (typ == 7 && r.rtype == 2 && (bits (r.words.getD 0 0) 43 21 != 0 || bits (r.words.getD 1 0) 16 48 != 0)) ||
    (typ == 15 && (bits (r.words.getD 0 0) 49 15 != 0 || bits (r.words.getD 1 0) 49 15 != 0))

def FSpec.ok (f : FSpec) (w : Nat) : Bool :=
  match f with
  | .num lo hi => decide (lo ≤ w) && decide (w ≤ hi)
  | .sgn lo hi => decide (lo ≤ asSigned 64 w) && decide (asSigned 64 w ≤ hi)
  | _ => true

/-- Is a number a power of two? -/
def powerOfTwo (w : Nat) : Bool := decide (0 < w) && 2 ^ Nat.log2 w == w

/-- Ranges beyond one field's bounds. -/
def rangeMore (typ : Nat) (r : ChartRec) (spanNs : Nat) : Bool :=
  let w (k : Nat) := r.words.getD k 0
  match typ, r.rtype with
  | 3, 2 => bits (w 0) 6 2 == 0 || bits (w 0) 6 2 == 3
  | 5, 4 => w 1 % 256 != 0 || decide (0xF0000 < w 0 + w 1)
  | 7, 2 => decide (32 < bits (w 0) 32 6) || bits (w 0) 38 2 == 3 ||
      (if bits (w 0) 38 2 = 0 then bits (w 0) 40 3 == 0 || decide (4 < bits (w 0) 40 3) else bits (w 0) 40 3 != 0)
  | 8, 1 => r.words.length != 1 + (w 0 + 1) / 2
  | 9, 4 => w 1 % 1024 != 0
  | 10, 2 => decide (16384 < r.words.getD 0 512 + r.words.getD 1 8192 + r.words.getD 2 4096 + r.words.getD 3 3584)
  | 10, 7 => decide (spanNs < r.words.getD 1 10000)
  | 11, 1 => decide (r.words.getD 2 10 < r.words.getD 1 5)
  | 12, 1 => decide (1 < r.words.length) && decide (w 1 < w 0)
  | 12, 2 => !powerOfTwo (r.words.getD 0 1024)
  | 14, 3 => decide (spanNs < 1000 * r.words.getD 7 20)
  | 14, 5 => !([4, 8, 16, 32, 64].contains (r.words.getD 0 16))
  | _, _ => false

/-- Check 11: a field outside its range (R342). -/
def rangeBad' (spanNs typ : Nat) (r : ChartRec) : Bool :=
  (match recSpec typ r.rtype with
   | some f => (f.fields.zip r.words).any (fun p => !p.1.ok p.2) ||
      (match f.idx with | .all => r.index != 0xFFFF | .below k => decide (k ≤ r.index) | _ => false)
   | none => false) || rangeMore typ r spanNs

/-! ## Check 12 -/

/-- Are two of a list's ranges (start, length) not apart? -/
def rangesClash (l : List (Nat × Nat)) : Bool :=
  let s := sortOn (fun e => e.1) (l.filter fun e => decide (0 < e.2))
  (s.zip (s.drop 1)).any fun p => decide (p.2.1 < p.1.1 + p.1.2)

/-- Does a number repeat in a list? -/
def repeats : List Nat → Bool
  | [] => false
  | a :: l => l.contains a || repeats l

/-- R120. -/
def sharesBad (part : Part) (comp : List ChartSec) : Bool :=
  let w (t r i k : Nat) := compWord comp t r i k 0
  (upTo part.sheets).any fun s =>
    let sum (k : Nat) := listSum ((upTo 32).map fun p => w 5 1 (s * 32 + p) k)
    decide (4096 < sum 0) || decide (32768 < sum 1) || decide (3584 < sum 2) || decide (8192 < sum 3 + w 5 2 s 0) ||
      (upTo 32).any fun p => bits (w 1 1 p 0) (4 * s) 4 != 0 && (upTo 4).any fun k => w 5 1 (s * 32 + p) k == 0

/-- R95: some enabled combination's single-tile pass exceeds the budget at OP3. -/
def budgetBad (comp : List ChartSec) (period : Nat) : Bool :=
  let w (t r i : Nat) := compWord comp t r i 0 0
  (upTo 32).any fun p =>
    let formats := (upTo 35).filter fun c => bitAt (w 4 1 p) c
    (upTo 6).any fun recipe => bitAt (w 3 1 p) recipe && formats.any fun f =>
      (upTo 6).any fun d => bitAt (w 4 2 p) d && (if recipe = 1 then d == 5 else recipe == 5 || d != 5) &&
        (upTo 2).any fun q => bitAt (w 4 2 p) (16 + q) &&
          decide (budgetAt period 3 < passCycles 1 d ⟨recipe, 0, 0, q, false, 0, false⟩ (decide (0x21 ≤ f)))

/-- R151: a fold table's entries. -/
def foldBad (r : ChartRec) : Bool :=
  let w0 := r.words.getD 0 0
  let f3 := bits w0 6 2 == 2
  let all := (upTo 16).map fun k => bits (r.words.getD (1 + k / 8) 0) (8 * (k % 8)) 8
  let es := if f3 then all.take 8 else all
  bits w0 0 6 != r.index || (f3 && (all.drop 8).any (· != 0)) || es.contains 0x80 ||
    es.any (fun e => e % 128 == 127) || (es.filter (· == 0)).length != 1 ||
    (es.zip (es.drop 1)).any fun p => !numLt (decElem .e4m3 p.1) (decElem .e4m3 p.2)

/-- R240: bits below a prefix, two entries alike, the node's own postcode without its LOCAL entry. -/
def routesBad (comp : List ChartSec) (own : Nat) : Bool :=
  let rs := compRoutes comp
  let hit (kind : Nat) := (rs.filter fun r => r.2.2.1 == kind && routeMatch r.1 r.2.1 own).map fun r => r.2.1
  let loc := (hit 1).foldl max 0
  rs.any (fun r => r.1 % 2 ^ (32 - r.2.1) != 0) || repeats (rs.map fun r => r.1 * 64 + r.2.1) ||
    (hit 1).isEmpty || (hit 0).any fun l => decide (loc < l)

/-- R350: the substitution table. -/
def substBad (comp : List ChartSec) : Bool :=
  let ps := (compRecs comp 7 5).map fun r => (r.words.getD 0 0, r.words.getD 1 0)
  let olds := ps.map (·.1)
  repeats olds || ps.any fun p => p.1 == p.2 || olds.contains p.2 || p.2 == 0xFFFFFFFF

/-- R176: 0xFFFF_FFFF assigned to a node. -/
def postcodeBad (typ : Nat) (r : ChartRec) : Bool :=
  let bad (k : Nat) := r.words.getD k 0 == 0xFFFFFFFF
  match typ, r.rtype with
  | 7, 1 => bad 0
  | 7, 3 => bad 0
  | 8, 1 => (upTo (r.words.getD 0 0)).any fun i => bits (r.words.getD (1 + i / 2) 0) (32 * (i % 2)) 32 == 0xFFFFFFFF
  | 9, 5 => bad 0 || bad 2
  | _, _ => false

/-- R272: queue-pair ranges overlap, or exceed CONTEXT_LIMIT with the node's own. -/
def qpnBad (comp : List ChartSec) : Bool :=
  let rs := (compRecs comp 5 4).map fun r => (r.words.getD 0 0, r.words.getD 1 0)
  rangesClash rs || decide (compWord comp 14 3 0xFFFF 1 1048576 < listSum (rs.map (·.2)) + 65536)

/-- R232: content ranges of a sheet. -/
def gzBad (part : Part) (comp : List ChartSec) : Bool :=
  (upTo part.sheets).any fun s =>
    let rs := (upTo 32).map fun p => (compWord comp 9 4 (s * 32 + p) 0 0, compWord comp 9 4 (s * 32 + p) 1 0)
    rangesClash rs || rs.any fun r => decide (0 < r.2) && decide (65536 < r.1 + r.2)

/-- QUADS masks overlap. -/
def quadsBad (comp : List ChartSec) : Bool :=
  (upTo 32).any fun q => decide (1 < ((upTo 32).filter fun p => bitAt (compWord comp 1 1 p 0 0) q).length)

/-- Check 12 over the composition that would be in force; `ovl` is the node's postcode for an overlay with its own
sections. -/
def consistencyBad (part : Part) (comp sections : List ChartSec) (ovl : Option Nat) : Option Reject :=
  let sec (typ : Nat) (b : Bool) : Option Reject := if b then some ⟨12, typ, 0, 0, stBadFormat⟩ else none
  let own := compWord comp 7 1 0xFFFF 0 0
  rejectRec 12 stBadFormat sections postcodeBad <|>
    rejectRec 12 stBadFormat sections (fun t r => t == 3 && r.rtype == 2 && foldBad r) <|>
    rejectRec 12 stBadFormat sections (fun t r => t == 15 && (ruleOf r).bad) <|>
    sec 1 (quadsBad comp) <|> sec 4 (budgetBad comp (compWord comp 6 1 0xFFFF 0 500)) <|> sec 5 (sharesBad part comp) <|>
    sec 5 (qpnBad comp) <|> sec 7 (routesBad comp own) <|> sec 7 (substBad comp) <|> sec 9 (gzBad part comp) <|>
    (match ovl with
     | none => none
     | some pc => sec 7 ((sections.any fun s => s.typ == 7) &&
         (compRec sections 7 1 0xFFFF).all fun r => r.words.getD 0 0 != pc))

/-! ## Checks in order -/

/-- Sections replaced whole; but of the tick section, in which an overlay may hold PERIOD alone, only that record: origin,
guard, span and Meridian sources change with a new chart (R347). -/
def mergeComp (comp sections : List ChartSec) : List ChartSec :=
  let whole (s : ChartSec) : ChartSec :=
    if s.typ = 6 then
      { s with recs := s.recs ++ ((comp.filter (·.typ == 6)).flatMap (·.recs)).filter fun r => !(s.recs.any (·.rtype == r.rtype)) }
    else s
  sortOn (·.typ) ((comp.filter fun s => !(sections.any fun t => t.typ == s.typ)) ++ sections.map whole)

/-- Pages in any state that name a fold table (R152). -/
def Node.tableInUse (n : Node) (id : Nat) : Bool :=
  n.leaves.any fun l => l.2.st != .none && l.2.st != .redirect &&
    (match mapFind? n.seqs (l.1 / 2 ^ 32) with
     | none => false
     | some s => s.desc.foldTable == id && decide (0x21 ≤ s.desc.format))

/-- Check 13: a table in use would change its MODE or entries, or go (R152). -/
def Node.foldInUse (n : Node) (old new : List ChartSec) : Option Reject :=
  let shape (c : List ChartSec) (id : Nat) := (compRec c 3 2 id).map fun r => (bits (r.words.getD 0 0) 6 2, r.words.drop 1)
  ((upTo 64).find? fun id => (shape old id).isSome && shape old id != shape new id && n.tableInUse id).map
    fun id => ⟨13, 3, 2, id, stBadState⟩

/-- Checks 1 to 13: the sections, and the composition that would be in force after `base`. -/
def Node.checkImage (n : Node) (ovl : Bool) (bs : Bytes) (given : Nat) (base : List ChartSec) :
    Except Reject (List ChartSec × List ChartSec) :=
  let plain (code status : Nat) : Except Reject (List ChartSec × List ChartSec) := .error ⟨code, 0, 0, 0, status⟩
  if legendBad ovl bs then plain 1 stBadFormat
  else if sizeBad ovl bs given then plain 2 stBadLength
  else if !n.sec.accepts .chart bs (imgSigned bs) then plain 3 stBadFormat
  else if imgSecVer bs < n.sec.ctrChart then plain 4 stBadState
  else
    let variants := leAt bs 0x10 4
    let pbit (p : Part) : Nat := match p with | .vxa8032 => 16 | .vxa8032c => 17 | .vxa4016 => 18 | .vxa2008 => 19
    let target := [Part.vxa8032, .vxa8032c, .vxa4016, .vxa2008].find? fun p => p.code == leAt bs 0x10 2
    if !bitAt variants (pbit n.ident.part) || !bitAt variants (24 + n.ident.stepping - 1) ||
        !(target.any fun p => bitAt variants (pbit p)) then plain 5 stUnsupported
    else if (leAt bs 0x18 8 ≠ 0 ∧ leAt bs 0x18 8 ≠ n.ident.serial) ∨ (ovl ∧ leAt bs 0x14 4 ≠ n.postcode) then plain 6 stBadFormat
    else match imgComp bs with
      | none => plain 7 stBadFormat
      | some secs =>
        let comp := if ovl then mergeComp base secs else secs
        let spanNs := compWord comp 6 4 0xFFFF 0 50000
        let bad := directoryBad ovl secs <|> (if ovl then overlayBad secs else none) <|>
          rejectRec 9 stUnsupported secs (absentBad n.ident.part) <|> rejectRec 10 stBadFormat secs reservedBad <|>
          rejectRec 11 stBadLength secs (rangeBad' spanNs) <|>
          consistencyBad n.ident.part comp secs (if ovl then some n.postcode else none) <|>
          n.foldInUse base comp
        match bad with
        | some r => .error r
        | none =>
          if !ovl && compWord secs 7 1 0xFFFF 0 0 != leAt bs 0x14 4 then .error ⟨12, 7, 1, 0xFFFF, stBadFormat⟩
          else .ok (secs, comp)

/-- A rejection is captured and counted (R343). -/
def Node.captureReject (n : Node) (ovl : Bool) (r : Reject) : Node :=
  let n := n.wrs 0 [(R.CHART_REJECT_CODE, r.code), (R.CHART_REJECT_SECTION, r.sectId), (R.CHART_REJECT_RTYPE, r.rtype),
    (R.CHART_REJECT_INDEX, r.index), (R.CHART_REJECT_OVERLAY, b2n ovl), (R.CHART_STATUS_REJECTED, 1)]
  n.inc R.CHART_CNT_REJECTED 0 1

end Sys2Proof.Machine
end

