-- ==== Sys2Proof/Machine/HostPort.lean ====
section
/-!
DEFINITION. The host port beside its commands: HDM accesses and the directory (R302, R303, R319 to R321), the host link
(R300, R376), heartbeat, host failure and ADOPT (R322 to R324), the T3 window (R194), post-box states and interrupts
(R306, R307, R316 to R318).
-/

namespace Sys2Proof.Machine

/-! ## Waits for lines the host held (R320) -/

/-- Write the ring entries whose lines the host no longer holds, in order; what still waits stays. -/
def Node.drainRings (n : Node) : Node :=
  let ws := n.host.ringWaits
  forEach ws (n.modHost fun h => { h with ringWaits := [] }) fun n w =>
    if n.hostHolds w.1 w.2.length || n.host.ringWaits.any fun v => decide (v.1 < w.1 + w.2.length) && decide (w.1 < v.1 + v.2.length) then
      n.modHost fun h => { h with ringWaits := h.ringWaits ++ [w] }
    else n.hbmStore w.1 w.2

/-- Courier packets that waited for a line go on. -/
def Node.releaseAllHeld (n : Node) : Node :=
  forEach ((n.courier.qps.filter fun e => e.2.held.any fun x => x.why == 4).map Prod.fst) n fun n q => n.releaseHeld 1100 q

/-! ## The directory (R303, R319) -/

/-- The set of a line: address bits 24:6. -/
def dirSet (line : Nat) : Nat := line / 64 % 2 ^ 19

/-- The lines of a set. -/
def Node.dirWays (n : Node) (set : Nat) : List (Nat × DirLine) := n.host.dir.filter fun e => dirSet e.1 == set

/-- The victim of a full set: Shared before EM, then the least recently granted, ties to the lower way. -/
def dirVictim (ways : List (Nat × DirLine)) : Option Nat :=
  ((sortOn (fun e => b2n e.2.em * 2 ^ 40 + e.2.granted * 16 + e.2.way) ways).head?).map Prod.fst

/-- Grant a line to the host when its set has a way; otherwise recall a victim and let the request wait. -/
def Node.dirGrant (n : Node) (line : Nat) (em : Bool) : Node :=
  let g := n.host.grants
  match mapFind? n.host.dir line with
  | some d => n.modHost fun h => { h with grants := g + 1, dir := mapInsert h.dir line { d with em := em, granted := g } }
  | none =>
    let ways := n.dirWays (dirSet line)
    if ways.length < 16 then
      let way := ((upTo 16).find? fun w => !(ways.any fun e => e.2.way == w)).getD 0
      n.modHost fun h => { h with
        grants := g + 1
        dir := mapInsert h.dir line { em := em, granted := g, way := way, snooped := none, write := false } }
    else
      let n := n.modHost fun h => { h with dirWaits := h.dirWaits ++ [(line, em)] }
      let free := ways.filter fun e => e.2.snooped.isNone
      if ways.length - free.length ≥ (n.host.dirWaits.filter fun w => dirSet w.1 == dirSet line).length then n
      else match dirVictim free with
        | none => n
        | some v =>
          (n.modHost fun h => { h with
            dir := mapMod h.dir v fun d => { d with snooped := some n.now, write := false }
            snoops := h.snoops ++ [(v, false)] }).inc R.DIR_CNT_RECALLS 0 1

/-- Is an offset a hole of its stack: beyond 48 GiB, or in the reserved 8 MiB (R302)? -/
def hdmHole (addr : Nat) : Bool := decide (reservedGran ≤ addrGran addr)

/-- Answer a CXL.mem read of a line: its contents, or poison (R302). -/
def Node.hdmAnswer (n : Node) (line : Nat) : Node :=
  let bad := n.poisoned line 64
  n.modHost fun h => { h with lastRead := some (line, if bad then [] else n.hbmRead line 64, bad) }

/-- A CXL.mem read: a line of a HOST-class granule may be held in any state, any other line is Shared (R303). -/
def Node.hdmRead (n : Node) (addr : Nat) (excl : Bool) : Node :=
  let line := addr / 64 * 64
  if hdmHole line then (n.hpErr 4 addr).modHost fun h => { h with lastRead := some (line, [], true) }
  else
    let host := n.classOf (addrQuad line) (addrGran line) == .host
    let n := n.wakeStack (addrQuad line)
    let n := n.dirGrant line (excl && host)
    if n.host.dirWaits.any fun w => w.1 == line then n else n.hdmAnswer line

/-- Requests whose set now has a way are granted and answered. -/
def Node.dirRetry (n : Node) : Node :=
  let ws := n.host.dirWaits
  forEach ws (n.modHost fun h => { h with dirWaits := [] }) fun n w =>
    let n := n.dirGrant w.1 w.2
    if n.host.dirWaits.any fun x => x.1 == w.1 then n else n.hdmAnswer w.1

/-- What waited for a line goes on once the directory has changed. -/
def Node.dirMoved (n : Node) : Node := (n.drainRings.releaseAllHeld).dirRetry

/-- Is every masked byte of a line within the bias area of a frame whose header SEAL is 0 (R170, R302)? -/
def Node.biasWrite (n : Node) (line mask : Nat) : Bool :=
  let q := addrQuad line
  match n.runAt q (addrGran line) with
  | none => false
  | some (g, r) =>
    let a := granAddr q g
    let h := n.hdr (frameKey q g)
    match r.cls, pageFmt h.format with
    | .frame, some f =>
      let lo := a + biasOff f h.dcode (tokensOf h.tcode)
      h.bias && h.sealSt == 0 && (upTo 64).all fun i =>
        !bitAt mask i || (decide (lo ≤ line + i) && decide (line + i < a + dataEnd h))
    | _, _ => false

/-- Does a line lie in an extent that is being withdrawn or scrubbed (R336)? -/
def Node.closingLine (n : Node) (line : Nat) : Bool :=
  n.pool.exts.any fun e => (e.2.st == .withdrawing || e.2.st == .scrubbing) && decide (e.2.base ≤ line) &&
    decide (line < e.2.base + e.2.size)

/-- Store the masked bytes of a line; whole lines clear poison, poison poisons the line. -/
def Node.hdmStore (n : Node) (line mask : Nat) (data : Bytes) (poison : Bool) : Node :=
  let old := n.hbmRead line 64
  let bs := (upTo 64).map fun i => if bitAt mask i then data.getD i 0 else old.getD i 0
  let n := n.hbmWrite line bs
  if poison then n.poisonRange line 64
  else if mask % 2 ^ 64 = 2 ^ 64 - 1 then n.unpoison line 64
  else n

/-- A CXL.mem write of a line; `held` is what the host keeps: 0 nothing, 1 Shared, 2 as before. -/
def Node.hdmWrite (n : Node) (addr mask : Nat) (data : Bytes) (poison : Bool) (held : Nat) : Node :=
  let line := addr / 64 * 64
  let q := addrQuad line
  let g := addrGran line
  if hdmHole line then n.hpErr 4 addr
  else
    let host := n.classOf q g == .host
    let n := n.modHost fun h => { h with
      dir := if !host || held == 0 then mapErase h.dir line
             else if held == 1 then mapMod h.dir line fun d => { d with em := false } else h.dir }
    let n := n.wakeStack q
    let n := if (host && !n.closingLine line) || n.biasWrite line mask then n.hdmStore line mask data poison else n.hpErr 5 addr
    n.dirMoved

/-! ## Snoop answers (R320, R321) -/

/-- The host answers a snoop: its data is written back; a BISnpInv takes the line, a BISnpData may leave it Shared. -/
def Node.bisnpResponse (n : Node) (line : Nat) (data : Option Bytes) (keeps : Bool) : Node :=
  match n.host.snoops.find? fun s => s.1 == line with
  | none => n
  | some s =>
    let n := match data with
      | some bs => n.hbmStore line (padTo 64 bs)
      | none => n
    let n := n.modHost fun h => { h with
      snoops := h.snoops.filter fun x => x.1 != line
      dir := if keeps && s.2 then mapMod h.dir line fun d => { d with em := false, snooped := none }
             else mapErase h.dir line }
    n.dirMoved

/-- The chart's DIR_RECALL_TIMEOUT in ns. -/
def Node.recallNs (n : Node) : Nat := n.cw 14 1 0xFFFF 2 100 * 1000

/-- A snoop unanswered in time (R321): an EM line is poisoned, a Shared line dropped, and the waiting access proceeds. -/
def Node.recallTimeout (n : Node) (line : Nat) : Node :=
  match mapFind? n.host.dir line with
  | none => n
  | some d =>
    match d.snooped with
    | none => n
    | some t =>
      if n.now < t + n.recallNs then n
      else
        let n := if d.em then (n.poisonRange line 64).inc R.DIR_ERR_ADDR_POISONED 0 1 else n
        let n := (n.flag R.DIR_ERR_STATUS_RECALL_TIMEOUT 0 [(R.DIR_ERR_ADDR_ADDR, line)]).fault .hub 2 0x0A 8 none
        let n := n.modHost fun h => { h with
          snoops := h.snoops.filter (fun x => x.1 != line), dir := mapErase h.dir line }
        n.dirMoved

/-! ## Post-box states (R306, R317) -/

/-- Complete with ABORTED every boundary command of some post boxes that is not yet applied. -/
def Node.abortWaiting (n : Node) (t : Nat → Bool) : Node :=
  let gone := n.host.waiting.filter fun w => t w.cmd.box
  forEach gone (n.modHost fun h => { h with waiting := h.waiting.filter fun w => !t w.cmd.box }) fun n w =>
    n.complete w.cmd stAborted 0 0

/-- Does a ring lie where its owner may keep it: aligned to 64 B; in host memory, or wholly in HOST-class granules of
the owner's quads, of any quad for NODE? -/
def Node.ringFits (n : Node) (owner base len : Nat) : Bool :=
  base % 64 == 0 && (bitAt base 63 ||
    (decide (base < 2 ^ 41) && n.hasQuad (addrQuad base) && decide (base % 2 ^ 36 + len ≤ 2 ^ 36) &&
     (owner == 32 || bitAt (n.part owner).quads (addrQuad base)) &&
     (span (base / 4096) ((base + len - 1) / 4096 - base / 4096 + 1)).all fun g =>
       n.classOf (g / 2 ^ 24) (g % 2 ^ 24) == .host))

/-- Do PB_CFG and the ring bases meet R306? -/
def Node.boxCfgOk (n : Node) (b : Nat) : Bool :=
  let o := boxBase b
  let owner := n.rd R.PB_CFG_OWNER o
  let cmd := n.rd R.PB_CFG_CMD_LOG2 o
  let cpl := n.rd R.PB_CFG_CPL_LOG2 o
  let rr := n.rd R.PB_CFG_RR_LOG2 o
  n.hasChart && decide (owner ≤ 32) && decide (4 ≤ cmd) && decide (cmd ≤ 16) && decide (4 ≤ cpl) && decide (cpl ≤ 16) &&
    decide (rr ≤ 10) && n.ringFits owner (n.rd R.PB_CMD_BASE_BASE o) (64 * 2 ^ cmd) &&
    n.ringFits owner (n.rd R.PB_CPL_BASE_BASE o) (16 * 2 ^ cpl) &&
    (rr == 0 || n.ringFits owner (n.rd R.PB_RR_BASE_BASE o) (9216 * 2 ^ rr))

/-- PB_CTL.ENABLE. -/
def Node.boxEnable (n : Node) (b : Nat) : Node :=
  if (n.box b).st != .disabled then n
  else if n.boxCfgOk b then n.modBox b fun x => { x with st := .enabled, err := 0, suppress := false, clearing := false }
  else n.modBox b fun x => { x with err := 1 }

/-- PB_CTL.DISABLE. -/
def Node.boxDisable (n : Node) (b : Nat) : Node :=
  if (n.box b).st == .enabled then (n.modBox b fun x => { x with st := .draining }).drainBox b else n

/-- PB_CTL.RESET, and the destruction of the owner partition. -/
def Node.boxReset (n : Node) (b : Nat) : Node :=
  if (n.box b).st == .disabled then n.modBox b BoxSt.cleared
  else
    let n := n.modBox b fun x => { x with st := .draining, suppress := true, clearing := true }
    (n.abortWaiting (· == b)).drainBox b

/-- A write of PB_CPL_FREE counts only within its bound (R307). -/
def Node.cplFree (n : Node) (b v : Nat) : Node :=
  let x := n.box b
  if (v + 2 ^ 32 - x.cplFree) % 2 ^ 32 ≤ (x.done + 2 ^ 32 - x.cplFree) % 2 ^ 32 then
    n.modBox b fun x => { x with cplFree := v % 2 ^ 32 }
  else n

/-- A write of RR_FREE, bounded by RR_TAIL (R316). -/
def Node.rrFree (n : Node) (b v : Nat) : Node :=
  let x := n.box b
  if (v + 2 ^ 32 - x.rrFree) % 2 ^ 32 ≤ (x.rrTail + 2 ^ 32 - x.rrFree) % 2 ^ 32 then
    n.modBox b fun x => { x with rrFree := v % 2 ^ 32 }
  else n

/-- The end of a hold-off raises the interrupt of an event that fell in it (R318). -/
def Node.irqHoldoffEnd (n : Node) (b : Nat) : Node :=
  let x := n.box b
  if x.irqPend ∧ x.irqUntil ≤ n.now then (n.modBox b fun x => { x with irqPend := false }).raiseIrq b else n

/-! ## The host's failure (R322 to R324) -/

/-- Contexts kept in host memory are lost (R296). -/
def Node.loseHostContexts (n : Node) : Node :=
  if n.cw 14 3 0xFFFF 2 0 = 1 then
    forEach ((n.courier.qps.filter fun e => e.2.st != .free && !e.2.resident).map Prod.fst) n fun n q => n.contextLost q
  else n

/-- The host has failed: ORPHAN at once, in the order of R322. -/
def Node.hostFails (n : Node) : Node :=
  if n.host.st = .orphan then n
  else
    let n := n.modHost fun h => { h with st := .orphan, monitoring := false, quiesce := n.cw 14 1 0xFFFF 1 0 == 1 }
    let n := ((n.alarm .hub 0 0x0A 3).hpErr 3 0).inc R.HP_HB_CNT_FAILURES 0 1
    let em := (n.host.dir.filter fun e => e.2.em).map Prod.fst
    let n := if em.isEmpty then n
      else ((n.wr R.DIR_ERR_STATUS_FAILURE_POISON 0 1).inc R.DIR_ERR_ADDR_POISONED 0 em.length)
    let n := forEach em n fun n a => n.poisonRange a 64
    let n := (n.modHost fun h => { h with dir := [], snoops := [], dirWaits := [], t3Lost := true }).dirMoved
    let on := (n.host.boxes.filter fun e => e.2.st == .enabled).map Prod.fst
    let n := forEach on n fun n b => n.modBox b fun x => { x with st := .draining }
    let n := n.abortWaiting fun _ => true
    let n := forEach on n fun n b => n.drainBox b
    n.loseHostContexts

/-- A heartbeat; the first after start-up or ADOPT starts monitoring. -/
def Node.heartbeat (n : Node) : Node :=
  let n := n.inc R.HP_HB_CNT_BEATS 0 1
  n.modHost fun h =>
    if h.st = .waiting then { h with st := .active, monitoring := true, beat := true, misses := 0 }
    else { h with beat := true }

/-- The check at the end of a heartbeat period: two in a row without a write mean the host has failed. -/
def Node.heartbeatCheck (n : Node) : Node :=
  if !n.host.monitoring then n
  else if n.host.beat then n.modHost fun h => { h with beat := false, misses := 0 }
  else
    let n := ((n.modHost fun h => { h with misses := h.misses + 1 }).inc R.HP_HB_CNT_MISSES 0 1).hpErr 2 0
    if 2 ≤ n.host.misses then n.hostFails else n

/-- HP_CTL.ADOPT ends ORPHAN while the link is up (R324). -/
def Node.adopt (n : Node) : Node :=
  if n.host.st = .orphan ∧ n.host.link then
    n.modHost fun h => { h with
      st := .waiting, monitoring := false, beat := false, misses := 0, quiesce := false, quiesced := false
      boxes := mapAll (fun _ x => { x with st := .disabled }) h.boxes }
  else n

/-! ## The link (R300, R376) -/

/-- The link comes up. -/
def Node.linkUp (n : Node) (modules rate : Nat) : Node :=
  if modules % 16 = 0 then n
  else n.modHost fun h => { h with link := true, everUp := true, modules := modules % 16, rate := min rate 32 }

/-- The link goes down: after it has once been up, the host has failed. -/
def Node.linkDown (n : Node) : Node :=
  if n.host.link then
    ((n.modHost fun h => { h with link := false, modules := 0, rate := 0, ide := false }).hpErr 0 0).hostFails
  else n

/-- A module is left out (kind 0), a lane is repaired (1), or a module is degraded to 32 lanes (2): the last two write
a HEALTH record. -/
def Node.moduleEvent (n : Node) (m kind : Nat) : Node :=
  match kind with
  | 0 => if bitAt n.host.modules m then (n.modHost fun h => { h with modules := h.modules - 2 ^ m }).hpErr 1 0 else n
  | 1 => (n.histInc (histUcieAt m + 0x200) 4 1).healthRec .hub 0x0A 9 m 1 0
  | _ => (n.histInc (histUcieAt m + 0x204) 4 1).healthRec .hub 0x0A 9 m 2 0

/-! ## The T3 window (R194) -/

/-- A write of HP_T3_SIZE: setting EN gives the window, clearing it withdraws it; GRANULES is ignored while EN is 1. -/
def Node.t3WindowWrite (n : Node) (v : Nat) : Node :=
  let n := if n.rd R.HP_T3_SIZE_EN 0 = 1 then n else n.wr R.HP_T3_SIZE_GRANULES 0 (bits v 0 31)
  let was := n.rd R.HP_T3_SIZE_EN 0
  let n := n.wr R.HP_T3_SIZE_EN 0 (bits v 63 1)
  if was = 0 ∧ bitAt v 63 then n.modHost fun h => { h with t3Lost := false } else n

end Sys2Proof.Machine
end

