-- ==== Sys2Proof/Machine/QpCommands.lean ====
section
/-!
DEFINITION. The courier's host commands: queue pairs (R272 to R274), operations (R275), memory keys (R279, R280, R284,
R332).
-/

namespace Sys2Proof.Machine

/-! ## Queue pairs -/

/-- QPN_BASE and QPN_COUNT of a partition. -/
def Node.qpnBase (n : Node) (p : Nat) : Nat := n.cw 5 4 p 0 0
def Node.qpnCount (n : Node) (p : Nat) : Nat := n.cw 5 4 p 1 0
/-- Is a QPN one of a partition's? -/
def Node.qpnOk (n : Node) (p q : Nat) : Bool := decide (n.qpnBase p ≤ q) && decide (q < n.qpnBase p + n.qpnCount p)

/-- Pinned contexts of a partition on a sheet. -/
def Node.pinned (n : Node) (sheet p : Nat) : Nat :=
  (n.courier.qps.filter fun e => n.qpSheet e.1 == sheet && e.2.partition == p && e.2.pin && e.2.st != .free).length

/-- QP_CREATE. -/
def Node.qpCreate (n : Node) (p : Nat) (bs : Bytes) : Applied :=
  let w := cmdQ bs 0x10
  let q := bits w 0 20
  let ring := cmdQ bs 0x18
  let slot := bits w 24 4
  let slots := bits w 32 5
  let pin := bitAt w 21
  let sheet := n.qpSheet q
  if !n.qpnOk p q then failCmd n stBadLength 0
  else if (n.qp q).st ≠ .free then failCmd n stBadState (n.qp q).st.code
  else match n.localBad p ring (2 ^ slot * 2 ^ slots) with
    | (some d, n) => failCmd n stBadState d
    | (none, n) =>
      if pin ∧ n.pinLimit sheet p ≤ n.pinned sheet p then failCmd n stNoQuota 0
      else
        let n := n.modQp q fun _ =>
          { (default : QpSt) with
            st := .reset, partition := p, ordered := bitAt w 20, pin := pin, ring := ring, slotLog2 := slot,
            slotsLog2 := slots, rate := n.crInitRate }
        .done stDone 0 0 (n.loadContext q)

/-- QP_CONNECT. The spec does not say how the node learns the geometry of the peer's receive ring, which R275 and R278 hold a
SEND to: a free value within the limits of R273 (log entry 105). -/
def Node.qpConnect (n : Node) (p : Nat) (bs : Bytes) : Applied :=
  let w := cmdQ bs 0x10
  let x := cmdQ bs 0x18
  let q := bits w 0 20
  if !n.qpnOk p q then failCmd n stBadLength 0
  else if (n.qp q).st ≠ .reset ∨ (n.qp q).ending ≠ 0 then failCmd n stBadState (n.qp q).st.code
  else
    let (a, n) := n.fresh
    let (b, n) := n.fresh
    .done stDone 0 0 (n.modQp q fun s =>
      { s with st := .ready, peerPc := bits w 32 32, peerQpn := bits x 0 20, paths := bits x 20 7, entropy := bits x 32 16,
               peerSlot := 6 + a % 9, peerSlots := b % 17 })

/-- QP_RESET and QP_DESTROY; they complete when the wait of PKT_LIFETIME has passed. -/
def Node.qpEnd (n : Node) (p : Nat) (ref : CmdRef) (bs : Bytes) (destroy : Bool) : Applied :=
  let q := bits (cmdQ bs 0x10) 0 20
  if !n.qpnOk p q then failCmd n stBadLength 0
  else if (n.qp q).st = .free ∨ (n.qp q).ending ≠ 0 then failCmd n stBadState (n.qp q).st.code
  else .later (n.startQpReset q destroy (some ref))

/-! ## Operations (R275) -/

/-- The kind of an operation by its opcode. -/
def crKindOf (op : Nat) : CrKind :=
  match op with
  | 0x34 => .write
  | 0x35 => .read
  | 0x36 => .send
  | 0x37 => .fetchAdd
  | 0x38 => .compareSwap
  | _ => .wait

/-- The local bytes an operation touches: a WRITE's or SEND's source, a READ's or an atomic's destination. -/
def localLen (op len : Nat) : Nat := if op = 0x39 then 0 else len

/-- A courier operation posted by the host. -/
def Node.crCommand (n : Node) (p : Nat) (ref : CmdRef) (bs data : Bytes) : Applied :=
  let op := cmdOp bs
  let w := cmdQ bs 0x10
  let q := bits w 0 20
  let len := bits w 32 32
  let loc := cmdQ bs 0x18
  let watch := bits (cmdQ bs 0x38) 0 20
  if !n.qpnOk p q || (op == 0x39 && !n.qpnOk p watch) then failCmd n stBadLength 0
  else if (n.qp q).st ≠ .ready ∨ (n.qp q).ending ≠ 0 then failCmd n stBadState (n.qp q).st.code
  else if op = 0x36 ∧ 2 ^ (n.qp q).peerSlot < len + 8 then failCmd n stBadLength 0
  else match n.localBad p loc (localLen op len) with
    | (some d, n) => failCmd n stBadState d
    | (none, n) =>
      let src := if (op = 0x34 ∨ op = 0x36) ∧ bitAt loc 63 then padTo len data else []
      .later (n.crPost q (mkOp (.host ref) (crKindOf op) len loc src (cmdQ bs 0x20) (cmdQ bs 0x28) (cmdQ bs 0x30)
        (cmdQ bs 0x38) (bitAt w 20) (bitAt w 21)))

/-! ## Memory keys -/

/-- DETAIL of BAD_STATE for a key index (R280). -/
def KeyEnt.detail (e : KeyEnt) : Nat := e.nextGen + 256 * b2n e.valid + 512 * b2n e.gone

/-- Can an index be registered with a generation? -/
def KeyEnt.open' (e : KeyEnt) (gen : Nat) : Bool := !e.valid && !e.gone && e.nextGen == gen

def Node.modKey (n : Node) (idx : Nat) (f : KeyEnt → KeyEnt) : Node :=
  { n with courier := { n.courier with keys := mapMod n.courier.keys idx f } }

def ExtState.code : ExtState → Nat
  | .free => 0
  | .granted => 1
  | .withdrawing => 2
  | .scrubbing => 3

/-- The lowest extent of a range whose state passes a test. -/
def Node.extAt (n : Node) (base size : Nat) (t : ExtState → Bool) : Option (Nat × ExtSt) :=
  n.pool.exts.find? fun e => t e.2.st && rangesMeet e.2.base e.2.size base size

/-- KEY_REGISTER (R280, R332). -/
def Node.keyRegister (n : Node) (p : Nat) (bs : Bytes) : Applied :=
  let k := cmdQ bs 0x10
  let x := cmdQ bs 0x18
  let kind := bits x 0 2
  let rights := bits x 8 5
  let base := cmdQ bs 0x28
  let size := bits (cmdQ bs 0x30) 0 40
  let e := n.keyEnt k
  if keySecretOf k = 0 ∨ (kind ≠ 0 ∧ bitAt rights rtAtomic) ∨ (kind ≠ 1 ∧ (bitAt rights rtAttend ∨ bitAt rights rtAppend)) ∨
      (kind = 0 ∧ (base % 4096 ≠ 0 ∨ size % 4096 ≠ 0)) then failCmd n stBadFormat 0
  else if n.keyLimit ≤ keyIndex k ∨ (kind = 0 ∧ (size = 0 ∨ 2 ^ 41 ≤ base ∨ !n.inQuads p base size)) then
    failCmd n stBadLength 0
  else if !e.open' (keyGen k) then failCmd n stBadState e.detail
  else
    match (if kind = 0 then n.firstClass base size (· != .host) else none) with
    | some c => failCmd n stBadState (c.code * 256)
    | none =>
      match (if kind = 0 then n.extAt base size fun s => s == .withdrawing || s == .scrubbing else none) with
      | some (_, x) => failCmd n stBadState (3 * 256 + x.st.code * 65536)
      | none =>
        let within := if kind ≠ 0 then none else n.pool.exts.find? fun e =>
          e.2.st == .granted && e.2.partition == p && decide (e.2.base ≤ base) && decide (base + size ≤ e.2.base + e.2.size)
        let n := n.modKey (keyIndex k) fun e =>
          { e with valid := true, gen := keyGen k, secret := keySecretOf k, kind := kind, rights := rights,
                   srcPrefix := cmdD bs 0x20, srcLen := bits (cmdQ bs 0x20) 32 6, base := base, size := size,
                   partition := p, extent := within.map Prod.fst, withdrawn := false }
        let n := match within with
          | some (i, _) => n.modExt i fun x => { x with keys := x.keys ++ [keyIndex k] }
          | none => n
        .done stDone 0 0 n

/-- Clear an index on every sheet; at GEN 255 it is retired (R284). -/
def Node.revokeIndex (n : Node) (idx : Nat) : Node :=
  n.modKey idx fun e =>
    if e.valid then { e with valid := false, nextGen := (e.gen + 1) % 256, gone := e.gone || e.gen == 255 } else e

/-- KEY_REVOKE. A packet is checked and placed in one step, so every placement that passed its check is over (R281). -/
def Node.keyRevoke (n : Node) (p : Nat) (bs : Bytes) : Applied :=
  let k := cmdQ bs 0x10
  let e := n.keyEnt k
  if e.valid ∧ e.partition ≠ p then failCmd n stBadState 0
  else if !e.valid ∨ e.gen ≠ keyGen k then failCmd n stBadState e.detail
  else .done stDone 0 0 (n.revokeIndex (keyIndex k))

/-- Revoke every key a test names: a destroyed partition's, or all under QUIESCE (R323, R357). -/
def Node.revokeAll (n : Node) (t : KeyEnt → Bool) : Node :=
  forEach ((n.courier.keys.filter fun e => e.2.valid && t e.2).map Prod.fst) n fun n i => n.revokeIndex i

end Sys2Proof.Machine
end

