-- ==== Sys2Proof/Machine/Pool.lean ====
section
/-!
DEFINITION. The shared pool (R329 to R338): grants, leases and their messages, withdrawal, drain, scrub and return.
-/

namespace Sys2Proof.Machine

def Node.poolQuota (n : Node) (p : Nat) : Nat := n.cw 9 2 p 0 0
def Node.hostGranules (n : Node) (q : Nat) : Nat := n.cw 9 3 q 0 0
def Node.leaseDefault (n : Node) : Nat := n.cw 14 6 0xFFFF 0 200
/-- The pool-server role of a quad (R329). -/
def Node.poolServer (n : Node) (q : Nat) : Bool := bitAt (n.roles q) 2
/-- Granules charged to a partition's pool quota (R330). -/
def Node.poolUsed (n : Node) (p : Nat) : Nat :=
  (n.pool.exts.filter fun e => e.2.st != .free && e.2.partition == p).foldl (fun a e => a + e.2.size / 4096) 0

/-- Does a range lie in the host area of a pool-server quad of a partition? -/
def Node.inPool (n : Node) (p base size : Nat) : Bool :=
  let q := addrQuad base
  decide (base < 2 ^ 41) && n.inQuads p base size && n.poolServer q && decide (0 < size) &&
    decide (reservedGran - n.hostGranules q ≤ addrGran base)

/-! ## Grants (R331) -/

/-- EXTENT_GRANT, applied at its boundary. -/
def Node.extentGrant (n : Node) (p : Nat) (bs : Bytes) : Applied :=
  let k := cmdQ bs 0x10
  let base := bits (cmdQ bs 0x18) 0 41
  let size := bits (cmdQ bs 0x20) 0 40
  let x := cmdQ bs 0x28
  let rights := bits x 38 3
  let ms := bits (cmdQ bs 0x30) 0 16
  let lease := if ms = 0 then n.leaseDefault else ms
  let e := n.keyEnt k
  if keySecretOf k = 0 ∨ rights = 0 then failCmd n stBadFormat 0
  else if !n.inPool p base size ∨ n.keyLimit ≤ keyIndex k then failCmd n stBadLength 0
  else if (n.firstClass base size (· == .retired)).isSome then failCmd n stBadState (4 * 256)
  else match n.extAt base size (· != .free) with
    | some (i, y) => failCmd n stBadState (y.st.code + i * 65536)
    | none =>
      if !e.open' (keyGen k) then failCmd n stBadState e.detail
      else
        let used := (n.pool.exts.filter fun e => e.2.st != .free).map Prod.fst
        match (upTo 4096).find? fun i => !used.contains i with
        | none => failCmd n stNoQuota 0
        | some i =>
          if n.poolQuota p < n.poolUsed p + size / 4096 then failCmd n stNoQuota 0
          else
            let expiry := (n.now + lease * 1000000) % 2 ^ 64
            let n := n.modKey (keyIndex k) fun e =>
              { e with valid := true, gen := keyGen k, secret := keySecretOf k, kind := 0, rights := rights,
                       srcPrefix := bits x 0 32, srcLen := bits x 32 6, base := base, size := size, partition := p,
                       extent := some i, withdrawn := false }
            let n := n.modExt i fun _ =>
              { st := .granted, partition := p, base := base, size := size, rights := rights, gPrefix := bits x 0 32,
                gLen := bits x 32 6, leaseMs := lease, expiry := expiry, key := k, keys := [keyIndex k], cmd := none,
                drained := false, stalled := false }
            .done stDone i expiry (n.inc R.POOL_CNT_GRANTS 0 1)

/-! ## Renewal (R333, R334) -/

/-- Is the grant key, not revoked by KEY_REVOKE, the key presented? -/
def Node.grantKeyOk (n : Node) (x : ExtSt) (k : Nat) : Bool :=
  let e := n.keyEnt k
  x.key == k && e.gen == keyGen k && e.secret == keySecretOf k && (e.valid || e.withdrawn)

/-- A renewal at its server: STATUS, DETAIL, new EXPIRY. `part` is the post box's partition where the host renews on its
own node. -/
def Node.renewAt (n : Node) (sender : Nat) (part : Option Nat) (i k : Nat) : (Nat × Nat × Nat) × Node :=
  let x := n.ext i
  let other : Bool := match part with
    | some p => x.partition != p
    | none => false
  let refuse (st d : Nat) : (Nat × Nat × Nat) × Node :=
    ((st, d, 0), (if part.isNone then n.inc R.POOL_WD_CNT_RENEW_REFUSED 0 1 else n).poolErr 1 i)
  if 4096 ≤ i then refuse stBadLength 0
  else if !n.grantKeyOk x k || !srcOk x.gPrefix x.gLen sender then refuse stKeyFault 0
  else if other then refuse stBadState 0
  else if x.st ≠ .granted ∨ x.expiry ≤ n.now then refuse stBadState x.st.code
  else
    let e := max x.expiry ((n.now + x.leaseMs * 1000000) % 2 ^ 64)
    ((stDone, 0, e), (n.modExt i fun x => { x with expiry := e }).inc R.POOL_CNT_RENEWALS 0 1)

/-- A lease message (table Lease message). -/
def leaseMsg (typ status i detail req key expiry : Nat) : Bytes :=
  leBytes 1 typ ++ [1] ++ leBytes 1 status ++ [0] ++ leBytes 4 (i % 4096) ++ leBytes 4 detail ++ leBytes 4 req ++
    leBytes 8 key ++ leBytes 8 expiry

/-- Send a lease message by courier SEND. -/
def Node.sendLease (n : Node) (dst part i : Nat) (msg : Bytes) : Node :=
  n.userPost 4 dst part (mkOp (.pool i) .send 32 0 msg 0 0 0 0 false false)

/-- EXTENT_RENEW at fetch. -/
def Node.extentRenew (n : Node) (p : Nat) (ref : CmdRef) (bs : Bytes) : Applied :=
  let k := cmdQ bs 0x10
  let server := cmdD bs 0x18
  let i := bits (cmdQ bs 0x18) 32 12
  if server = n.postcode then
    let ((st, d, e), n) := n.renewAt n.postcode (some p) i k
    .done st d e n
  else
    let req := n.pool.nextReq
    let wait : RenewSt := { cmd := ref, server := server, reqId := req, at' := n.now }
    let n := { n with pool := { n.pool with nextReq := (req + 1) % 2 ^ 32, renews := n.pool.renews ++ [wait] } }
    .later (n.sendLease server p i (leaseMsg 0x50 0 i 0 req k 0))

/-- A lease message arrives from a node. -/
def Node.leaseArrives (n : Node) (src : Nat) (m : Bytes) : Node :=
  let typ := leAt m 0 1
  let i := leAt m 4 4 % 4096
  let req := leAt m 0x0C 4
  if m.length ≠ 32 ∨ leAt m 1 1 ≠ 1 then n
  else if typ = 0x50 then
    let k := leAt m 0x10 8
    let ((st, d, e), n) := n.renewAt src none i k
    let part := (n.ext i).partition
    if st = stDone then n.sendLease src part i (leaseMsg 0x51 0 i 0 req 0 e)
    else n.sendLease src part i (leaseMsg 0x52 st i d req 0 0)
  else
    match n.pool.renews.find? fun r => r.reqId == req && r.server == src with
    | none => n
    | some r =>
      let n := { n with pool := { n.pool with renews := n.pool.renews.filter fun x => x.reqId != req } }
      if typ = 0x51 then n.complete r.cmd stDone 0 (leAt m 0x18 8)
      else n.complete r.cmd (leAt m 2 1) (leAt m 8 4) 0

/-- No answer within 1 ms: INTERNAL. -/
def Node.renewTimeout (n : Node) (req : Nat) : Node :=
  match n.pool.renews.find? fun r => r.reqId == req with
  | none => n
  | some r =>
    if n.now < r.at' + 1000000 then n
    else ({ n with pool := { n.pool with renews := n.pool.renews.filter fun x => x.reqId != req } }).complete r.cmd stInternal 0 0

/-! ## Withdrawal (R335 to R337) -/

/-- The fence: WITHDRAWING, its keys revoked with the status of R337, operations over the range aborted. -/
def Node.withdraw (n : Node) (i : Nat) (cmd : Option CmdRef) : Node :=
  let x := n.ext i
  if x.st ≠ .granted then n
  else
    let n := n.modExt i fun x => { x with st := .withdrawing, cmd := cmd, drained := false }
    let n := forEach x.keys n fun n k =>
      if (mapGet n.courier.keys k).valid && (mapGet n.courier.keys k).extent == some i then
        (n.revokeIndex k).modKey k fun e => { e with withdrawn := true }
      else n
    n.nmeAbort fun o => o.partition == x.partition && (o.dests ++ o.sources).any fun r => rangesMeet r.1 r.2 x.base x.size

/-- Withdrawal for a cause other than a command or an expiry. -/
def Node.withdrawOther (n : Node) (t : ExtSt → Bool) : Node :=
  forEach ((n.pool.exts.filter fun e => e.2.st == .granted && t e.2).map Prod.fst) n fun n i =>
    (n.withdraw i none).inc R.POOL_WD_CNT_BY_OTHER 0 1

/-- EXTENT_WITHDRAW. -/
def Node.extentWithdraw (n : Node) (p : Nat) (ref : CmdRef) (bs : Bytes) : Applied :=
  let i := bits (cmdQ bs 0x10) 0 12
  let x := n.ext i
  if x.st = .free ∨ x.partition ≠ p then failCmd n stBadState 0
  else if x.st ≠ .granted then failCmd n stBadState x.st.code
  else .later ((n.withdraw i (some ref)).inc R.POOL_WD_CNT_BY_COMMAND 0 1)

/-- A lease expires at the first boundary at or after EXPIRY. -/
def Node.leaseExpiry (n : Node) (i : Nat) : Node :=
  let x := n.ext i
  if x.st = .granted ∧ x.expiry ≤ n.tickStart then
    ((n.withdraw i none).inc R.POOL_WD_CNT_BY_EXPIRY 0 1).poolErr 0 i
  else n

/-- Every lease that is over, in ascending EXTENT_ID. -/
def Node.leasesExpire (n : Node) : Node := forEach (mapKeys n.pool.exts) n fun n i => n.leaseExpiry i

/-- Start a scrub: a FILL with WORD 0 by the quad's engine, or by its cores on a part without one (R225). `kind` is 1 a
tenant switch, 2 PARTITION_SCRUB, 3 an extent, 4 RETURN; `who` names what it serves, `need` counts the granules filled. -/
def Node.startScrub (n : Node) (q kind who part addr len need : Nat) : Node :=
  let o : NmeOp := { (default : NmeOp) with
    quad := q, partition := part, op := 0, addrA := addr, len := len, word := 0, scrub := kind, who := who, need := need }
  if n.ident.part.nme then (n.nmeAdd o).2
  else
    let id := n.nme.nextId + 1
    (n.snoopRange addr len true).modNme fun m => { m with nextId := id, ops := mapSet m.ops id { o with active := true, byCores := true } }

/-- The scrub of an extent starts, or waits for an OFFLINE quad. -/
def Node.scrubExtent (n : Node) (i : Nat) : Node :=
  let x := n.ext i
  let q := addrQuad x.base
  if (n.quad q).st = .offline then (n.modExt i fun x => { x with stalled := true }).poolErr 2 i
  else (n.modExt i fun x => { x with stalled := false }).startScrub q 3 i x.partition x.base x.size (x.size / 4096)

/-- Every placement that passed before the fence has finished. -/
def Node.extentDrained (n : Node) (i : Nat) : Node :=
  if (n.ext i).st = .withdrawing then (n.modExt i fun x => { x with st := .scrubbing, drained := true }).scrubExtent i else n

/-- The scrub of an extent completes: FREE. -/
def Node.extentFreed (n : Node) (i : Nat) : Node :=
  let x := n.ext i
  if x.st = .scrubbing then
    (n.modExt i fun x => { x with st := .free, cmd := none, stalled := false, drained := false }).completeOpt x.cmd stDone 0 x.size
  else n

/-- Scrubs that waited for a quad start again (R336). -/
def Node.restartExtents (n : Node) (q : Nat) : Node :=
  forEach ((n.pool.exts.filter fun e => e.2.st == .scrubbing && e.2.stalled && addrQuad e.2.base == q).map Prod.fst) n
    fun n i => n.scrubExtent i

/-- A quad that goes OFFLINE stalls the extents being scrubbed on it. -/
def Node.stallExtents (n : Node) (q : Nat) : Node :=
  forEach ((n.pool.exts.filter fun e => e.2.st == .scrubbing && addrQuad e.2.base == q).map Prod.fst) n fun n i =>
    (n.modExt i fun x => { x with stalled := true }).poolErr 2 i

end Sys2Proof.Machine
end

