-- ==== Sys2Proof/Machine/Chart.lean ====
section
/-!
DEFINITION. The chart loader and the overlay engine: loading and verifying a chart (R344), staging an overlay (R345), its
switch at the named tick (R345 to R348, R352), retirement of redirects (R351), what a composition lays out (host areas R329,
tier-2 stores R193).
-/

namespace Sys2Proof.Machine

/-! ## What a composition lays out -/

/-- The runs of a range of granules that no run covers: start and length. -/
def freeGaps : Nat → Nat → List (Nat × GRun) → List (Nat × Nat)
  | lo, hi, [] => if lo < hi then [(lo, hi - lo)] else []
  | lo, hi, (a, r) :: rest =>
    let head := if lo < min a hi then [(lo, min a hi - lo)] else []
    head ++ freeGaps (max lo (a + r.len)) hi rest

/-- A quad's host area: its FREE granules become HOST, and HOST granules outside it FREE (R329), or RETIRED where they were
pending (R220). -/
def Node.layHost (n : Node) (q : Nat) : Node :=
  let low := reservedGran - n.hostGranules q
  let old := (n.quadRuns q).filter fun r =>
    r.2.cls == .host || (r.2.cls == .retirePending && r.2.kind == 0 && r.2.owner == 0 && decide (r.1 < low))
  let n := forEach old n fun n r => n.freeRange q r.1 (if r.2.cls == .host then r.2.len else min r.2.len (low - r.1))
  forEach (freeGaps low reservedGran (n.quadRuns q)) n fun n g => n.setClass q g.1 g.2 .host 0 0

/-- The T2 stores this node keeps for other nodes: record index, client, partition, granules, key. -/
def Node.ownStores (n : Node) : List (Nat × Nat × Nat × Nat × Nat) :=
  ((compRecs n.chart.comp 9 5).filter fun r => r.words.getD 2 0 == n.postcode && r.words.getD 0 0 != n.postcode).map
    fun r => (r.index, r.words.getD 0 0, r.words.getD 1 0, r.words.getD 3 0, r.words.getD 4 0)

/-- Set a T2 store aside on the lowest pool-server quad with room and register its key for its client (R193). -/
def Node.layStore (n : Node) (s : Nat × Nat × Nat × Nat × Nat) : Node :=
  let (i, client, part, len, key) := s
  match n.quadList.findSome? fun q =>
      if n.poolServer q && (n.quad q).st != .offline then (n.findFree q len).map fun g => (q, g) else none with
  | none => n
  | some (q, g) =>
    (n.setClass q g len .system i 4).modKey (keyIndex key) fun e =>
      { e with valid := true, gen := keyGen key, secret := keySecretOf key, kind := 0, rights := 3, srcPrefix := client,
               srcLen := 32, base := granAddr q g, size := len * 4096, partition := part, extent := none, withdrawn := false }

/-- The runs of a quad that lie in hosted T2 stores, RETIRE_PENDING granules among them. -/
def Node.storeRuns (n : Node) (q : Nat) : List (Nat × GRun) := (n.quadRuns q).filter fun r => r.2.isStore

/-- A run of a T2 store is freed: the store's key is revoked, pending granules retire (R220). -/
def Node.freeStore (n : Node) (q : Nat) (r : Nat × GRun) : Node :=
  let a := granAddr q r.1
  (n.revokeAll fun e => e.extent.isNone && e.kind == 0 && decide (e.base ≤ a) && decide (a < e.base + e.size)).freeRange q r.1 r.2.len

/-- Does the node already keep a store under this key? -/
def Node.storeLaid (n : Node) (s : Nat × Nat × Nat × Nat × Nat) : Bool :=
  let e := n.keyEnt s.2.2.2.2
  e.valid && e.gen == keyGen s.2.2.2.2 && e.secret == keySecretOf s.2.2.2.2 && e.size == s.2.2.2.1 * 4096 &&
    (n.storeRuns (addrQuad e.base)).any fun r => decide (r.1 ≤ addrGran e.base) && decide (addrGran e.base < r.1 + r.2.len)

/-- Stores a composition no longer names go: their keys are revoked and their granules freed. -/
def Node.dropStores (n : Node) (kept : List (Nat × Nat × Nat × Nat × Nat)) : Node :=
  forEach n.quadList n fun n q =>
    forEach (n.storeRuns q) n fun n r =>
      let a := granAddr q r.1
      let keep := kept.any fun s =>
        let e := n.keyEnt s.2.2.2.2
        n.storeLaid s && decide (e.base ≤ a) && decide (a < e.base + e.size)
      if keep then n else n.freeStore q r

/-- Lay out the stores of the composition in force. -/
def Node.layStores (n : Node) : Node :=
  let ss := n.ownStores
  forEach ss (n.dropStores ss) fun n s => if n.storeLaid s then n else n.layStore s

/-- Ports begin training once a chart gives their modes (R458). -/
def Node.startPorts (n : Node) : Node :=
  forEach n.portList n fun n p =>
    if n.cw 10 1 p 0 0 ≠ 0 ∧ (n.port p).st = .disabled then
      n.modPort p fun s => { s with st := .training, lanes := 255, limit := 8 }
    else n

/-- RATE_PER_MS and BURST of a class (R438). -/
def Node.survRate (n : Node) (cls : Nat) : Nat := n.cw 12 1 cls 0 ([16, 256, 64, 16384].getD cls 0)
def Node.survBurst (n : Node) (cls : Nat) : Nat :=
  max (n.survRate cls) (n.cw 12 1 cls 1 ([64, 4096, 1024, 65535].getD cls 0))

/-- The free level: the highest debug level without a token (R380); in OWNED the chart gives it where it is owner-signed
(R377). -/
def Node.freeLevel (n : Node) : Nat :=
  match n.sec.st with
  | .blank => 3
  | .returned => 2
  | .owned => if n.sec.chartByOwner then n.cw 13 1 0xFFFF 0 0 else 0

/-- ⌈SPAN ÷ TICK_PERIOD⌉ (R345). -/
def Node.retention (n : Node) : Nat := ceilDiv n.spanNs n.time.period

/-! ## Loading a chart (R344) -/

/-- CHART_CTL.LOAD, with the image at the source: honoured in WAITING and REJECTED only, and from HBM only once step 9 has
ended (R458). Of poisoned HBM nothing is read, so that the image fails check 1 (log entry 111). -/
def Node.chartLoad (n : Node) (image : Bytes) : Node :=
  let src := n.rd R.CHART_SRC_ADDR 0
  if (n.chart.st = .waiting ∨ n.chart.st = .rejected) ∧ (bitAt src 63 ∨ n.boot.hbmReady) ∧ !n.boot.ownerErr then
    let len := n.rd R.CHART_LEN_BYTES 0
    let bs := if !bitAt src 63 && n.poisoned (src % 2 ^ 41) len then [] else n.namedBytes src len image
    n.modChart fun c => { c with st := .verifying, loading := bs }
  else n

/-- The whole chart takes effect at once. -/
def Node.chartInForce (n : Node) (bs : Bytes) (comp : List ChartSec) : Node :=
  let n := n.modChart fun c =>
    { c with st := .inForce, comp := comp, epoch := imgEpoch bs, switchTick := none, switchNs := 0, retireAt := none,
             serial := imgSerial bs, ovlSerial := 0, chartVer := imgSecVer bs, secVer := imgSecVer bs, loading := [],
             staged := [] }
  let n := n.modSec fun s => { s with chartByOwner := decide (s.st = .owned), mChart := sha384 (bs.take (imgSigned bs)),
                                      mOverlays := List.replicate 48 0 }
  let n := n.modSec fun s => { s with level := if s.token.isSome then max n.freeLevel s.level else n.freeLevel }
  let n := (n.startTime).loadRules.loadRoutes
  let n := n.modSurvey fun s => { s with tokens := (upTo 4).map n.survBurst, rxTokens := n.cw 12 4 0xFFFF 1 16 }
  let n := if n.boot.hbmReady then forEach n.quadList n fun n q => n.layHost q else n
  n.startPorts

/-- Verification ends: IN_FORCE or REJECTED. -/
def Node.chartVerified (n : Node) : Node :=
  if n.chart.st ≠ .verifying then n
  else
    let bs := n.chart.loading
    match n.checkImage false bs (n.rd R.CHART_LEN_BYTES 0) n.chart.comp with
    | .error r => (n.modChart fun c => { c with st := .rejected, loading := [] }).captureReject false r
    | .ok (_, comp) => n.chartInForce bs comp

/-! ## Staging an overlay (R345) -/

/-- What an overlay follows: the composition, its epoch, its switch tick, and the period after it. -/
def Node.lastStaged (n : Node) : List ChartSec × Nat × Option Nat × Nat :=
  match n.chart.staged.getLast? with
  | some o => (o.comp, o.newEpoch, some o.namedTick, o.period)
  | none => (n.chart.comp, n.chart.epoch, n.chart.switchTick, n.time.period)

/-- DETAIL of a rejected overlay (R343). -/
def Node.rejectDetail (n : Node) (r : Reject) : Nat := r.code % 256 + r.sectId % 256 * 256 + n.chart.epoch * 65536

/-- Check 14: the epoch, the spacing, the capacity. -/
def Node.overlayEpochBad (n : Node) (bs : Bytes) : Bool :=
  let (comp, epoch, last, period) := n.lastStaged
  let ret := ceilDiv (compWord comp 6 4 0xFFFF 0 50000) period
  imgEpoch bs != epoch || decide (4 ≤ n.chart.staged.length) ||
    last.any fun s => decide (tickDiff (imgTick bs) s < (ret : Int))

/-- Checks 1 to 14 of an overlay's image against the last staged overlay: its sections and the composition it makes. -/
def Node.checkOverlay (n : Node) (img : Bytes) (len : Nat) : Except Reject (List ChartSec × List ChartSec) :=
  match n.checkImage true img len n.lastStaged.1 with
  | .error r => .error r
  | .ok x => if n.overlayEpochBad img then .error ⟨14, 0, 0, 0, stBadState⟩ else .ok x

/-- OVERLAY_APPLY at fetch: the image is read, from HOST-class granules or host memory (R273, R306, log entry 110), and
checked until OVERLAY_STAGED (R353). With no earlier image under
checking, one that fails checks 1 to 14 is rejected at once (log entry 46). -/
def Node.overlayApply (n : Node) (ref : CmdRef) (bs data : Bytes) : Applied :=
  let len := cmdD bs 0x18
  match n.namedFault 32 (cmdQ bs 0x10) len with
  | (some e, n) => .done e.1 e.2 0 n
  | (none, n) =>
  let img := n.namedBytes (cmdQ bs 0x10) len data
  let held : Applied := .later (n.modChart fun c => { c with checking := c.checking ++ [(ref, len, img)] })
  if n.chart.checking ≠ [] then held
  else match n.checkOverlay img len with
    | .error r => .done r.status (n.rejectDetail r) 0 (n.captureReject true r)
    | .ok _ => held

/-- B(k) by the schedule the staged overlays leave. -/
def Node.boundaryAfter (n : Node) (k : Nat) : Nat :=
  let step (s : Int × Nat × Nat) (o : Overlay) : Int × Nat × Nat :=
    (s.1 + tickDiff o.namedTick s.2.1 * s.2.2, o.namedTick, o.period)
  let s := n.chart.staged.foldl step ((n.boundary n.time.tick : Nat), n.time.tick, n.time.period)
  toUnsigned 64 (s.1 + tickDiff k s.2.1 * s.2.2)

/-- Checking of the image at a place of the list ends: it is rejected, or staged in every sheet (R345, R353). -/
def Node.overlayStaged (n : Node) (i : Nat) : Node :=
  match n.chart.checking[i]? with
  | none => n
  | some (ref, len, img) =>
    let n := n.modChart fun c => { c with checking := c.checking.eraseIdx i }
    let reject (r : Reject) : Node := (n.captureReject true r).complete ref r.status (n.rejectDetail r) 0
    match n.checkOverlay img len with
    | .error r => reject r
    | .ok (secs, comp) =>
      if sdiff 64 (n.boundaryAfter (imgTick img)) n.now < (n.time.period : Int) then reject ⟨15, 0, 0, 0, stExpired⟩
      else
        let (_, epoch, _, period) := n.lastStaged
        let o : Overlay := { cmd := ref, namedTick := imgTick img, newEpoch := (epoch + 1) % 2 ^ 16, serial := imgSerial img,
                             secVer := imgSecVer img, comp := comp, period := compWord secs 6 1 0xFFFF 0 period,
                             sections := secs.map (·.typ), digest := sha384 (img.take (imgSigned img)) }
        n.modChart fun c => { c with staged := c.staged ++ [o] }

/-! ## The switch and retirement (R345 to R352) -/

/-- What the composition's change sets in motion (R348, R352). -/
def Node.afterSwitch (n : Node) (secs : List Nat) (old : List ChartSec) : Node :=
  let n := if secs.contains 15 then n.loadRules else n
  let n := if secs.contains 7 then n.loadRoutes else n
  let n := if secs.contains 9 then (forEach n.quadList n fun n q => n.layHost q).layStores else n
  let n := if secs.contains 9 then forEach (upTo 32) n fun n p => n.trimT0 n.office.t0.length p else n
  if secs.contains 2 then
    n.withdrawOther fun x => bitAt (compWord old 2 1 (addrQuad x.base) 0 0) 2 && !n.poolServer (addrQuad x.base)
  else n

/-- A period change: B(k0) keeps the old schedule (R45). -/
def Node.changePeriod (n : Node) (k0 period : Nat) : Node :=
  if period = n.time.period then n
  else
    let o := (n.boundary k0 + 2 ^ 112 - k0 * period) % 2 ^ 64
    (n.modTime fun t => { t with origin := o, period := period }).wr R.TICK_STATUS_PERIOD_CHANGED 0 1

/-- The overlay at the head takes effect at the present tick's boundary, where it is its named tick. -/
def Node.overlaySwitch (n : Node) : Node :=
  match n.chart.staged with
  | [] => n
  | o :: rest =>
    if 0 < tickDiff o.namedTick n.time.tick then n
    else
      let old := n.chart.comp
      let s := o.namedTick
      let n := n.modChart fun c => { c with comp := o.comp, epoch := o.newEpoch, switchTick := some s, switchNs := n.boundary s,
                                            ovlSerial := o.serial, secVer := o.secVer, staged := rest }
      let n := n.changePeriod s o.period
      let n := n.modChart fun c => { c with retireAt := some ((s + n.retention) % 2 ^ 48) }
      let n := n.modSec fun x => { x with mOverlays := sha384 (x.mOverlays ++ o.digest) }
      let n := (n.inc R.CHART_CNT_APPLIED 0 1).afterSwitch o.sections old
      n.complete o.cmd stDone 0 (s + o.newEpoch * 2 ^ 48)

/-- Every redirect with an older epoch whose target is its slot's placement becomes NONE (R351). -/
def Node.redirectRetirement (n : Node) : Node :=
  match n.chart.retireAt with
  | none => n
  | some k =>
    if 0 < tickDiff k n.time.tick then n
    else
      let n := n.modChart fun c => { c with retireAt := none }
      let old (l : Nat × Leaf) : Bool :=
        l.2.st == .redirect && decide (0 < sdiff 16 n.chart.epoch l.2.epoch) &&
          (match mapFind? n.seqs (l.1 / 2 ^ 32) with
           | none => false
           | some s => n.placePc s (l.1 % 2 ^ 32) == l.2.postcode)
      forEach ((n.leaves.filter old).map Prod.fst) n fun n k =>
        (n.clearLeaf k).inc R.CHART_RETIRE_CNT_LEAVES 0 1

/-- Boundary action 3: the retirement that is due, then the overlay of this tick. -/
def Node.chartBoundary (n : Node) : Node := n.redirectRetirement.overlaySwitch

end Sys2Proof.Machine
end

