-- ==== Sys2Proof/Machine/Partition.lean ====
section
/-!
DEFINITION. Partitions: creation and destruction (R355 to R358), clearing and scrubbing of quads (R359, R360), PARTITION_SCRUB
(R361), what a scrub's end does, and a quad that goes OFFLINE (R214, R360).
-/

namespace Sys2Proof.Machine

def PartState.code : PartState → Nat
  | .free => 0 | .active => 1 | .destroying => 2

def QuadState.code : QuadState → Nat
  | .unassigned => 0 | .assigned => 1 | .clearing => 2 | .scrubbing => 3 | .offline => 4

/-- DETAIL of a BAD_STATE of these commands (R356). -/
def Node.partDetail (n : Node) (p : Nat) (quad : Option Nat) (security : Bool) : Nat :=
  (n.part p).st.code + (match quad with | none => 0 | some q => (n.quad q).st.code * 2 ^ 8 + q * 2 ^ 16) + b2n security * 2 ^ 24

/-- The quads a mask names, ascending. -/
def maskQuads (m : Nat) : List Nat := (upTo 32).filter fun q => bitAt m q

def partOf (bs : Bytes) : Nat := cmdBits bs 0x10 0 5
def quadsOf (bs : Bytes) : Nat := cmdD bs 0x14

/-! ## PARTITION_CREATE (R356, R384) -/

def Node.partitionCreate (n : Node) (bs : Bytes) : Applied :=
  let p := partOf bs
  let m := quadsOf bs
  let mask := n.cw 1 1 p 0 0
  if m = 0 ∨ (m &&& mask) ≠ m ∨ 2 ^ n.nQuads ≤ m then failCmd n stBadLength 0
  else if n.sec.st ≠ .owned ∨ (n.sec.level = 3 ∧ !(n.sec.token.all fun t => bitAt t.partitions p)) then
    failCmd n stBadState (n.partDetail p none true)
  else if (n.part p).st ≠ .free then failCmd n stBadState (n.partDetail p none false)
  else match (maskQuads m).find? fun q => (n.quad q).st != .unassigned with
    | some q => failCmd n stBadState (n.partDetail p (some q) false)
    | none =>
      let gen := ((n.part p).gen + 1) % 2 ^ 16
      let n := n.modPart p fun x => { x with st := .active, gen := gen, quads := m, destroy := none, filled := 0 }
      let n := forEach (maskQuads m) n fun n q => n.modQuad q fun x => { x with st := .assigned, owner := p }
      .done stDone 0 gen (n.inc R.PART_CNT_CREATED 0 1)

/-! ## What PARTITION_SCRUB fills (R361) -/

/-- Does an extent that is not FREE hold a granule of a run? The parts of a run outside such extents. -/
def Node.outsideExtents (n : Node) (q : Nat) (g len : Nat) : List (Nat × Nat) :=
  let xs := (n.pool.exts.filter fun e => e.2.st != .free && addrQuad e.2.base == q).map fun e =>
    (addrGran e.2.base, ({ (default : GRun) with len := e.2.size / 4096 }))
  freeGaps g (g + len) (sortOn (fun r => r.1) xs)

/-- The ranges of a quad PARTITION_SCRUB fills: FREE granules, and with HOST those of no extent. -/
def Node.scrubRanges (n : Node) (q : Nat) (host : Bool) : List (Nat × Nat) :=
  freeGaps 0 reservedGran (n.quadRuns q) ++
    (if host then ((n.quadRuns q).filter fun r => r.2.cls == .host).flatMap fun r => n.outsideExtents q r.1 r.2.len else [])

/-- A PARTITION_SCRUB's share on one quad is over, with what it filled; ABORTED once a share was stopped (R224). -/
def Node.scrubPartEnds (n : Node) (id bytes : Nat) (stopped : Bool) : Node :=
  match mapFind? n.nme.scrubs id with
  | none => n
  | some s =>
    let s := { s with left := s.left - 1, bytes := s.bytes + bytes, broken := s.broken || stopped }
    if s.left = 0 then
      (n.modNme fun x => { x with scrubs := mapErase x.scrubs id }).complete s.cmd (if s.broken then stAborted else stDone) 0 s.bytes
    else n.modNme fun x => { x with scrubs := mapSet x.scrubs id s }

/-- The first granules of a list of runs. -/
def takeGrans : Nat → List (Nat × Nat) → List (Nat × Nat)
  | _, [] => []
  | k, r :: rs => if k ≤ r.2 then [(r.1, k)] else r :: takeGrans (k - r.2) rs

/-- A fill of PARTITION_SCRUB stops with ABORTED (R224): what it filled stays zero (log entry 95). -/
def Node.fillAborts (n : Node) (id : Nat) : Node :=
  let o := n.nmeOp id
  let (v, n) := n.fresh
  let gs := if o.active then takeGrans (min o.need (o.done + v % (n.nmeRoom o + 1))) (n.scrubRanges o.quad (o.who % 2 == 1)) else []
  let n := forEach gs n fun n g => n.hbmZero (granAddr o.quad g.1) (g.2 * 4096)
  let bytes := listSum (gs.map (·.2)) * 4096
  let n := if o.byCores then n.modNme fun m => { m with ops := mapErase m.ops id } else n.nmeEnd id stAborted bytes bytes
  n.scrubPartEnds (o.who / 2) bytes true

/-- The fills of PARTITION_SCRUB that a test names stop. -/
def Node.fillsAbort (n : Node) (t : NmeOp → Bool) : Node :=
  forEach ((n.nme.ops.filter fun o => o.2.scrub == 2 && t o.2).map Prod.fst) n fun n id => n.fillAborts id

/-! ## PARTITION_DESTROY -/

/-- A DESTROYING partition whose last quad is UNASSIGNED or OFFLINE becomes FREE (R357). -/
def Node.tryFreePart (n : Node) (p : Nat) : Node :=
  let x := n.part p
  if x.st = .destroying ∧ (maskQuads x.quads).all (fun q => !((n.quad q).owner == p &&
      ((n.quad q).st == .clearing || (n.quad q).st == .scrubbing))) then
    let n := n.modPart p fun x => { x with st := .free, quads := 0, destroy := none }
    let n := forEach ((maskQuads x.quads).filter fun q => (n.quad q).owner == p) n fun n q => n.modQuad q fun y => { y with owner := 0 }
    (n.inc R.PART_CNT_DESTROYED 0 1).completeOpt x.destroy stDone 0 x.filled
  else n

/-- Shares and merge contexts of a partition end with ABORTED, without a tombstone (R358). -/
def Node.abortShares (n : Node) (p : Nat) : Node :=
  let n := forEach (n.office.shares.filter fun s => s.open' && s.partition == p) n fun n s => n.failShare s stAborted 0
  let n := forEach (n.office.merges.filter fun m => m.live && n.mergePart m == some p) n fun n m => n.endMerge m stAborted
  n.modOffice fun o => { o with merges := o.merges.filter fun m => n.mergePart m != some p }

/-- The T2 stores hosted on a quad go: keys revoked, granules freed. -/
def Node.freeStoresOn (n : Node) (q : Nat) : Node :=
  forEach (n.storeRuns q) n fun n r => n.freeStore q r

/-- The destruction of an ACTIVE partition (R358). -/
def Node.destroyPart (n : Node) (p : Nat) (cmd : Option CmdRef) : Node :=
  if (n.part p).st ≠ .active then n
  else
    let n := n.abortShares p
    let n := n.revokeAll fun e => e.partition == p
    let n := n.withdrawOther fun x => x.partition == p
    let n := n.freeQps p
    let n := forEach (mapKeys n.host.boxes) n fun n b =>
      if n.rd R.PB_CFG_OWNER (boxBase b) = p ∧ (n.box b).st ≠ .disabled then n.boxReset b else n
    let n := forEach ((n.seqs.filter fun s => s.2.partition == p).map Prod.fst) n fun n s => n.closeSeq s
    let n := n.modMig fun m => { m with low := m.low.filter fun l => l.partition != p }
    let qs := n.quadList.filter fun q => (n.quad q).owner == p && (n.quad q).st == .assigned
    let n := forEach qs n fun n q => n.freeStoresOn q
    let n := forEach n.sheetList n fun n s => n.gzDrop s fun c => c.partition == p
    let n := (n.nmeAbort fun o => o.partition == p).fillsAbort fun o => o.partition == p
    let n := n.modOffice fun o => { o with routeCache := o.routeCache.filter fun e => e.partition != p }
    let n := forEach qs n fun n q => n.modQuad q fun x => { x with st := .clearing, clearLeft := true }
    (n.modPart p fun x => { x with st := .destroying, destroy := cmd, filled := 0 }).tryFreePart p

def Node.partitionDestroy (n : Node) (ref : CmdRef) (bs : Bytes) : Applied :=
  let p := partOf bs
  if (n.part p).st ≠ .active then failCmd n stBadState (n.partDetail p none false)
  else .later (n.destroyPart p (some ref))

/-! ## Clearing and scrubbing (R359, R360) -/

/-- A core's error capture (R118). -/
def coreCapture : List Fld :=
  [R.CORE_ERR_STATUS_ABFT, R.CORE_ERR_STATUS_SPAD_CE, R.CORE_ERR_STATUS_SPAD_UE, R.CORE_ERR_STATUS_CANCEL,
   R.CORE_ERR_STATUS_FOLD_DAMAGE, R.CORE_ERR_TICK_TICK, R.CORE_ERR_TICK_KIND, R.CORE_ERR_INFO_ARRAY, R.CORE_ERR_INFO_ROW,
   R.CORE_ERR_INFO_BLOCK, R.CORE_ERR_INFO_TILE, R.CORE_ERR_INFO_EXPECTED, R.CORE_ERR_INFO_OBSERVED, R.CORE_ERR_PAGE_QUAD,
   R.CORE_ERR_PAGE_GRANULE]

/-- What on-die clearing clears of one quad. -/
def Node.clearQuad (n : Node) (q : Nat) : Node :=
  let p := (n.quad q).owner
  let n := forEach (quadCores q) n fun n c => (n.clr (coreCounters ++ coreCapture) (coreBase c)).modCore c fun x => { x with scratch := [], zeroTo := 2 ^ 22, badWords := [] }
  let n := n.modPasses fun ps => ps.filter fun x => coreQuad x.core != q
  let n := forEach ((mapKeys n.office.t0).filter fun f => frameQuad f == q) n fun n f => n.dropT0 f
  let n := forEach n.sheetList n fun n s => n.gzDrop s fun c => c.quad == q
  n.modOffice fun o => { o with staged := mapKeep (fun _ s => s.partition != p) o.staged }

/-- The runs of a quad a scrub leaves alone: the node's SYSTEM structures and RETIRED granules; RETURN fills SYSTEM
granules too. -/
def Node.keptRuns (n : Node) (q : Nat) (system : Bool) : List (Nat × GRun) :=
  (n.quadRuns q).filter fun r => r.2.cls == .retired || (!system && r.2.cls == .system)

/-- The granules a scrub of a quad fills. -/
def Node.fillCount (n : Node) (q : Nat) (system : Bool) : Nat :=
  listSum ((freeGaps 0 reservedGran (n.keptRuns q system)).map (·.2))

/-- Fill a quad with zeros: granules filled, and the node after it. -/
def Node.fillQuad (n : Node) (q : Nat) (system : Bool) : Nat × Node :=
  (n.fillCount q system,
    forEach (freeGaps 0 reservedGran (n.keptRuns q system)) n fun n g => n.hbmZero (granAddr q g.1) (g.2 * 4096))

/-- The scrub of a quad starts. -/
def Node.scrubQuad (n : Node) (q : Nat) : Node :=
  let n := n.modQuad q fun x => { x with st := .scrubbing, clearLeft := false }
  n.startScrub q 1 q (n.quad q).owner (granAddr q 0) (reservedGran * 4096) (n.fillCount q false)

/-- On-die clearing is finished: SCRUBBING. -/
def Node.quadClearDone (n : Node) (q : Nat) : Node :=
  if (n.quad q).st = .clearing then (n.clearQuad q).scrubQuad q else n

/-- A quad's scrub is complete: UNASSIGNED. -/
def Node.quadScrubbed (n : Node) (q bytes : Nat) : Node :=
  if (n.quad q).st = .scrubbing then
    let p := (n.quad q).owner
    let n := n.modQuad q fun x => { x with st := .unassigned, owner := 0, returning := false }
    (n.modPart p fun x => if x.st = .destroying ∧ bitAt x.quads q then { x with filled := x.filled + bytes } else x).tryFreePart p
  else n

/-! ## PARTITION_SCRUB (R361) -/

def Node.partitionScrub (n : Node) (ref : CmdRef) (bs : Bytes) : Applied :=
  let p := partOf bs
  let m := quadsOf bs
  if (n.part p).st ≠ .active then failCmd n stBadState (n.partDetail p none false)
  else if (m &&& (n.part p).quads) ≠ m then failCmd n stBadLength 0
  else match (maskQuads m).filter fun q => (n.quad q).st == .assigned with
    | [] => .done stDone 0 0 n
    | qs =>
      let id := n.nme.nextId + 1
      let n := n.modNme fun x => { x with nextId := id, scrubs := mapSet x.scrubs id ⟨ref, qs.length, 0, false⟩ }
      .later (forEach qs n fun n q =>
        n.startScrub q 2 (id * 2 + cmdBits bs 0x10 5 1) p (granAddr q 0) (reservedGran * 4096)
          (listSum ((n.scrubRanges q (cmdBits bs 0x10 5 1 == 1)).map (·.2))))

/-! ## The end of a scrub -/

/-- A fill of RETURN has ended, or is given up (R378). -/
def Node.returnEnds (n : Node) : Node :=
  n.modSec fun s => { s with work := match s.work with | some (.returning k) => some (.returning (k - 1)) | w => w }

/-- The zeros of a scrub: bytes filled, and the node after it (R225). -/
def Node.scrubFill (n : Node) (o : NmeOp) : Nat × Node :=
  match o.scrub with
  | 2 =>
    let gs := n.scrubRanges o.quad (o.who % 2 == 1)
    (listSum (gs.map (·.2)) * 4096, forEach gs n fun n g => n.hbmZero (granAddr o.quad g.1) (g.2 * 4096))
  | 3 => (o.len, n.hbmZero o.addrA o.len)
  | kind =>
    let (k, n) := n.fillQuad o.quad (kind == 4)
    (k * 4096, n)

/-- What a completed scrub served moves on. -/
def Node.scrubServed (n : Node) (o : NmeOp) (bytes : Nat) : Node :=
  match o.scrub with
  | 1 => n.quadScrubbed o.quad bytes
  | 2 => n.scrubPartEnds (o.who / 2) bytes false
  | 3 => n.extentFreed o.who
  | _ => n.returnEnds

/-- A scrub ends: a FILL of the engine like others, or of the cores. -/
def Node.scrubDone (n : Node) (id : Nat) : Node :=
  match mapFind? n.nme.ops id with
  | none => n
  | some o =>
    if o.scrub = 0 ∨ !o.active ∨ n.nmeWaits o ∨ !n.nmeReached o then n
    else
      let (bytes, n) := (n.nmeUse id (n.nmeRoom o)).scrubFill o
      let n := if o.byCores then n.modNme fun m => { m with ops := mapErase m.ops id } else n.nmeEnd id stDone bytes bytes
      n.scrubServed o bytes

/-- An engine operation's end (NME_OP_COMPLETE): a command's, or a scrub's. -/
def Node.nmeOpEnds (n : Node) (id : Nat) : Node :=
  let o := n.nmeOp id
  if o.scrub = 0 then n.nmeComplete id else if o.byCores then n else n.scrubDone id

/-- Granules the scrub of a tenant switch has yet to fill, up to `free` of them in the current tick. -/
def Node.scrubLeft (n : Node) (q free : Nat) : Nat :=
  match n.nme.ops.find? fun o => o.2.quad == q && o.2.scrub == 1 with
  | none => 0
  | some o => o.2.need - o.2.done - free % (n.nmeRoom o.2 + 1)

/-- The core write path has filled the range (R225). -/
def Node.corePathScrubDone (n : Node) (id : Nat) : Node := if (n.nmeOp id).byCores then n.scrubDone id else n

/-! ## A quad goes OFFLINE -/

/-- The first quad that holds a run of a SYSTEM kind. -/
def Node.systemQuad (n : Node) (kind : Nat) : Option Nat :=
  (n.granules.find? fun p => p.2.cls == .system && p.2.kind == kind).map fun p => p.1 / 2 ^ 24

/-- Scrubs on a quad stop, ABORTED as operations of its engine (R224): RETURN goes on without it, an extent stalls. -/
def Node.stopScrubs (n : Node) (q : Nat) : Node :=
  let n := n.fillsAbort fun o => o.quad == q
  let gone := n.nme.ops.filter fun o => o.2.quad == q && o.2.scrub != 0
  let n := forEach gone n fun n o =>
    let n := if o.2.byCores then n.modNme fun m => { m with ops := mapErase m.ops o.1 }
      else n.nmeEnd o.1 stAborted (o.2.bytesAfter o.2.done) 0
    if o.2.scrub = 4 then n.returnEnds else n
  n.stallExtents q

/-- A quad goes OFFLINE at this boundary. -/
def Node.quadOffline (n : Node) (q : Nat) : Node :=
  let was := (n.quad q).st
  let owner := (n.quad q).owner
  let n := n.modQuad q fun x => { x with st := .offline, goOffline := false, clearLeft := false,
                                         returning := was == .clearing || was == .scrubbing }
  let n := n.nmeAbort fun o => (o.quad :: (o.dests ++ o.sources).map fun r => addrQuad r.1).contains q
  let n := n.withdrawOther fun x => addrQuad x.base == q
  let n := n.stopScrubs q
  let n := forEach ((n.mig.moves.filter fun m => m.2.quad == q).map Prod.fst) n fun n id => n.undoMove id
  let n := forEach ((mapKeys n.office.t0).filter fun f => frameQuad f == q) n fun n f => n.dropT0 f
  let n := if n.systemQuad 6 = some q then n.modSurvey fun s => { s with lost := true } else n
  if was = .clearing ∨ was = .scrubbing then (n.wr R.PART_ERR_STATUS_SCRUB_STALLED 0 1).tryFreePart owner else n

/-- Every quad whose training failed goes OFFLINE (R214). -/
def Node.quadsOffline (n : Node) : Node :=
  forEach (n.quadList.filter fun q => (n.quad q).goOffline) n fun n q => n.quadOffline q

end Sys2Proof.Machine
end

