-- ==== Sys2Proof/Machine/Security.lean ====
section
/-!
DEFINITION. Security states and SEC_CMD (R371, R377, R378), debug levels and tokens (R380 to R385).
-/

namespace Sys2Proof.Machine

def SecState.code : SecState → Nat
  | .blank => 0 | .owned => 1 | .returned => 2

/-- Is every partition FREE? -/
def Node.allFree (n : Node) : Bool := (upTo 32).all fun p => (n.part p).st == .free

/-- DETAIL of a BAD_STATE from SEC_CMD (R377). -/
def Node.secDetail (n : Node) : Nat := n.sec.st.code + n.sec.level * 4 + b2n (!n.allFree) * 16

/-- SEC_CMD is over: its status, BUSY clear. -/
def Node.secEnds (n : Node) (status detail : Nat) : Node :=
  (n.modSec fun s => { s with busy := false, work := none }).wrs 0
    [(R.SEC_CMD_STATUS_STATUS, status), (R.SEC_CMD_STATUS_DETAIL, detail)]

def Node.secBad (n : Node) : Node := n.secEnds stBadState n.secDetail

/-! ## The debug level (R385) -/

/-- Every halt ends and every breakpoint is cleared. -/
def Node.endDebug (n : Node) : Node :=
  n.modDebug fun d => { d with halted := false, cause := 0, wantHalt := 0, wantBp := 0, wantRun := false, stepping := false,
                               sched := [], bps := [], frozen := [] }

/-- Set the debug level: a change clears the hold counters (R402); on a fall any halt ends and every breakpoint is cleared. -/
def Node.setLevel (n : Node) (lvl : Nat) : Node :=
  let n := if lvl < n.sec.level then n.endDebug else n
  let n := if lvl ≠ n.sec.level then n.modDebug fun d => { d with sent := 0, honoured := 0, ignored := 0 } else n
  n.modSec fun s => { s with level := lvl }

/-- The security state changes: the free level of the new state, no token. -/
def Node.newState (n : Node) (st : SecState) : Node :=
  let n := n.modSec fun s => { s with st := st, token := none, pendingTok := none, destroying := 0,
                                      chartByOwner := s.chartByOwner && st == .owned }
  n.setLevel n.freeLevel

/-! ## State records (R377) -/

/-- Bytes beyond an object's end read as 0. -/
def objAt (bs : Bytes) (off len : Nat) : Nat := leAt bs off len

/-- The record fails its format checks for an operation. -/
def Node.recordBad (n : Node) (op : Nat) (bs : Bytes) : Bool :=
  objAt bs 0 8 != 0x52454E574F415856 || objAt bs 8 2 != 1 || objAt bs 10 1 != op || objAt bs 11 5 != 0 ||
    objAt bs 0x10 8 != n.ident.serial || objAt bs 0x18 8 != (Config.secNonce n.sec.nonceNo).toNat ||
    (op != 1 && (objAt bs 0x20 48 != 0 || objAt bs 0x50 48 != 0)) || objAt bs 0x80 128 != 0

def opKind (op : Nat) : SignedKind := match op with | 1 => .own | 2 => .ret | _ => .reprovision

/-- The class whose keys a record needs now; REPROVISION is also accepted while the owner area is lost (R368). -/
def Node.recordClass (n : Node) (op : Nat) : Option Nat :=
  if op = 3 ∧ n.sec.st = .owned ∧ n.sec.ownerAbsent then some 1 else keyClass n.sec.st (opKind op)

/-- What a verified record will do. -/
def recordWork (op : Nat) (bs : Bytes) : SecWork :=
  match op with
  | 1 => .own (objAt bs 0x20 48) (objAt bs 0x50 48)
  | 2 => .ret
  | _ => .reprovision

/-- RETURN starts its fills (R378): DL0, every key revoked, every stack filled. -/
def Node.startReturn (n : Node) : Node :=
  let n := ((n.modSec fun s => { s with token := none, pendingTok := none }).setLevel 0).endDebug
  let n := n.revokeAll fun _ => true
  let qs := n.quadList.filter fun q => (n.quad q).st != .offline
  let n := n.modSec fun s => { s with work := some (.returning qs.length) }
  forEach qs n fun n q => n.startScrub q 4 q 32 (granAddr q 0) (reservedGran * 4096) (n.fillCount q true)

/-- Every fill of RETURN is done: the owner area is erased, the state is RETURNED. -/
def Node.finishReturn (n : Node) : Node :=
  match n.sec.work with
  | some (.returning 0) =>
    let n := n.modSec fun s => { s with ownerEcdsa := 0, ownerLms := 0 }
    (n.newState .returned).secEnds stDone 0
  | _ => n

/-- What a SEC_CMD does in boundary action 5, after the post-box commands. -/
def Node.secBoundary (n : Node) : Node :=
  match n.sec.work with
  | some (.own e l) =>
    let n := n.modSec fun s => { s with ownerEcdsa := e, ownerLms := l, ownerAbsent := false, ctrChart := 0, ctrDebug := 0 }
    (n.newState .owned).secEnds stDone 0
  | some .ret => if n.allFree then n.startReturn.finishReturn else n.secBad
  | some .reprovision =>
    let n := n.modSec fun s => { s with ownerEcdsa := 0, ownerLms := 0, ownerAbsent := false, ctrChart := 0, ctrDebug := 0 }
    ((n.newState .blank).modBoot fun b => { b with ownerErr := false }).secEnds stDone 0
  | _ => n.finishReturn

/-! ## Debug tokens (R382, R383) -/

/-- A token's signed fields. -/
def tokenOf (bs : Bytes) : Token :=
  { level := bits (objAt bs 8 4) 16 2, secVer := objAt bs 0x0C 4, notBefore := objAt bs 0x18 8, notAfter := objAt bs 0x20 8,
    partitions := objAt bs 0x28 4, serial := objAt bs 0x30 8 }

/-- What a presented token fails, in the order of R382. -/
inductive TokenFault where
  | format | length | signature | rollback | clock | expired
  deriving DecidableEq, Repr

/-- The checks of R382 in order: the first that fails, none when the token passes. -/
def Node.tokenFault (n : Node) (bs : Bytes) : Option TokenFault :=
  let t := tokenOf bs
  let locked := n.time.st = .locked ∨ n.time.st = .holdover
  if objAt bs 0 8 ≠ 0x4755424544415856 ∨ objAt bs 8 2 ≠ 1 ∨ objAt bs 0x10 8 ≠ n.ident.serial ∨
      bits (objAt bs 8 4) 18 14 ≠ 0 ∨ objAt bs 0x2C 4 ≠ 0 ∨ objAt bs 0x38 8 ≠ 0 then some .format
  else if bs.length ≠ 2104 ∨ t.level = 0 ∨ t.notBefore + n.cw 13 1 0xFFFF 1 86400 * 1000000000 < t.notAfter then some .length
  else if !n.sec.accepts .token bs 64 then some .signature
  else if t.secVer < n.sec.ctrDebug then some .rollback
  else if !locked ∨ n.now < t.notBefore then some .clock
  else if t.notAfter ≤ n.now then some .expired
  else none

/-- SEC_CMD ends over a token that fails. -/
def Node.tokenFails (n : Node) (e : TokenFault) : Node :=
  match e with
  | .format => n.secEnds stBadFormat 0
  | .length => n.secEnds stBadLength 0
  | .signature => (n.wr R.SEC_ERR_STATUS_SIG_FAIL 0 1).secEnds stBadFormat 0
  | .rollback => (n.wr R.SEC_ERR_STATUS_ROLLBACK 0 1).secBad
  | .clock => n.secBad
  | .expired => n.secEnds stExpired 0

/-- A token is in force. -/
def Node.enterToken (n : Node) (t : Token) : Node :=
  let n := n.setLevel t.level
  (n.modSec fun s => { s with token := some t, pendingTok := none, destroying := 0 }).secEnds stDone 0

/-- A verified token at its boundary, in action 7, checked against the state and the keys of that moment (R393). -/
def Node.applyToken (n : Node) (bs : Bytes) (t : Token) : Node :=
  let n := n.modSec fun s => { s with pendingTok := none, destroying := 0 }
  if !n.sec.accepts .token bs 64 then n.tokenFails .signature
  else if t.level < n.sec.level then n.secEnds stDone 0
  else if t.level = 3 ∧ n.sec.st = .owned then
    let ps := (upTo 32).filter fun p => (n.part p).st == .active && !bitAt t.partitions p
    let n := forEach ps n fun n p => n.destroyPart p none
    let left := ps.filter fun p => (n.part p).st != .free
    if left = [] then n.enterToken t
    else n.modSec fun s => { s with pendingTok := some t, destroying := listSum (left.map fun p => 2 ^ p), work := none }
  else n.enterToken t

/-- A pending DL3 entry: cancelled past NOT_AFTER, entered once the last partition it waits for is FREE. -/
def Node.pendingToken (n : Node) : Node :=
  match n.sec.pendingTok with
  | none => n
  | some t =>
    if t.notAfter ≤ n.now then
      (n.modSec fun s => { s with pendingTok := none, destroying := 0 }).secEnds stExpired 0
    else if (maskQuads n.sec.destroying).all fun p => (n.part p).st == .free then n.enterToken t
    else n

/-- The first boundary at or after NOT_AFTER: the free level. -/
def Node.tokenExpiry (n : Node) : Node :=
  match n.sec.token with
  | none => n
  | some t =>
    if t.notAfter ≤ n.tickStart then
      ((n.modSec fun s => { s with token := none }).setLevel n.freeLevel).wr R.SEC_ERR_STATUS_TOKEN_EXPIRED 0 1
    else n

/-- DEBUG_LOWER: ARG, but never below the free level. -/
def Node.applyLower (n : Node) (arg : Nat) : Node :=
  let n := n.modSec fun s => { s with pendingTok := none, destroying := 0 }
  let lvl := max arg n.freeLevel
  let n := if lvl < n.sec.level then
      (n.setLevel lvl).modSec fun s => { s with token := if lvl ≤ n.freeLevel then none else s.token }
    else n
  n.secEnds stDone 0

/-- Boundary action 7's part of the debug levels. -/
def Node.levelBoundary (n : Node) : Node :=
  let n := n.tokenExpiry.pendingToken
  match n.sec.work with
  | some (.token bs t) => n.applyToken bs t
  | some (.lower a) => n.applyLower a
  | _ => n

/-! ## SEC_CMD -/

/-- A verified command waits for its boundary; where no ticks are generated there is none, and it is applied at once. -/
def Node.secWait (n : Node) (w : SecWork) : Node :=
  let n := n.modSec fun s => { s with busy := true, work := some w }
  if n.ticking then n else n.secBoundary.levelBoundary

/-- May a command start? A pending DL3 entry does not keep out a second token or DEBUG_LOWER, which cancel it (R383). -/
def Node.secFree (n : Node) (op : Nat) : Bool := !n.sec.busy || (n.sec.pendingTok.isSome && (op == 4 || op == 5))

/-- A write of SEC_CMD with GO: OP and ARG hold what was written; BUSY keeps others out, RETURN in progress refuses them, a
lost state area takes REPROVISION alone (R377, R378, R394; log entry 103). -/
def Node.secCmd (n : Node) (op arg : Nat) (f : Node → Node) : Node :=
  let n := n.wrs 0 [(R.SEC_CMD_OP, op), (R.SEC_CMD_ARG, arg)]
  let fresh (n : Node) : Node := n.modSec fun s => { s with nonceNo := s.nonceNo + 1 }
  match n.sec.work with
  | some (.returning _) =>
    fresh (n.wrs 0 [(R.SEC_CMD_STATUS_STATUS, stBadState), (R.SEC_CMD_STATUS_DETAIL, n.secDetail)])
  | _ =>
    if n.secFree op then
      let n := n.modSec fun s => { s with busy := false, pendingTok := none, destroying := 0 }
      fresh (if n.boot.ownerErr ∧ op ≠ 3 then n.secBad else f n)
    else n

/-- OWN, RETURN, REPROVISION with a record. -/
def Node.secRecord (n : Node) (op arg : Nat) (bs : Bytes) : Node :=
  n.secCmd op arg fun n =>
    if n.recordBad op bs then n.secEnds stBadFormat 0
    else if bs.length ≠ 2296 then n.secEnds stBadLength 0
    else match n.recordClass op with
      | none => n.secBad
      | some cls =>
        if !n.sec.verifies cls bs 256 then (n.wr R.SEC_ERR_STATUS_SIG_FAIL 0 1).secEnds stBadFormat 0
        else if op = 2 ∧ !n.allFree then n.secBad
        else n.secWait (recordWork op bs)

/-- DEBUG_TOKEN. -/
def Node.secToken (n : Node) (arg : Nat) (bs : Bytes) : Node :=
  n.secCmd 4 arg fun n =>
    match n.tokenFault bs with
    | none => if (tokenOf bs).level < n.sec.level then n.secEnds stDone 0 else n.secWait (.token bs (tokenOf bs))
    | some e => n.tokenFails e

/-- DEBUG_LOWER. -/
def Node.secLower (n : Node) (arg : Nat) : Node := n.secCmd 5 arg fun n => n.secWait (.lower arg)

/-- ADVANCE raises a rollback counter to the version in force (R371). -/
def Node.secAdvance (n : Node) (arg : Nat) : Node :=
  n.secCmd 6 arg fun n =>
    if 2 < arg then n.secEnds stBadFormat 0
    else
      let n := n.modSec fun s =>
        match arg with
        | 0 => { s with ctrFw := max s.ctrFw n.boot.fwVer }
        | 1 => { s with ctrChart := max s.ctrChart n.chart.secVer }
        | _ => { s with ctrDebug := max s.ctrDebug ((s.token.map (·.secVer)).getD 0) }
      n.secEnds stDone 0

/-- Is the object that SEC_CMD_ADDR names poisoned HBM (R411)? -/
def Node.secPoisoned (n : Node) : Bool :=
  let a := n.rd R.SEC_CMD_ADDR_ADDR 0
  !bitAt a 63 && n.poisoned (a % 2 ^ 41) (n.rd R.SEC_CMD_LEN_BYTES 0)

/-- SEC_CMD of any OP, over the object its registers name. -/
def Node.secAny (n : Node) (op arg : Nat) (bs : Bytes) : Node :=
  if 1 ≤ op ∧ op ≤ 4 ∧ n.secPoisoned then n.secCmd op arg fun n => n.secEnds stPoisoned 0
  else match op with
  | 1 | 2 | 3 => n.secRecord op arg bs
  | 4 => n.secToken arg bs
  | 5 => n.secLower arg
  | 6 => n.secAdvance arg
  | _ => n.secCmd op arg fun n => n.secEnds stBadFormat 0

end Sys2Proof.Machine
end

