-- ==== Sys2Proof/Machine/Spdm.lean ====
section
/-!
DEFINITION. The SPDM responder (R372 to R376): connection state, certificates, measurements, sessions, the two signatures of a
signed response and CXL IDE_KM. Message and error codes are those of DSP0274, which R372 names (PRESUMED, log entry 40).
-/

namespace Sys2Proof.Machine

def Node.conn (n : Node) (c : Nat) : SpdmConn := mapGet n.spdm c
def Node.modConn (n : Node) (c : Nat) (f : SpdmConn → SpdmConn) : Node := { n with spdm := mapMod n.spdm c f }

/-- Error codes of DSP0274. -/
def seInvalidRequest : Nat := 0x01
def seInvalidSession : Nat := 0x02
def seUnexpected : Nat := 0x04
def seUnspecified : Nat := 0x05
def seDecrypt : Nat := 0x06
def seUnsupported : Nat := 0x07
def seVersion : Nat := 0x41

/-- Answer with ERROR. -/
def Node.spdmError (n : Node) (c code : Nat) : Node :=
  n.modConn c fun x => { x with last := ⟨0x7F, code, [], false, 0⟩ }

/-- Answer with a response; the transcript takes the request and the response. -/
def Node.spdmAnswer (n : Node) (c code : Nat) (req content : Bytes) : Node :=
  n.modConn c fun x =>
    let body := Config.spdmBody code x.version content
    { x with last := ⟨code, 0, body, false, 0⟩, l1 := x.l1 ++ req ++ body }

/-! ## Signed responses (R374, R375) -/

def lmsTotal : Nat := 2 ^ 30

/-- Take the next HSS index, reserved before its signature is released; none when the key is exhausted. -/
def Node.takeHss (n : Node) : Option Nat × Node :=
  let q := n.sec.lmsNext
  if lmsTotal ≤ q then (none, n.wr R.SEC_ERR_STATUS_LMS_EXHAUSTED 0 1)
  else
    let n := n.modSec fun s => { s with lmsNext := q + 1, resEnd := if s.resEnd ≤ q then q + 16 else s.resEnd,
                                        nextTree := if (q + 1) % 1024 = 0 then false else s.nextTree }
    let n := if lmsTotal - (q + 1) < 2 ^ 20 ∧ n.rd R.SEC_ERR_STATUS_LMS_LOW 0 = 0 then
        (n.wr R.SEC_ERR_STATUS_LMS_LOW 0 1).alarm .hub 2 0x0D 4
      else n
    (some q, n)

/-- The next lower tree has been generated. -/
def Node.lowerTree (n : Node) : Node := n.modSec fun s => { s with nextTree := true }

/-- A signed response: both signatures are formed over the hash of the transcript, or neither is released; the alias key's
stands in its Signature field. -/
def Node.spdmSigned (n : Node) (c code : Nat) (req content : Bytes) : Node :=
  match n.takeHss with
  | (none, n) => n.spdmError c seUnspecified
  | (some q, n) =>
    n.modConn c fun x =>
      let body := Config.spdmBody code x.version content
      let hash := sha384 (x.l1 ++ req ++ body)
      { x with last := ⟨code, 0, body ++ Config.aliasSign n.sec.mFirmware hash, true, q⟩, l1 := [], lastHash := hash, lastIdx := q }

/-! ## The connection -/

/-- Can a connection carry a request: DOE needs the host link. -/
def Node.spdmLink (n : Node) (c : Nat) : Bool := c == 0 || n.host.link

/-- The responder speaks once the device secret and the MRAM areas are there (R367, R454). -/
def Node.spdmReady (n : Node) : Bool := n.pins.pwrGood && !n.pins.resetLow && bitAt n.boot.done 1

/-- GET_VERSION starts the connection anew; the versions offered are 1.2 and 1.3. -/
def Node.getVersion (n : Node) (c : Nat) : Node :=
  n.when n.spdmReady fun n =>
    (n.modConn c fun x => { (default : SpdmConn) with stage := 1, nextSess := x.nextSess }).spdmAnswer c 0x04 [] [0x12, 0x13]

/-- GET_CAPABILITIES fixes the version: 1.3, or 1.2. -/
def Node.getCapabilities (n : Node) (c : Nat) (m : SpdmReq) : Node :=
  n.when n.spdmReady fun n =>
    if (n.conn c).stage ≠ 1 then n.spdmError c seUnexpected
    else if m.version ≠ 0x12 ∧ m.version ≠ 0x13 then n.spdmError c seVersion
    else (n.modConn c fun x => { x with stage := 2, version := m.version }).spdmAnswer c 0x61 m.bytes []

/-- NEGOTIATE_ALGORITHMS: the one set of R372. -/
def Node.negotiate (n : Node) (c : Nat) (m : SpdmReq) : Node :=
  n.when n.spdmReady fun n =>
    if (n.conn c).stage ≠ 2 then n.spdmError c seUnexpected
    else if m.version ≠ (n.conn c).version then n.spdmError c seVersion
    else if !Config.spdmAlgorithmsOk m.bytes then n.spdmError c seInvalidRequest
    else (n.modConn c fun x => { x with stage := 3 }).spdmAnswer c 0x63 m.bytes []

/-- A request after negotiation. -/
def Node.spdmReq (n : Node) (c : Nat) (m : SpdmReq) (f : Node → Node) : Node :=
  n.when n.spdmReady fun n =>
    if (n.conn c).stage ≠ 3 then n.spdmError c seUnexpected
    else if m.version ≠ (n.conn c).version then n.spdmError c seVersion
    else f n

def Node.getDigests (n : Node) (c : Nat) (m : SpdmReq) : Node :=
  n.spdmReq c m fun n => n.spdmAnswer c 0x01 m.bytes (sha384 (Config.certChain n.sec.mFirmware))

/-- GET_CERTIFICATE: a portion of slot 0's chain. -/
def Node.getCertificate (n : Node) (c slot offset length : Nat) (m : SpdmReq) : Node :=
  n.spdmReq c m fun n =>
    if slot ≠ 0 ∨ (Config.certChain n.sec.mFirmware).length ≤ offset then n.spdmError c seInvalidRequest
    else n.spdmAnswer c 0x02 m.bytes (((Config.certChain n.sec.mFirmware).drop offset).take length)

/-! ## Measurements (R373) -/

/-- Measurement 5: security state, debug level and the three counters as one 16 B record. -/
def Node.stateRecord (n : Node) : Bytes :=
  leBytes 2 n.sec.st.code ++ leBytes 2 n.sec.level ++ leBytes 4 n.sec.ctrFw ++ leBytes 4 n.sec.ctrChart ++ leBytes 4 n.sec.ctrDebug

/-- Measurement 6: the debug policy record of the chart in force, or 8 zero bytes. -/
def Node.policyRecord (n : Node) : Bytes :=
  match compRec n.chart.comp 13 1 0xFFFF with
  | none => leBytes 8 0
  | some r => (r.words.map (leBytes 8)).flatten

/-- The blocks by index, each a SHA-384 digest. -/
def Node.measurement (n : Node) (i : Nat) : Bytes :=
  match i with
  | 1 => Config.romDigest
  | 2 => n.sec.mFirmware
  | 3 => n.sec.mChart
  | 4 => n.sec.mOverlays
  | 5 => sha384 n.stateRecord
  | _ => sha384 n.policyRecord

/-- What a measurement request names: 0 none but their number, 0xFF all, 1 to 6 one. -/
def Node.measurements (n : Node) (index : Nat) : Bytes :=
  if index = 0 then [6] else if index = 0xFF then (span 1 6).flatMap n.measurement else n.measurement index

/-- CHALLENGE: slot 0, a summary of no or all measurements. -/
def Node.challenge (n : Node) (c slot measType : Nat) (m : SpdmReq) : Node :=
  n.spdmReq c m fun n =>
    if slot ≠ 0 then n.spdmError c seInvalidRequest
    else
      let summary := if measType = 0 then [] else sha384 (n.measurements 0xFF)
      n.spdmSigned c 0x03 m.bytes (sha384 (Config.certChain n.sec.mFirmware) ++ summary)

def Node.getMeasurements (n : Node) (c index slot : Nat) (signed : Bool) (m : SpdmReq) : Node :=
  n.spdmReq c m fun n =>
    if (6 < index ∧ index ≠ 0xFF) ∨ (signed ∧ slot ≠ 0) then n.spdmError c seInvalidRequest
    else if signed then n.spdmSigned c 0x60 m.bytes (n.measurements index)
    else n.spdmAnswer c 0x60 m.bytes (n.measurements index)

/-! ## Sessions -/

/-- KEY_EXCHANGE opens a session; its answer needs a signature, so none is given once the HSS key is exhausted. -/
def Node.spdmKeyExchange (n : Node) (c slot measType : Nat) (m : SpdmReq) : Node :=
  n.spdmReq c m fun n =>
    if slot ≠ 0 then n.spdmError c seInvalidRequest
    else if lmsTotal ≤ n.sec.lmsNext then (n.wr R.SEC_ERR_STATUS_LMS_EXHAUSTED 0 1).spdmError c seUnspecified
    else
      let summary := if measType = 0 then [] else sha384 (n.measurements 0xFF)
      let n := n.modConn c fun x =>
        { x with sessions := x.sessions ++ [⟨x.nextSess, false, 0, 0⟩], nextSess := x.nextSess + 1 }
      n.spdmAnswer c 0x64 m.bytes summary

/-- Change a session. -/
def Node.modSession (n : Node) (c s : Nat) (f : SpdmSession → SpdmSession) : Node :=
  n.modConn c fun x => { x with sessions := x.sessions.map fun y => if y.ident == s then f y else y }

def Node.dropSession (n : Node) (c s : Nat) : Node :=
  n.modConn c fun x => { x with sessions := x.sessions.filter fun y => y.ident != s }

def Node.session? (n : Node) (c s : Nat) : Option SpdmSession := (n.conn c).sessions.find? fun y => y.ident == s

/-- FINISH completes a handshake when its HMAC verifies, and ends the session otherwise. -/
def Node.spdmFinish (n : Node) (c s : Nat) (hmacOk : Bool) (m : SpdmReq) : Node :=
  n.spdmReq c m fun n =>
    match n.session? c s with
    | none => n.spdmError c seInvalidSession
    | some y =>
      if y.estab then n.spdmError c seUnexpected
      else if hmacOk then (n.modSession c s fun y => { y with estab := true }).spdmAnswer c 0x65 m.bytes []
      else (n.dropSession c s).spdmError c seDecrypt

/-- A request inside an established session. -/
def Node.inSession (n : Node) (c s : Nat) (m : SpdmReq) (f : Node → Node) : Node :=
  n.spdmReq c m fun n =>
    match n.session? c s with
    | none => n.spdmError c seInvalidSession
    | some y => if y.estab ∧ m.session = some s then f n else n.spdmError c seInvalidSession

def Node.heartbeatAck (n : Node) (c s : Nat) (m : SpdmReq) : Node :=
  n.inSession c s m fun n => (n.modSession c s fun y => { y with beats := y.beats + 1 }).spdmAnswer c 0x68 [] []

/-- KEY_UPDATE: 1 UpdateKey, 2 UpdateAllKeys, 3 VerifyNewKey. -/
def Node.keyUpdate (n : Node) (c s op tag : Nat) (m : SpdmReq) : Node :=
  n.inSession c s m fun n =>
    if op = 0 ∨ 3 < op then n.spdmError c seInvalidRequest
    else
      let n := if op = 3 then n else n.modSession c s fun y => { y with keyNo := y.keyNo + 1 }
      n.spdmAnswer c 0x69 [] [BitVec.ofNat 8 op, BitVec.ofNat 8 tag]

def Node.endSession (n : Node) (c s : Nat) (m : SpdmReq) : Node :=
  n.inSession c s m fun n => (n.dropSession c s).spdmAnswer c 0x6C [] []

/-! ## Vendor requests (R374, R376) -/

/-- CXL IDE_KM in a secured session over DOE: 0 QUERY, 2 KEY_PROG, 4 K_SET_GO, 5 K_SET_STOP. -/
def Node.ideKm (n : Node) (c s code : Nat) (m : SpdmReq) : Node :=
  if c ≠ 1 then n.spdmReq c m fun n => n.spdmError c seUnsupported
  else n.inSession c s m fun n =>
    match code with
    | 0 => n.spdmAnswer c 0x7E [] [1]
    | 2 => (n.modConn c fun x => { x with ideKeys := x.ideKeys ++ [m.bytes] }).spdmAnswer c 0x7E [] [3]
    | 4 =>
      if (n.conn c).ideKeys = [] then n.spdmError c seUnexpected
      else (n.modHost fun h => { h with ide := true }).spdmAnswer c 0x7E [] [6]
    | 5 => (n.modHost fun h => { h with ide := false }).spdmAnswer c 0x7E [] [6]
    | _ => n.spdmError c seInvalidRequest

/-- VENDOR_DEFINED_REQUEST: the HSS signature over the last signed response, or CXL IDE_KM. -/
def Node.vendorRequest (n : Node) (c s vendor code : Nat) (m : SpdmReq) : Node :=
  if vendor = 0x5E1C ∧ code = 1 then
    n.spdmReq c m fun n =>
      if (n.conn c).lastHash = [] then n.spdmError c seUnexpected
      else n.spdmAnswer c 0x7E [] (Config.hssSign (n.conn c).lastIdx (n.conn c).lastHash)
  else if vendor = 0x1E98 then n.ideKm c s code m
  else n.spdmReq c m fun n => n.spdmError c seUnsupported

end Sys2Proof.Machine
end

