-- ==== Sys2Proof/Machine/Power.lean ====
section
/-!
DEFINITION. Power states and operating points: Park and wake (R386, R388), Standby (R389), Doze (R387), the power cap (R24), the
choice of an operating point and its two steps (R391).
-/

namespace Sys2Proof.Machine

/-- All sheets as a mask. -/
def Node.sheetMask (n : Node) : Nat := 2 ^ n.nSheets - 1

/-- The sheets some cause keeps in Park: PWR_CTL.PARK, Standby, R219, R475. -/
def Node.parkCauses (n : Node) : Nat :=
  ((n.power.parkWant ||| n.power.thermPark ||| n.power.diePark) &&& n.sheetMask) ||| (if n.power.standby then n.sheetMask else 0)

/-! ## The registers take effect (R393, R395) -/

/-- PWR_CFG and PWR_CTL take effect at the boundary; while halted they wait for the halt to end. -/
def Node.takePower (n : Node) : Node :=
  if n.dbg.halted then n
  else
    let was := n.power.standby
    let on := n.rd R.PWR_CTL_STANDBY 0 == 1
    let n := n.modPower fun p =>
      { p with limit := n.rd R.PWR_CFG_OP_LIMIT 0, parkWant := n.rd R.PWR_CTL_PARK 0 &&& n.sheetMask, standby := on }
    if on ∧ !was then
      forEach (n.portList.filter fun p => (n.port p).st != .disabled && (n.port p).st != .failed) n.flushNow
        fun n p => n.hostRetrain p
    else if was ∧ !on then forEach (n.portList.filter fun p => (n.port p).st != .disabled) n fun n p => n.hostRetrain p
    else n

/-! ## Park (R388) -/

/-- Sheets park and leave Park: their stacks enter self-refresh, or their cores power up. -/
def Node.parkSheets (n : Node) : Node :=
  let want := n.parkCauses
  let was := n.power.parked
  let n := n.modPower fun p =>
    { p with parked := want, waking := (p.waking ||| was) &&& (2 ^ 8 - 1 - want) &&& n.sheetMask }
  forEach n.sheetList n fun n s =>
    if bitAt want s ∧ !bitAt was s then
      forEach (sheetQuads s) n fun n q => n.modQuad q fun x => { x with selfRefresh := x.st != .offline }
    else if bitAt was s ∧ !bitAt want s then
      forEach (sheetQuads s) n fun n q => n.modQuad q fun x => { x with selfRefresh := false }
    else n

/-- The cores of a sheet that left Park have powered up, or not within 20 µs. -/
def Node.sheetWakeDone (n : Node) (s : Nat) (inTime : Bool) : Node :=
  if bitAt n.power.waking s then
    if inTime then n.modPower fun p => { p with waking := p.waking - 2 ^ s } else n.wr R.PWR_ERR_STATUS_WAKE_TIMEOUT 0 1
  else n

/-! ## Doze (R387) -/

/-- Does a sheet hold no pass, and are its queues empty? -/
def Node.sheetIdle (n : Node) (s : Nat) : Bool :=
  !(n.office.passes.any fun p => quadSheet (coreQuad p.core) == s) && !(n.office.shares.any fun x => x.sheet == s)

/-- A sheet dozes for the rest of the tick. -/
def Node.sheetDoze (n : Node) (s : Nat) : Node :=
  if n.sheetIdle s ∧ !bitAt n.parkCauses s ∧ !bitAt n.power.dozed s ∧ n.ticking then
    let rest := (n.boundary (n.tickAt n.now + 1) + 2 ^ 64 - n.now) % 2 ^ 64
    (n.modPower fun p => { p with dozed := p.dozed + 2 ^ s }).inc R.PWR_DOZE_CNT_CYCLES 0 (cyclesIn rest n.power.op)
  else n

/-! ## Operating points (R24, R391) -/

/-- The slowest of the three points wanted. -/
def Node.wantOp (n : Node) : Nat := max (max n.power.opPower n.power.opThermal) n.power.limit

/-- Every 1 ms: the average against TDP (R24). The rule does not say how far the point moves: the model asks for one point
slower for each sample over TDP, and for one point faster for each 10 ms at or below 95% of TDP (DESIGN CHOICE, log entry
89). -/
def Node.powerSample (n : Node) (watts : Nat) : Node :=
  let tdp := n.ident.part.tdp
  let n := (n.modPower fun p => { p with avg := watts }).histPower watts
  if tdp < watts then
    (n.modPower fun p => { p with opPower := min 3 (max p.op p.opPower + 1), belowAt := none }).wr R.PWR_ERR_STATUS_POWER_CAP 0 1
  else if watts * 100 ≤ tdp * 95 then
    match n.power.belowAt with
    | none => n.modPower fun p => { p with belowAt := some n.now }
    | some t =>
      if 10000000 ≤ n.now - t ∧ 0 < n.power.opPower then
        n.modPower fun p => { p with opPower := p.opPower - 1, belowAt := some n.now }
      else n
  else n.modPower fun p => { p with belowAt := none }

/-- The point in force changes: a HEALTH record with the old point, the new one and the cause (1 R24, 2 R219, 3 OP_LIMIT:
the first of them that asks for the new point). -/
def Node.changeOp (n : Node) (op : Nat) : Node :=
  let old := n.power.op
  let cause := if n.power.opPower = op then 1 else if n.power.opThermal = op then 2 else 3
  let n := if old < op then n.inc R.PWR_OP_CNT_DOWN 0 1 else n.inc R.PWR_OP_CNT_UP 0 1
  (n.modPower fun p => { p with op := op, raising := none, settled := false }).healthRec .hub 0x10 0x214 old op cause

/-- Slowing at once; speeding up once the rails have settled. -/
def Node.pointBoundary (n : Node) : Node :=
  let want := n.wantOp
  let p := n.power
  if p.op < want then n.changeOp want
  else if p.op = want then n.modPower fun p => { p with raising := none, settled := false }
  else if p.raising = some want then (if p.settled then n.changeOp want else n)
  else n.modPower fun p => { p with raising := some want, settled := false }

/-- Every rail reports settled. -/
def Node.railSettled (n : Node) : Node :=
  if n.power.raising.isSome then n.modPower fun p => { p with settled := true } else n

/-- A rail has not settled within 1 ms: the point stays. -/
def Node.railTimeout (n : Node) : Node :=
  if n.power.raising.isSome ∧ !n.power.settled then
    ((n.modPower fun p => { p with raising := none }).wr R.PWR_ERR_STATUS_AVS_FAIL 0 1).fault .hub 3 0x0D 0 none
  else n

/-- Boundary action 4. -/
def Node.powerBoundary (n : Node) : Node :=
  let n := n.wr R.PWR_STATE_DOZED 0 n.power.dozed
  let n := n.modPower fun p => { p with dozed := 0 }
  n.takePower.parkSheets.pointBoundary

/-- PWR_STATE.NODE: 0 Run, 1 Doze, 2 Park, 3 Standby. -/
def Node.powerState (n : Node) : Nat :=
  let parked := n.power.parked &&& n.sheetMask
  if n.power.standby then 3
  else if parked = n.sheetMask then 2
  else if (parked ||| n.power.dozed) = n.sheetMask then 1
  else 0

end Sys2Proof.Machine
end

