-- ==== Sys2Proof/Machine/Debug.lean ====
section
/-!
DEFINITION. The debug port but for its bus: TAP instructions (R396 to R399), HALT, RESUME and STEP (R402 to R405), HOLD frames
(R406), breakpoints at a boundary (R407).
-/

namespace Sys2Proof.Machine

/-! ## TAP instructions (R397) -/

def irExtest : Nat := 0x00
def irSample : Nat := 0x01
def irIdcode : Nat := 0x02
def irClamp : Nat := 0x03
def irHighz : Nat := 0x04
def irAccess : Nat := 0x10
def irBypass : Nat := 0xFF

/-- Load an instruction: refused where its condition does not hold, BYPASS then. The outputs follow the one in force. -/
def Node.loadIr (n : Node) (code : Nat) (ok : Bool) (outputs dr : Nat) : Node :=
  if !n.pins.pwrGood then n
  else if ok then n.modDebug fun d => { d with ir := code, refused := false, outputs := outputs, dr := dr }
  else n.modDebug fun d => { d with ir := irBypass, refused := true, outputs := 0, dr := 0 }

/-- What the boundary register captures: its cells' order is not in the spec. -/
def Node.boundaryCapture (n : Node) : Nat × Node := n.fresh

def Node.extest (n : Node) : Node :=
  let (v, n) := n.boundaryCapture
  n.loadIr irExtest n.pins.resetLow 1 v

def Node.samplePreload (n : Node) : Node :=
  let (v, n) := n.boundaryCapture
  n.loadIr irSample (n.pins.resetLow || decide (1 ≤ n.sec.level)) 0 v

/-- IDCODE (R398): stepping, part code, manufacturer 0x2E3, 1. -/
def Node.idcodeOf (n : Node) : Nat := n.ident.stepping % 16 * 2 ^ 28 + n.ident.part.code * 2 ^ 12 + 0x2E3 * 2 + 1

def Node.idcode (n : Node) : Node := n.loadIr irIdcode true 0 n.idcodeOf
def Node.clamp (n : Node) : Node := n.loadIr irClamp n.pins.resetLow 2 0
def Node.highz (n : Node) : Node := n.loadIr irHighz n.pins.resetLow 3 0
def Node.dbgAccess (n : Node) : Node := n.loadIr irAccess (decide (1 ≤ n.sec.level) && !n.pins.resetLow) 0 0
def Node.bypass (n : Node) : Node := n.loadIr irBypass true 0 0

/-- The capture value of the instruction register (R396). -/
def Node.irCapture (n : Node) : Nat := 1 + b2n n.dbg.refused * 4 + n.sec.level * 8 + b2n n.dbg.halted * 32

/-! ## HOLD frames (R406) -/

/-- The last tick whose boundary lies at most SPAN - TICK_PERIOD ahead. -/
def Node.holdTickNo (n : Node) : Nat := n.tickAt (n.now + n.spanNs - n.time.period) % 2 ^ 48

/-- Send a HOLD frame of a kind to every postcode of LIST, and answer its tick. -/
def Node.sendHolds (n : Node) (kind : Nat) : Nat × Node :=
  let k := n.holdTickNo
  let body : Bytes := leBytes 1 kind ++ leBytes 1 1 ++ leBytes 1 n.dbg.list ++ leBytes 5 0 ++ leBytes 6 k ++ leBytes 2 0
  let dsts := n.distList n.dbg.list
  let n := forEach dsts n fun n pc => n.sendPkt (n.mkPkt pc (n.boundary k) ptHold 0 0 body) 32
  (k, n.modDebug fun d => { d with sent := min (d.sent + dsts.length) (2 ^ 32 - 1) })

/-- A HOLD frame arrives: scheduled for B(TICK), or counted as ignored. -/
def Node.holdArrives (n : Node) (src : Nat) (m : Bytes) : Node :=
  let kind := leAt m 0 1
  let k := leAt m 8 6
  let good := m.length == 16 && kind != 0 && decide (kind ≤ 3) && leAt m 1 1 == 1 && leAt m 3 5 == 0 && leAt m 14 2 == 0
  if good && n.sec.level == 3 && (n.distList (leAt m 2 1)).contains src && decide (0 < sdiff 64 (n.boundary k) n.now) then
    n.modDebug fun d => { d with sched := d.sched ++ [⟨kind, k, false⟩], honoured := min (d.honoured + 1) (2 ^ 16 - 1) }
  else n.modDebug fun d => { d with ignored := min (d.ignored + 1) (2 ^ 16 - 1) }

/-! ## DBG_CMD (R402, R403) -/

/-- May DBG_CMD do an operation now: 1 HALT, 2 RESUME, 3 STEP? -/
def Node.cmdApplies (n : Node) (op : Nat) : Bool :=
  match op with
  | 1 => !n.dbg.halted
  | 2 | 3 => n.dbg.halted
  | _ => false

/-- Do it: a halt at the next boundary; RESUME and STEP at the next boundary, or at B(TICK) under PROPAGATE. -/
def Node.debugCmd (n : Node) (op : Nat) : Node :=
  if op = 1 then
    let n := n.wantHalt 1 0
    if n.dbg.propagate then (n.sendHolds 1).2 else n
  else if n.dbg.propagate then
    let (k, n) := n.sendHolds op
    n.modDebug fun d => { d with sched := d.sched ++ [⟨op, k, true⟩] }
  else n.modDebug fun d => { d with wantRun := true, stepping := op == 3 }

/-- The command register written at DL3: BAD_OP where it does not apply. -/
def Node.writeCmd (n : Node) (op : Nat) : Node :=
  if n.cmdApplies op then (n.debugCmd op).modDebug fun d => { d with status := 0 }
  else n.modDebug fun d => { d with status := 8 }

/-! ## Boundary action 7 -/

/-- The halt ends: what a breakpoint froze is discarded (R88). -/
def Node.endHalt (n : Node) : Node :=
  n.modDebug fun d => { d with halted := false, cause := 0, wantRun := false, frozen := [] }

/-- Scheduled holds, releases and steps whose boundary has come. -/
def Node.dueHolds (n : Node) : Node :=
  let due := n.dbg.sched.filter fun h => decide (tickDiff h.tick n.time.tick ≤ 0)
  let n := n.modDebug fun d => { d with sched := d.sched.filter fun h => !due.contains h }
  forEach due n fun n h =>
    if h.kind = 1 then n.wantHalt 4 0
    else if n.dbg.halted then n.endHalt.modDebug fun d => { d with stepping := h.kind == 3 }
    else n

/-- TIME breakpoints: at the first boundary at or after A; EN then clears. -/
def Node.timeBps (n : Node) : Node :=
  forEach (n.bpsOf 4) n fun n b =>
    if b.2.a ≤ n.now then
      (n.wantHalt 3 (2 ^ b.1)).modDebug fun d =>
        { d with bps := mapSet d.bps b.1 { b.2 with ctl := b.2.ctl - b.2.ctl % 2 } }
    else n

/-- LETTER breakpoints: shares this boundary would admit. -/
def Node.shareBps (n : Node) : Node :=
  let hits := n.letterBps
  if hits = 0 then n else n.wantHalt 3 hits

/-- RESUME and STEP end the halt; a step that ran its tick wants it again. -/
def Node.resumes (n : Node) : Node :=
  if n.dbg.halted then (if n.dbg.wantRun then n.endHalt else n)
  else if n.dbg.stepping then (n.modDebug fun d => { d with stepping := false }).wantHalt 2 0
  else n

/-- Passes a breakpoint froze are cancelled (R48, R407). -/
def Node.cancelFrozen (n : Node) : Node :=
  let ps := n.office.passes.filter fun p => n.dbg.frozen.contains p.core && p.running
  if ps = [] then n
  else (n.cancelPasses ps).modPasses fun l => l.filter fun p => !ps.contains p

/-- Requests of one boundary give one halt, with the highest cause; a breakpoint's halt is propagated. -/
def Node.takeHalt (n : Node) : Node :=
  if n.dbg.wantHalt = 0 then n
  else if n.dbg.halted then n.modDebug fun d => { d with wantHalt := 0, wantBp := 0 }
  else
    let cause := n.dbg.wantHalt
    let n := n.cancelFrozen.modDebug fun d =>
      { d with halted := true, cause := cause, bpHit := d.wantBp, haltTick := n.time.tick, wantHalt := 0, wantBp := 0,
               wantRun := false }
    if cause = 3 ∧ n.dbg.propagate then (n.sendHolds 1).2 else n

/-- Boundary action 7: levels and tokens, then halts. At the boundary that ends a halt admission resumes (R403), so that no
LETTER breakpoint hits there (log entry 113). -/
def Node.debugBoundary (n : Node) : Node :=
  let n := n.levelBoundary
  let m := n.resumes.dueHolds
  let m := m.timeBps
  (if n.dbg.halted && !m.dbg.halted then m else m.shareBps).takeHalt

/-- Does a boundary event come at its place: at the instant of the present tick's boundary, before anything is admitted
(R50)? Anything due later than that waits for action 7 of the next boundary. -/
def Node.atBoundary (n : Node) : Bool :=
  n.ticking && n.now == n.boundary n.time.tick && n.office.passes.isEmpty

/-- HOLD_TICK: what is scheduled for the present boundary. -/
def Node.holdTick (n : Node) : Node := n.when n.atBoundary fun n => n.dueHolds.takeHalt

/-- BREAKPOINT_TIME at a boundary. -/
def Node.breakpointTime (n : Node) : Node := n.when n.atBoundary fun n => n.timeBps.takeHalt

/-- A reset ends a halt of the scope it covers (R405). -/
def Node.haltEnds (n : Node) (covers : Bool) : Node :=
  if covers then n.endHalt.modDebug fun d => { d with wantHalt := 0, wantBp := 0, stepping := false } else n

end Sys2Proof.Machine
end

