-- ==== Sys2Proof/Machine/Reset.lean ====
section
/-!
DEFINITION. Errors, recovery and reset (chapter 19): FATAL errors (R412, R414), crash dump and crash summaries (R415 to
R417), the reset levels and their escalation (R418 to R425, R461), ABORT (R426, R427).
-/

namespace Sys2Proof.Machine

/-- Clear the register fields of a byte range. -/
def Node.clrRange (n : Node) (lo hi : Nat) : Node :=
  { n with regs := mapKeep (fun k _ => decide (k < lo * 64) || decide (hi * 64 ≤ k)) n.regs }

/-! ## Crash dump (R415, R416) -/

/-- HBM address of a core's slot. -/
def dumpSlot (c : Nat) : Nat := granAddr (coreQuad c) 0 + 4096 + c % 25 * 20480

def dumpMagic : Nat := 0x504D5544

/-- Can the quad's slots be reached? -/
def Node.dumpThere (n : Node) (c : Nat) : Bool := n.boot.laid && (n.quad (coreQuad c)).st != .offline

/-- Does a core's slot hold a sample? -/
def Node.dumpHeld (n : Node) (c : Nat) : Bool := n.dumpThere c && n.hbmNat (dumpSlot c) 4 == dumpMagic

/-- Cores whose slots hold a sample. -/
def Node.dumpsHeld (n : Node) : List Nat := n.coreList.filter n.dumpHeld

/-- The core of the oldest held sample, 0 with none. -/
def Node.dumpFirst (n : Node) : Nat :=
  (sortOn (fun c => n.hbmNat (dumpSlot c + 0x10) 8) n.dumpsHeld).headD 0

/-- CORE_STATUS.STATE (R118): 0 IDLE, 1 BUSY, 2 FENCED, 3 HUNG, 4 PARKED. -/
def Node.coreState (n : Node) (c : Nat) : Nat :=
  let x := n.core c
  if x.mode ≠ .normal then 3 else if x.fenced then 2 else if n.quadParked (coreQuad c) then 4
  else b2n (n.office.passes.any fun p => p.core == c && p.running)

/-- A scratchpad byte: in the T0 area the byte of the copy there; elsewhere what a debugger wrote or a reset cleared; what the
machine's own work left there is not stated, a free value of the present moment. -/
def Node.scratchByte (n : Node) (c o : Nat) : Byte :=
  let x := n.core c
  match (if 0x80000 ≤ o then t0At (o - 0x80000) x.t0 else none).bind fun p => ((mapGet x.t0 p.1 : T0Copy).data)[p.2]? with
  | some b => b
  | none => match mapGet x.scratch o with
  | 0 => if o < x.zeroTo then 0 else BitVec.ofNat 8 (Config.freeValue (n.freeCtr + o)).toNat
  | v + 1 => BitVec.ofNat 8 v

/-- A 256 B block of the control area as a sample holds it: zeros where it is unreadable. -/
def Node.dumpBlock (n : Node) (c i : Nat) : Bytes :=
  if (n.core c).badWords.any (fun w => w / 32 == i) then leBytes 256 0 else (span (i * 256) 256).map (n.scratchByte c)

/-- A core's sample. -/
def Node.dumpBytes (n : Node) (c level cause : Nat) : Bytes :=
  let bad := (upTo 64).foldl (fun a i => if (n.core c).badWords.any (fun w => w / 32 == i) then a + 2 ^ i else a) 0
  let owner := (n.quadOwner (coreQuad c)).getD 0
  leBytes 4 dumpMagic ++
  leBytes 4 (level + cause * 16 + n.coreState c * 256 + owner * 2048 + c * 65536 + n.power.op * 2 ^ 26) ++
  leBytes 8 (n.time.tick % 2 ^ 48) ++ leBytes 8 n.now ++ leBytes 8 0 ++ leBytes 8 bad ++ leBytes (0x1000 - 0x28) 0 ++
  (upTo 64).flatMap (n.dumpBlock c)

/-- Sample a core into its slot, or count it in LATER. -/
def Node.sample (n : Node) (level cause c : Nat) : Node :=
  if !n.dumpThere c then n
  else if n.dumpHeld c then
    let k := n.hbmNat (dumpSlot c + 0x18) 4
    (n.hbmStore (dumpSlot c + 0x18) (leBytes 4 (min (k + 1) (2 ^ 32 - 1)))).inc R.ERR_DUMP_STATUS_LATER 0 1
  else { n.hbmStore (dumpSlot c) (n.dumpBytes c level cause) with freeCtr := n.freeCtr + 16384 }

/-- Empty a core's slot (ERR_DUMP_CTL). -/
def Node.releaseSlot (n : Node) (c : Nat) : Node :=
  if n.dumpHeld c then n.hbmStore (dumpSlot c) (leBytes 4 0) else n

/-! ## Crash summaries (R417) -/

/-- A register word from fields of one register. -/
def Node.word (n : Node) (fs : List Fld) (base : Nat) : Nat := fs.foldl (fun a f => a + n.rd f base * 2 ^ f.lo) 0

def errStatusFlds : List Fld :=
  [R.ERR_STATUS_CORRECTED, R.ERR_STATUS_DEFERRED, R.ERR_STATUS_CONTAINED, R.ERR_STATUS_FATAL, R.ERR_STATUS_HUB_FATAL,
   R.ERR_STATUS_HANG, R.ERR_STATUS_ABORT_SENT, R.ERR_STATUS_ABORT_RECEIVED, R.ERR_STATUS_LOG_WRAP]

def fatalInfoFlds : List Fld :=
  [R.ERR_FATAL_INFO_TICK, R.ERR_FATAL_INFO_SOURCE, R.ERR_FATAL_INFO_SHEET, R.ERR_FATAL_INFO_LINK]

/-- RST_CNT. -/
def MramSt.resets (m : MramSt) : Nat := m.l2 + m.l3 * 2 ^ 16 + m.l4 * 2 ^ 32 + m.l5 * 2 ^ 48

/-- A sheet's word of a summary. -/
def Node.sheetWord (n : Node) (s : Nat) : Nat :=
  b2n (decide (0 < mapGet n.err.missed s)) + 2 * b2n (n.err.d2dDown.any fun d => d.1 == s || n.linkPeer d.1 d.2 == some s) +
    256 * (((sheetQuads s).filter fun q => n.hasQuad q && (n.quad q).st == .offline).length % 4)

/-- A crash summary. -/
def Node.summaryBytes (n : Node) (level cause : Nat) : Bytes :=
  let body := leBytes 4 0x4D555343 ++ leBytes 4 (level + cause * 16) ++ leBytes 6 n.time.tick ++ leBytes 2 n.chart.epoch ++
    leBytes 8 n.now ++ leBytes 8 (n.word errStatusFlds 0) ++ leBytes 8 (n.word fatalInfoFlds 0) ++ leBytes 8 n.mram.resets ++
    (upTo 8).flatMap (fun s => leBytes 8 (n.sheetWord s)) ++ leBytes 128 0
  body ++ leBytes 8 (crc64 body) ++ leBytes 8 0

/-- Write a crash summary to the ring in MRAM. -/
def Node.summary (n : Node) (level cause : Nat) : Node :=
  (n.mramWrite (0x290000 + 0x300000 + n.mram.sumNext * 256) (n.summaryBytes level cause)).modMram fun m =>
    { m with sumNext := (m.sumNext + 1) % 4096 }

/-- Count a reset and keep its level, cause and tick (R432). -/
def Node.resetCount (n : Node) (level cause : Nat) : Node :=
  let up (l k : Nat) : Nat := if level = l then min (k + 1) 65535 else k
  n.modMram fun m => { m with lastLevel := level, lastCause := cause, lastTick := n.time.tick,
                              l2 := up 2 m.l2, l3 := up 3 m.l3, l4 := up 4 m.l4, l5 := up 5 m.l5 }

/-! ## ABORT (R426, R427) -/

/-- Open an abort window: one of the same value and mask is replaced; with 64 held the earliest UNTIL goes. -/
def Node.abortWindow (n : Node) (value mask til : Nat) : Node :=
  let w : AbortWin := ⟨value, mask, til, false⟩
  let rest := n.err.aborts.filter fun x => !(x.value == value && x.mask == mask)
  if rest.length < 64 then n.modErr fun e => { e with aborts := rest ++ [w] }
  else
    let n := n.modErr fun e => { e with aborts := ((sortOn (fun x => x.til) rest).drop 1) ++ [w] }
    n.inc R.ERR_ABORT_CNT_IGNORED 0 1

/-- ERR_ABORT_CFG[p].EN. -/
def Node.abortOn (n : Node) (p : Nat) : Bool := n.rd R.ERR_ABORT_CFG_EN (16 * p) == 1

/-- Send an ABORT for a partition, and apply it here. -/
def Node.sendAbort (n : Node) (p reason : Nat) : Node :=
  if !n.abortOn p then n
  else
    let list := n.rd R.ERR_ABORT_CFG_LIST (16 * p)
    let value := n.rd R.ERR_ABORT_CFG_INDEX_VALUE (16 * p)
    let mask := n.rd R.ERR_ABORT_CFG_INDEX_MASK (16 * p)
    let til := n.now + min (n.rd R.ERR_ABORT_SPAN_SPAN_MS (16 * p)) 10000 * 1000000
    let id := if n.err.abortId + 1 < 2 ^ 32 then n.err.abortId + 1 else 1
    let body := leBytes 1 1 ++ leBytes 1 1 ++ leBytes 1 list ++ leBytes 1 p ++ leBytes 4 id ++ leBytes 3 value ++
      leBytes 3 mask ++ leBytes 1 reason ++ leBytes 1 0 ++ leBytes 8 til
    let dsts := n.distList list
    let n := n.modErr fun e => { e with abortId := id }
    let n := forEach dsts n fun n pc => n.sendPkt (n.mkPkt pc (n.now + n.spanNs) ptAbort 0 0 body) 32
    ((n.inc R.ERR_ABORT_CNT_SENT 0 dsts.length).wr R.ERR_STATUS_ABORT_SENT 0 1).abortWindow value mask til

/-- ABORTs of every partition under AUTO. -/
def Node.autoAborts (n : Node) (reason : Nat) : Node :=
  forEach (upTo 32) n fun n p => if n.rd R.ERR_ABORT_CFG_AUTO (16 * p) = 1 then n.sendAbort p reason else n

/-- An ABORT frame arrives. -/
def Node.abortArrives (n : Node) (src : Nat) (m : Bytes) : Node :=
  let til := leAt m 16 8
  if m.length = 24 ∧ leAt m 0 1 = 1 ∧ leAt m 1 1 = 1 ∧ (n.distList (leAt m 2 1)).contains src ∧ til ≤ n.now + 10000000000 then
    n.abortWindow (leAt m 8 3) (leAt m 11 3) til
  else n.inc R.ERR_ABORT_CNT_IGNORED 0 1

/-- One window takes effect: matching shares and anchors complete with ABORTED. -/
def Node.applyAbort (n : Node) (w : AbortWin) : Node :=
  let hits (s : Share) : Bool := (mapFind? n.office.ctxs s.ctx).any fun c => w.hits c.letter.key
  let n := forEach (n.office.shares.filter fun s => s.open' && hits s) n fun n s => n.failShare s stAborted 0
  let n := forEach (n.office.merges.filter fun m => m.live && (n.mergeKey m).any w.hits) n fun n m => n.endMerge m stAborted
  (n.inc R.ERR_ABORT_CNT_APPLIED 0 1).wr R.ERR_STATUS_ABORT_RECEIVED 0 1

/-- The ABORTs received since the last boundary, in action 1. -/
def Node.applyAborts (n : Node) : Node :=
  let new := n.err.aborts.filter fun w => !w.applied
  let n := forEach new n fun n w => n.applyAbort w
  n.modErr fun e => { e with aborts := e.aborts.map fun w => { w with applied := true } }

/-- At UNTIL a window ends. -/
def Node.abortWindowEnd (n : Node) : Node := n.modErr fun e => { e with aborts := e.aborts.filter fun w => decide (n.now < w.til) }

/-! ## Levels 1 to 3 (R419 to R421) -/

/-- A level-1 merge context: MERGE_LOST, its tombstone kept. -/
def Node.resetMerge (n : Node) (ticket : Bool) (requester ident : Nat) : Option Node :=
  (n.office.merges.find? fun m => m.live && m.is ticket requester ident).map fun m => n.endMerge m stMergeLost

/-- Level 1, at fetch. -/
def Node.levelOne (n : Node) (ref : CmdRef) (bs : Bytes) : Applied :=
  let target := cmdD bs 0x14
  let id := cmdQ bs 0x18
  match cmdBits bs 0x10 4 4 with
  | 1 => if (n.qp target).st = .free ∨ (n.qp target).ending ≠ 0 then failCmd n stBadState (n.qp target).st.code else .later (n.startQpReset target false (some ref))
  | 2 =>
    if target = ref.box then failCmd n stBadState 1
    else .later ((n.boxReset target).modErr fun e => { e with level1 := e.level1 ++ [(ref, target)] })
  | k =>
    match n.resetMerge (k == 4) target (if k = 4 then id % 2 ^ 32 else id) with
    | some n => .done stDone 0 0 n
    | none => failCmd n stBadState 0

/-- Level 2: one core is sampled and reset. -/
def Node.levelTwo (n : Node) (r : ResetReq) : Node :=
  if (n.quad (coreQuad r.target)).st = .offline then n.completeOpt r.cmd stBadState 4 0
  else
    let n := ((n.sample 2 r.cause r.target).resetCore r.target).resetCount 2 r.cause
    match r.cmd with
    | some ref => n.modErr fun e => { e with level2 := e.level2 ++ [(ref, r.target)] }
    | none => n

/-- Moves of a partition that have not sent COMMIT are cancelled. -/
def Node.cancelMoves (n : Node) (t : Move → Bool) : Node :=
  let ms := n.mig.moves.filter fun m => m.2.kind != .into && m.2.phase != .commit && m.2.phase != .committed && t m.2
  forEach (ms.map Prod.fst) n fun n id => n.undoMove id

/-- Does a level-3 reset of a partition cover the halted scope (R405)? -/
def Node.coversHalt (n : Node) (p : Nat) : Bool :=
  n.haltedPart p && (upTo 32).all fun x => x == p || (n.part x).st == .free || !n.inScope x

/-- Level 3: one partition. -/
def Node.levelThree (n : Node) (r : ResetReq) : Node :=
  let p := r.target
  if (n.part p).st ≠ .active then n.completeOpt r.cmd stBadState (n.partDetail p none false) 0
  else
    let n := (n.flushNow.resetCount 3 r.cause).summary 3 r.cause
    let n := n.haltEnds (n.coversHalt p)
    let n := forEach (n.office.shares.filter fun s => s.open' && s.partition == p) n fun n s => n.failShare s stAborted 0
    let n := forEach (n.office.merges.filter fun m => m.live && n.mergePart m == some p) n fun n m => n.endMerge m stMergeLost
    let cs := (n.partQuads p).flatMap fun q => if (n.quad q).st = .offline then [] else quadCores q
    let n := forEach cs n fun n c => (n.sample 3 r.cause c).resetCore c
    let qs := (n.courier.qps.filter fun q => q.2.partition == p && q.2.st != .free && q.2.ending == 0).map Prod.fst
    let n := forEach qs n fun n q => n.startQpReset q false none
    let n := forEach (mapKeys n.host.boxes) n fun n b =>
      if n.rd R.PB_CFG_OWNER (boxBase b) = p ∧ (n.box b).st ≠ .disabled then n.boxReset b else n
    let n := n.withdrawOther fun x => x.partition == p
    let n := (n.nmeAbort fun o => o.partition == p).fillsAbort fun o => o.partition == p
    let n := n.cancelMoves fun m => m.partition == p
    let n := if n.rd R.ERR_ABORT_CFG_AUTO (16 * p) = 1 then n.sendAbort p 2 else n
    match r.cmd with
    | some ref => n.modErr fun e => { e with level3 := e.level3 ++ [(ref, p)] }
    | none => n

/-- Is everything a level-3 reset waits for over: every queue pair RESET, every withdrawn extent drained? -/
def Node.levelThreeDone (n : Node) (p : Nat) : Bool :=
  n.courier.qps.all (fun q => q.2.partition != p || q.2.st == .reset || q.2.st == .free) &&
    n.pool.exts.all fun e => e.2.partition != p || e.2.st != .withdrawing

/-- Reset commands whose reset is complete. -/
def Node.resetsDone (n : Node) : Node :=
  let one := n.err.level1.filter fun r => (n.box r.2).st == .disabled
  let two := n.err.level2.filter fun r => (n.core r.2).mode != .resetting
  let three := n.err.level3.filter fun r => n.levelThreeDone r.2
  let n := n.modErr fun e => { e with level1 := e.level1.filter fun r => !one.contains r
                                      level2 := e.level2.filter fun r => !two.contains r
                                      level3 := e.level3.filter fun r => !three.contains r }
  let n := forEach (one ++ three) n fun n r => n.complete r.1 stDone 0 0
  forEach two n fun n r => n.complete r.1 (if (n.core r.2).mode = .normal then stDone else stInternal) 0 0

/-! ## Level 5 (R423) -/

/-- Level 5: the crash summary, then the tray is asked for a power cycle and no AVS_EN is driven (R473). -/
def Node.levelFive (n : Node) (cause : Nat) (cmd : Option CmdRef) (canWrite : Bool) : Node :=
  let n := n.flushNow.resetCount 5 cause
  let n := if canWrite then n.summary 5 cause else n
  (n.completeOpt cmd stDone 0 0).modPins fun p => { p with pwrcycLow := true, avsEn := 0 }

/-! ## Level 4 (R422, R461) -/

/-- What waits for the host or the fabric ends with ABORTED before the sheets are reset. -/
def Node.abortAll (n : Node) : Node :=
  let n := n.abortWaiting fun _ => true
  let refs := n.chart.staged.map (·.cmd) ++ n.chart.checking.map Prod.fst
  let n := forEach refs (n.modChart fun c => { c with staged := [], checking := [] }) fun n ref => n.complete ref stAborted 0 0
  let n := forEach (upTo 32) n fun n p =>
    match (n.part p).destroy with
    | none => n
    | some ref => ((n.modPart p fun x => { x with destroy := none }).complete ref stAborted 0 0).wr R.PART_ERR_STATUS_DESTROY_ABORTED 0 1
  let gone := n.err.resets.filterMap ResetReq.cmd ++ (n.err.level1 ++ n.err.level2 ++ n.err.level3).map Prod.fst
  let n := forEach gone (n.modErr fun e => { e with resets := [], level1 := [], level2 := [], level3 := [] }) fun n ref =>
    n.complete ref stAborted 0 0
  let n := forEach (mapKeys n.courier.qps) n fun n q =>
    let n := (n.abortOps q).completeOpt (n.qp q).endCmd stAborted 0 0
    n.modQp q fun s => { (if s.st = .ready then s.errs else s) with held := [], resident := false, fetching := false,
                                                                    endCmd := none, user := none }
  let n := { n with courier := { n.courier with userQps := [], inbox := [], done := [] } }
  (n.nmeAbort fun _ => true).fillsAbort fun _ => true

/-- Frames that were in the node are lost; a forwarded one gives its ingress buffer back. -/
def Node.dropFrames (n : Node) : Node :=
  let n := forEach n.portList n fun n p =>
    let qs := (n.port p).queues.flatMap id
    forEach qs (n.modPort p fun s => { s with queues := [], deficits := [], skip := [] }) fun n q => n.releaseHold q
  let n := forEach (n.locks.flatMap fun l => l.2.waiting) n fun n w =>
    match w.2.2 with
    | some k => n.freeCredits w.2.1 k
    | none => n
  { n with loop := [], locks := mapAll (fun _ l => { l with waiting := [], gapAt := none }) n.locks }

/-- Registers a level-4 reset clears: the sheets' windows but the ports' configuration, captures and state, and the hub's
counters. -/
def Node.clearForWarm (n : Node) : Node :=
  let inPort (k : Nat) : Bool :=
    let a := k / 64 % 0x200000
    decide (0x10100 ≤ a) && decide (a < 0x10300) && !(decide (0x18 ≤ a % 0x100) && decide (a % 0x100 < 0x40))
  let inBoxCnt (k : Nat) : Bool := decide (0x100000 ≤ k / 64) && decide (k / 64 < 0x200000) && k / 64 % 256 == 0x50
  let n := { n with regs := mapKeep (fun k _ => (decide (k / 64 < 0x1000000) || inPort k) && !inBoxCnt k) n.regs }
  let ranges := [(0x10140, 0x10148), (0x40018, 0x40020), (0x40040, 0x40048), (0x50060, 0x50080), (0x500d0, 0x500e0), (0x500f0, 0x500f8), (0x60018, 0x60020),
    (0x60810, 0x60818), (0x70018, 0x70028), (0x80010, 0x80018)]
  let n := (forEach ranges n fun n r => n.clrRange r.1 r.2).wr R.ERR_DUMP_STATUS_LATER 0 0
  { n with quads := mapAll (fun _ x => { x with maxStack := x.tempStack }) n.quads }

/-- A core after its sheet's reset: fences, counters, T0 copies and scratchpad are gone (R114, R422, R449). -/
def CoreSt.restarted (x : CoreSt) : CoreSt := { (default : CoreSt) with katPartner := x.katPartner }

/-- A letter that waits for its table walks ends with ABORTED. -/
def Node.abortWalk (n : Node) (w : WalkWait) : Node :=
  let (l, r) := n.readLetter w.bytes
  n.answerWhole w.sheet l w.entropy ((r.map fun r => r.partition).getD 0) stAborted 0 (!(l.coverBad w.bytes r))

/-- A hung sheet sends nothing (R409, R414): its requesters see missed deadlines. -/
def Node.hungSheet (n : Node) (s : Nat) : Bool := decide (2 ≤ mapGet n.err.missed s)

/-- What the sorting offices hold ends before it is lost (R428), wherever a sheet can still send: letters with ABORTED,
anchor and ticket contexts with MERGE_LOST. These answers are not among the frames that were in the node: they wait at the
ports (log entry 84). -/
def Node.loseLetters (n : Node) : Node :=
  let n := forEach (n.office.walks.filter fun w => !n.hungSheet w.sheet) n Node.abortWalk
  let n := forEach ((n.office.ctxs.filter fun c => !n.hungSheet c.2.sheet).map Prod.fst) n fun n id => n.failLetter id stAborted 0
  forEach (n.office.merges.filter fun m => m.live && !n.hungSheet m.sheet) n fun n m => n.endMerge m stMergeLost

/-- The sheets are reset: what only they held is gone. -/
def Node.resetSheets (n : Node) : Node :=
  let n := n.dropFrames.loseLetters.clearForWarm
  let n := { n with rowsNow := [], rowsPrev := [], waits := []
                    office := { (default : OfficeSt) with nextId := n.office.nextId }
                    cores := mapAll (fun _ x => x.restarted) n.cores
                    gz := [] }
  let n := n.loadRules.loadRoutes
  let n := forEach (mapKeys n.leaves) n fun n k => if (n.leaf k).shared then n.changeLeaf k fun l => { l with shared := false } else n
  let n := { n with nme := { n.nme with scrubs := [], ops := mapKeep (fun _ o => o.scrub != 2) n.nme.ops } }
  let n := n.modMig fun m => { m with cmds := [], moves := mapAll (fun _ v =>
    { v with cmd := none, answered := if v.kind = .out then false else v.answered }) m.moves }
  let n := { n with pool := { n.pool with renews := [], exts := mapAll (fun _ x => { x with cmd := none }) n.pool.exts } }
  let n := n.modSurvey fun s => { s with reads := [], kats := [] }
  let n := n.modHost fun h => { h with st := .waiting, monitoring := false, quiesce := false, quiesced := false, waiting := []
                                       boxes := mapAll (fun _ b => b.cleared) h.boxes }
  forEach n.quadList n fun n q =>
    n.modQuad q fun x => { x with selfRefresh := true, passes := 0, load := 0, paused := false, goOffline := false
                                  st := if x.goOffline then .offline else x.st
                                  returning := x.returning || (x.goOffline && (x.st == .clearing || x.st == .scrubbing)) }

/-- Level 4: node compute; the warm restart follows. -/
def Node.levelFour (n : Node) (cause : Nat) (cmd : Option CmdRef) : Node :=
  let n := forEach n.coreList n fun n c => n.sample 4 cause c
  let n := (n.flushNow.resetCount 4 cause).summary 4 cause
  let n := n.withdrawOther fun _ => true
  let n := n.abortAll
  let n := n.completeOpt cmd stDone 0 0
  let n := (n.haltEnds true).resetSheets
  let n := n.modBoot fun b => { b with warm := true, startNs := n.now, done := b.done % 16 + b.done / 64 % 2 * 64, chartMs := 0,
                                       hbmMs := 0, lockMs := 0, readyMs := 0, failStep := 0, failCode := 0, stopped := false, late := false }
  n.modErr fun e => { e with warmAt := some n.now, noAdmit := false, fatalNew := false, fatalSrc := none, missed := [], d2dDown := []
                             lastFatal := (if cause = 4 then e.fatalSrc else none), lastFirst := 2 ^ 64 }

/-- A quad that was OFFLINE trains again: filled whole, what it held is unreadable, and it returns to its state. -/
def Node.quadBack (n : Node) (q : Nat) : Node :=
  let runs := n.quadRuns q
  let holds (k : Nat) : Bool := runs.any fun r => r.2.cls == .system && r.2.kind == k
  let n := n.hbmZero (granAddr q 0) (reservedGran * 4096)
  let n := forEach ((n.leaves.filter fun l => n.inT1 l.2 && l.2.quad == q).map Prod.fst) n fun n k => n.poisonPage (n.leaf k).frame
  let n := forEach ((n.seqs.flatMap fun s => s.2.tables.map Prod.snd).filter fun t => frameQuad (t - 1) == q) n fun n t =>
    n.tableUe (t - 1)
  let n := forEach (runs.filter fun r => r.2.isStore) n fun n r => n.poisonRange (granAddr q r.1) (r.2.len * 4096)
  let n := if holds 3 then forEach (mapKeys n.seqs) n fun n s => n.dirUe s q 0 else n
  let n := if holds 7 then forEach (mapKeys n.courier.keys) n fun n k => n.keyUe k q else n
  let n := if holds 8 then forEach (mapKeys n.courier.qps) n fun n x => n.contextLost x else n
  let n := if holds 6 then n.modSurvey fun s => { s with lost := false } else n
  let x := n.quad q
  let n := n.modQuad q fun x => { x with failedCh := 0 }
  let n := if x.returning then n.scrubQuad q
    else n.modQuad q fun y => { y with st := if (n.part y.owner).st = .active ∧ bitAt (n.part y.owner).quads q then .assigned else .unassigned }
  n.restartExtents q

/-- The warm restart is complete (R461): `quads` is the mask of OFFLINE quads that trained again. -/
def Node.warmRestartDone (n : Node) (quads : Nat) : Node :=
  if n.err.warmAt.isNone then n
  else
    let n := forEach n.quadList n fun n q => n.modQuad q fun x => { x with selfRefresh := false }
    let n := n.modErr fun e => { e with warmAt := none }
    let n := n.modBoot fun b => { b with done := b.done ||| 0x30, hbmMs := min ((n.now - b.startNs) / 1000000) 65535 }
    let n := forEach (n.quadList.filter fun q => (n.quad q).st == .offline && bitAt quads q) n fun n q => n.quadBack q
    forEach ((n.pool.exts.filter fun e => e.2.st == .withdrawing).map Prod.fst) n fun n i => n.extentDrained i

/-- Resets at levels 2 to 5 that wait for their boundary, at the end of action 1 (R419, R425). -/
def Node.runResets (n : Node) : Node :=
  forEach n.err.resets (n.modErr fun e => { e with resets := [] }) fun n r =>
    if n.err.warmAt.isSome ∨ n.pins.pwrcycLow then n
    else
      match r.level with
      | 2 => n.levelTwo r
      | 3 => n.levelThree r
      | 4 => n.levelFour r.cause r.cmd
      | _ => n.levelFive r.cause r.cmd true

/-- A reset is asked for: it waits for the next boundary, or acts at once where no ticks run. -/
def Node.askReset (n : Node) (r : ResetReq) : Node :=
  let n := n.modErr fun e => { e with resets := e.resets ++ [r] }
  if n.ticking && n.err.warmAt.isNone then n else n.runResets

/-- RST_STATUS.ACTIVE. -/
def Node.resetActive (n : Node) : Nat :=
  if n.pins.pwrcycLow then 5 else if n.err.warmAt.isSome then 4 else if n.err.level3 ≠ [] then 3
  else if n.cores.any fun c => c.2.mode == .resetting then 2 else 0

/-- RST_CTL.GO, with the LEVEL written beside it. -/
def Node.rstGo (n : Node) (level : Nat) : Node :=
  let n := n.wr R.RST_CTL_LEVEL 0 (level % 8)
  if n.resetActive ≠ 0 ∨ (level ≠ 4 ∧ level ≠ 5) then n else n.askReset ⟨level, 0, 2, none⟩

/-! ## FATAL errors (R412, R414, R424) -/

/-- Does a FATAL error escalate to level 5: during a level 4, or from the same source within 60 s of the first tick after the
level 4 it started? -/
def Node.escalates (n : Node) (source sheet : Nat) : Bool :=
  n.err.warmAt.isSome || (n.err.lastFatal == some (source, sheet) && decide (n.now ≤ n.err.lastFirst + 60000000000))

/-- Are the sheet and link that a FATAL error of a source names there? -/
def Node.fatalUnit (n : Node) (source sheet link : Nat) : Bool :=
  match source with
  | 1 => n.hasLink sheet link
  | 2 => n.hasSheet sheet
  | _ => true

/-- A FATAL error of a source: 1 die-to-die link, 2 sheet hang, 3 hub uncorrectable, 4 hub watchdog, 5 MRAM write. -/
def Node.fatalError (n : Node) (source sheet link : Nat) : Node :=
  let hub := decide (3 ≤ source)
  let first := n.rd R.ERR_STATUS_FATAL 0 == 0 && n.rd R.ERR_STATUS_HUB_FATAL 0 == 0
  let n := n.wr (if hub then R.ERR_STATUS_HUB_FATAL else R.ERR_STATUS_FATAL) 0 1
  let n := if first then n.wrs 0 [(R.ERR_FATAL_INFO_TICK, n.time.tick), (R.ERR_FATAL_INFO_SOURCE, source),
      (R.ERR_FATAL_INFO_SHEET, if hub then 0 else sheet), (R.ERR_FATAL_INFO_LINK, if source = 1 then link else 0)] else n
  let n := n.alarm (if hub then .hub else .sheet sheet) 4 0x0E (if hub then 4 else 3)
  let n := n.modErr fun e => { e with
    d2dDown := if source = 1 then e.d2dDown ++ [(sheet, link)] else e.d2dDown,
    missed := if source = 2 then mapSet e.missed sheet 2 else e.missed }
  let n := n.autoAborts 3
  if n.escalates source sheet then n.levelFive 5 none (source != 5)
  else
    let n := if !hub && n.rd R.ERR_CFG_AUTO_NODE 0 == 0 then n.summary 0 4 else n
    n.modErr fun e => { e with noAdmit := true, fatalNew := true,
                               fatalSrc := if e.fatalSrc.isSome && !hub then e.fatalSrc else some (source, sheet),
                               fatalAt := if e.fatalSrc.isSome && !hub then e.fatalAt else n.now }

/-- FATAL_DELAY_MS has passed: level 4 under AUTO_NODE, level 5 for a hub source. -/
def Node.fatalResetDelay (n : Node) : Node :=
  match n.err.fatalSrc with
  | none => n
  | some (source, _) =>
    let wait := if source = 5 then 100 else n.rd R.ERR_CFG_FATAL_DELAY_MS 0
    if n.now < n.err.fatalAt + wait * 1000000 ∨ n.err.warmAt.isSome ∨ n.pins.pwrcycLow then n
    else if 3 ≤ source then (n.modErr fun e => { e with fatalSrc := none }).levelFive 4 none (source != 5)
    else if n.rd R.ERR_CFG_AUTO_NODE 0 = 1 then n.levelFour 4 none
    else n

/-- A sheet misses two consecutive boundary reports. -/
def Node.sheetHang (n : Node) (s : Nat) : Node := n.fatalError 2 s 0

/-- The hub's 100 ms watchdog lapses. -/
def Node.hubWatchdog (n : Node) : Node := n.fatalError 4 0 0

/-- Level 4 has not completed within 2 s. -/
def Node.resetEscalation (n : Node) : Node :=
  match n.err.warmAt with
  | some t => if t + 2000000000 ≤ n.now then n.levelFive 5 none true else n
  | none => n

/-- While a FATAL error stops admission, shares already collected complete with ABORTED wherever a sheet can still send
(R412). -/
def Node.abortForFatal (n : Node) : Node :=
  if n.err.noAdmit then
    let sends (s : Share) : Bool := !n.hungSheet s.sheet && (mapFind? n.office.ctxs s.ctx).all fun c => !n.hungSheet c.sheet
    forEach (n.office.shares.filter fun s => s.open' && sends s) n fun n s => n.failShare s stAborted 0
  else n

end Sys2Proof.Machine
end

