-- ==== Sys2Proof/Machine/Survey.lean ====
section
/-!
DEFINITION. The Survey (chapter 20): measurements (R433, R434), records and their destinations (R435 to R441), known-answer tests
(R442, R443), histograms and SURVEY_READ (R444 to R446).
-/

namespace Sys2Proof.Machine

/-! ## Records (R435) -/

/-- The 64 bytes of a record with its number; `hide` leaves PARTITION and PART_VALID 0. -/
def recBytes (r : SurvRec) (seq : Nat) (hide : Bool) : Bytes :=
  let part := if hide then 0 else match r.part with
    | some p => p % 32 + 32
    | none => 0
  leBytes 4 (r.cls % 4 + r.severity % 8 * 4 + b2n r.summary * 32 + r.source % 256 * 256 + r.event % 65536 * 65536) ++
  leBytes 4 seq ++ leBytes 8 r.ns ++ leBytes 8 (r.tick % 2 ^ 48 + part * 2 ^ 48) ++
  leBytes 4 (r.core % 1024 + r.quad % 32 * 2 ^ 10 + r.sheet % 8 * 2 ^ 15 + r.port % 16 * 2 ^ 18 + r.lane % 8 * 2 ^ 22) ++
  leBytes 4 (r.tempQuad % 256 + r.tempStack % 256 * 2 ^ 8 + r.vcore % 1024 * 2 ^ 16 + r.op % 4 * 2 ^ 26) ++
  leBytes 4 (r.passes % 65536 + r.load % 256 * 2 ^ 16 + r.guard % 256 * 2 ^ 24) ++ leBytes 4 0 ++
  leBytes 8 r.data0 ++ leBytes 8 r.data1 ++ leBytes 8 r.data2

/-- ALARM_LIST, 256 for none. -/
def Node.alarmList (n : Node) : Nat := n.cw 12 4 0xFFFF 0 256

/-- Write to the MRAM error log (R417). -/
def Node.errorLog (n : Node) (bs : Bytes) : Node :=
  let m := n.mram
  let n := n.mramWrite (0x290000 + m.logNext * 64) bs
  let n := if m.logWraps = 0 then n else n.wr R.ERR_STATUS_LOG_WRAP 0 1
  n.modMram fun m =>
    if m.logNext + 1 < 49152 then { m with logNext := m.logNext + 1 }
    else { m with logNext := 0, logWraps := min (m.logWraps + 1) 65535 }

/-- Write to the HBM log ring (R441). -/
def Node.ringRecord (n : Node) (bs : Bytes) : Node :=
  let w := n.rd R.SVY_RING_IDX_WRITE 0
  let used := (w + 2 ^ 32 - n.rd R.SVY_RING_IDX_READ 0) % 2 ^ 32
  let n := n.hbmStore (n.rd R.SVY_RING_BASE_ADDR 0 + w % 2 ^ 24 * 64) bs
  let n := if 2 ^ 24 ≤ used then (n.inc R.SVY_RING_OVR_OVERWRITTEN 0 1).wr R.SVY_STATUS_RING_WRAPPED 0 1 else n
  n.wr R.SVY_RING_IDX_WRITE 0 ((w + 1) % 2 ^ 32)

/-- A written ALARM record goes to the list of the chart and to the PLDM receiver (R440, R448). -/
def Node.announce (n : Node) (r : SurvRec) (seq : Nat) : Node :=
  let n := if n.alarmList = 256 then n
    else forEach (n.distList n.alarmList) n fun n pc =>
      n.sendPkt (n.mkPkt pc (n.now + n.spanNs) ptAlarm 0 0 (recBytes r seq false)) 32
  if n.pldm.receiver.isSome then
    { n with pldm := { n.pldm with events := n.pldm.events + 1, lastEvent := recBytes r seq true } }
  else n

/-- A record reaches the hub and is written where its class goes (R436). -/
def Node.writeRecord (n : Node) (r : SurvRec) : Node :=
  let seq := n.rd R.SVY_RING_IDX_WRITE 0
  let n := n.inc R.SVY_CLASS_CNT_WRITTEN (8 * r.cls) 1
  let n := if r.cls < 2 ∧ r.source ≠ 0x11 then n.errorLog (recBytes r seq false) else n
  let n := if n.survey.laid then n.ringRecord (recBytes r seq false) else n
  if r.cls = 0 ∧ r.source ≠ 0x11 then n.announce r seq else n

/-- SURVEY_RECORD: the next formed record arrives at the hub. -/
def Node.surveyRecord (n : Node) : Node :=
  match n.survey.queue with
  | [] => n
  | r :: rest =>
    let n := n.modSurvey fun s => { s with queue := rest }
    if n.survey.lost then n.dropRec r else n.writeRecord r

/-- The summary of a class's drops, written before any other record of the class (R439); its severity is not stated, none. -/
def Node.summaryRec (n : Node) (cls : Nat) : Node :=
  let d := n.survey.drops.getD cls default
  if d.count = 0 ∨ n.tokens cls = 0 ∨ n.survey.lost ∨ (!n.survey.laid && decide (2 ≤ cls)) then n
  else
    let r := { d.record with summary := true, severity := 0, event := 0xFFFF, ns := n.now, tick := n.time.tick,
                             data0 := d.count, data1 := d.first, data2 := d.last }
    let n := n.modSurvey fun s => { s with queue := s.queue.takeWhile (·.cls != cls) ++ r :: s.queue.dropWhile (·.cls != cls)
                                           drops := listPut default s.drops cls default
                                           tokens := listPut 0 s.tokens cls (s.tokens.getD cls 0 - 1) }
    (n.wr R.SVY_DROP_FIRST_MER_NS (8 * cls) 0).wr R.SVY_DROP_LAST_MER_NS (8 * cls) 0

/-- BUCKET_REFILL at a Meridian millisecond. -/
def Node.bucketRefill (n : Node) : Node :=
  let ms := n.now / 1000000
  let k := ms - n.survey.refillAt
  if k = 0 then n
  else
    let rx := n.cw 12 4 0xFFFF 1 16
    let n := n.modSurvey fun s =>
      { s with refillAt := ms, tokens := (upTo 4).map fun c => min (s.tokens.getD c 0 + k * n.survRate c) (n.survBurst c)
               rxTokens := min (s.rxTokens + k * rx) rx }
    forEach (upTo 4) n fun n c => n.summaryRec c

/-- An ALARM frame of another node. -/
def Node.alarmArrives (n : Node) (src : Nat) (m : Bytes) : Node :=
  let known := n.alarmList != 256 && (n.distList n.alarmList).contains src
  if !known || m.length != 64 || n.survey.rxTokens == 0 || n.survey.lost || !n.survey.laid then n.inc R.SVY_RX_ALARM_DROPPED 0 1
  else
    let (e, n) := n.fresh
    let r := { mkRec 0 0 0x11 (e % 65536) none (leAt m 0 8) (leAt m 8 8) (leAt m 16 8) with ns := n.now, tick := n.time.tick, op := n.power.op }
    let n := n.modSurvey fun s => { s with rxTokens := s.rxTokens - 1, queue := s.queue ++ [r] }
    n.inc R.SVY_RX_ALARM_ACCEPTED 0 1

/-- A write of SVY_RING_IDX.READ counts only forward and up to WRITE. -/
def Node.ringReadAdvance (n : Node) (v : Nat) : Node :=
  let r := n.rd R.SVY_RING_IDX_READ 0
  let w := n.rd R.SVY_RING_IDX_WRITE 0
  if (v + 2 ^ 32 - r) % 2 ^ 32 ≤ (w + 2 ^ 32 - r) % 2 ^ 32 then n.wr R.SVY_RING_IDX_READ 0 (v % 2 ^ 32) else n

/-! ## Samples (R433, R434) -/

/-- An eye monitor's sample of an UP lane. -/
def Node.eyeMonitorSample (n : Node) (p lane height width : Nat) : Node :=
  if (n.port p).st ≠ .up then n
  else
    let a := histLaneAt p lane
    let n := n.histInc (a + min (height / 4) 15 * 4) 4 1
    let n := n.histInc (a + 0x40 + min (width / 40) 15 * 4) 4 1
    let n := (n.histMin (a + 0x80) 4 height).histMin (a + 0x84) 4 width
    if height < n.eyeWarn then n.oncePerSecond (2 ^ 20 + p * 8 + lane) fun n => n.healthRec (.port p lane) 0x10 0x210 height width 0
    else n

/-- A UCIe lane's margin. -/
def Node.ucieMarginSample (n : Node) (m lane margin : Nat) : Node :=
  let a := histUcieAt m
  let n := (n.histMin (a + 2 * lane) 2 margin).histPut (a + 0x100 + 2 * lane) 2 margin
  if margin < n.marginWarn then n.oncePerSecond (2 * 2 ^ 20 + m) fun n => n.healthRec .hub 0x10 0x211 (lane * 2 ^ 8) margin 0
  else n

/-- The lowest guard band of a quad over 1 ms. -/
def Node.guardBandSample (n : Node) (q lowest : Nat) : Node :=
  let n := n.modQuad q fun x => { x with guardMv := lowest }
  let a := histQuadAt q
  let n := (n.histInc (a + 0x80 + min (lowest / 5) 15 * 8) 8 1).histMin (a + 0x100) 4 lowest
  if lowest < n.guardWarn then n.oncePerSecond (4 * 2 ^ 20 + q) fun n => n.healthRec (.quad q) 0x10 0x213 lowest 0 0
  else n

/-! ## Known-answer tests (R442, R443) -/

def Node.katInterval (n : Node) : Nat := n.cw 12 2 0xFFFF 0 1024
def Node.katFence (n : Node) : Nat := n.cw 12 2 0xFFFF 1 2

/-- The higher core of a pair, by its lower core. -/
def Node.katMate (n : Node) (c : Nat) : Nat := c + n.nCores / 2

/-- Select a pair that is due at the present tick (action 6), once. A core of the pair that had no room in its whole interval
counts as skipped. -/
def Node.katDue (n : Node) (core : Nat) : Node :=
  let c := core % (n.nCores / 2)
  let t := n.time.tick
  if !n.ticking ∨ (t + c) % n.katInterval ≠ 0 ∨ (n.core c).katTick = some t then n
  else
    let late := n.survey.kats.filter fun d => d.core == c
    let skipped := late.foldl (fun a d => a + (if d.done = 0 then 2 else 1)) 0
    let n := (n.modCore c fun x => { x with katTick := some t }).modSurvey fun s =>
      { s with kats := (s.kats.filter fun d => d.core != c) ++ [⟨c, t / n.katInterval % 256, t, 0⟩] }
    n.inc R.SVY_KAT_CNT_SKIPPED 0 skipped

/-- Every pair due at the present tick. -/
def Node.katsDue (n : Node) : Node := forEach (upTo (n.nCores / 2)) n fun n c => n.katDue c

/-- Cycles committed on a core in the present tick. -/
def Node.committed (n : Node) (c : Nat) : Nat :=
  (n.office.passes.filter fun p => p.core == c).foldl (fun a p => a + p.cycles) 0

/-- May a core run a test at all: not halted, parked, hung, OFFLINE, nor in the middle of one? -/
def Node.katOk (n : Node) (c : Nat) : Bool :=
  let halted := match n.quadOwner (coreQuad c) with
    | some p => n.haltedPart p
    | none => n.dbg.halted && !n.dbg.scopeParts && n.sec.st != .owned
  !halted && !n.quadParked (coreQuad c) && (n.core c).mode == .normal && (n.core c).katNow.isNone

/-- Has a core room for the test behind its passes? -/
def Node.katRoom (n : Node) (c : Nat) : Bool := n.katOk c && decide (n.committed c + 128 ≤ n.budget)

/-- Start a core's test; the partner is 1,024 for none. -/
def Node.katStart (n : Node) (c seed : Nat) (folded : Bool) (mate : Nat) : Node :=
  n.modCore c fun x => { x with katNow := some (seed, folded, mate), katGot := none }

/-- May the folded variant run on these cores? -/
def Node.katFolded (n : Node) (cs : List Nat) : Bool :=
  n.ident.part.fold && cs.all fun c => decide (n.committed c + 160 ≤ n.budget)

/-- One core of a pair runs alone. -/
def Node.katAlone (n : Node) (d : KatDue) (c bit : Nat) : KatDue × Node :=
  if bitAt d.done bit || !n.katRoom c then (d, n)
  else ({ d with done := d.done ||| 2 ^ bit }, n.katStart c d.seed (n.katFolded [c]) 1024)

/-- Place one pair's test behind the admitted passes. -/
def Node.katPlace (n : Node) (d : KatDue) : Option KatDue × Node :=
  let c := d.core
  let m := n.katMate c
  if d.done = 0 ∧ n.katRoom c ∧ n.katRoom m then
    let f := n.katFolded [c, m]
    (none, (n.katStart c d.seed f m).katStart m d.seed f c)
  else
    let alone := decide (d.dueTick + n.katInterval ≤ n.time.tick + 1)
    let (d, n) := if alone || !n.katOk m then n.katAlone d c 0 else (d, n)
    let (d, n) := if alone || !n.katOk c then n.katAlone d m 1 else (d, n)
    (if d.done = 3 then none else some d, n)

/-- After admission: tests of every pair that waits. -/
def Node.placeKats (n : Node) : Node :=
  let ds := n.survey.kats
  let (left, n) := ds.foldl (fun (a : List KatDue × Node) d =>
    match a.2.katPlace d with
    | (some d, n) => (a.1 ++ [d], n)
    | (none, n) => (a.1, n)) ([], n)
  n.modSurvey fun s => { s with kats := left }

/-- Is a digest the table's? -/
def Node.katGood (n : Node) (seed : Nat) (folded : Bool) (digest : Nat) : Bool :=
  mapGet n.ident.kat (seed + 256 * b2n folded) == digest

/-- Judge one core's test, with its partner's result: 0 PASS, 1 FAIL, 2 ABSENT. -/
def Node.katJudge (n : Node) (c seed : Nat) (folded : Bool) (digest partner : Nat) : Node :=
  let good := n.katGood seed folded digest
  let n := (n.inc R.SVY_KAT_CNT_RUN 0 1).histInc (histNodeAt + 0xA8) 8 1
  let n := n.modCore c fun x =>
    { x with katNow := none, katGot := none, katPartner := partner, katRuns := min (x.katRuns + 1) (2 ^ 32 - 1)
             katConsec := (if good then 0 else min (x.katConsec + 1) 15)
             katFails := (if good then x.katFails else min (x.katFails + 1) 65535) }
  if good then n.histCore c 2
  else
    let n := (n.inc R.SVY_KAT_CNT_FAILED 0 1).histCore c 1
    n.faultRec (.core c) 3 0x10 0x200 none (seed + b2n folded * 2 ^ 8 + partner * 2 ^ 9)
      (mapGet n.ident.kat (seed + 256 * b2n folded)) digest

/-- A core's test ends with a digest; a pair is judged when both are there. -/
def Node.katComplete (n : Node) (c digest : Nat) : Node :=
  match (n.core c).katNow with
  | none => n
  | some (seed, folded, mate) =>
    if mate = 1024 ∨ (n.core mate).katNow ≠ some (seed, folded, c) then n.katJudge c seed folded digest 2
    else
      match (n.core mate).katGot with
      | none => n.modCore c fun x => { x with katGot := some digest }
      | some other =>
        let mine := b2n (!n.katGood seed folded digest)
        let theirs := b2n (!n.katGood seed folded other)
        (n.katJudge (min c mate) seed folded (if c < mate then digest else other) (if c < mate then theirs else mine)).katJudge
          (max c mate) seed folded (if c < mate then other else digest) (if c < mate then mine else theirs)

/-- Cores that failed KAT_FENCE tests in a row are fenced at the boundary. -/
def Node.katFences (n : Node) : Node :=
  forEach (n.coreList.filter fun c => !(n.core c).fenceKat && decide (max n.katFence 1 ≤ (n.core c).katConsec)) n fun n c =>
    (n.modCore c fun x => { x with fenceKat := true }).faultRec (.core c) 3 0x10 0x201 none (n.core c).katConsec 0 0

/-! ## Histograms to MRAM, and SURVEY_READ (R445, R446) -/

/-- Is a flush in progress? -/
def Node.flushBusy (n : Node) : Bool := n.survey.flushUntil.any fun t => decide (n.now < t)

/-- A flush that has ended leaves its time. -/
def Node.flushEnds (n : Node) : Node :=
  match n.survey.flushUntil with
  | some t => if t ≤ n.now then (n.modSurvey fun s => { s with flushUntil := none }).wr R.SVY_FLUSH_NS_MER_NS 0 t else n
  | none => n

/-- Every 10 minutes. -/
def Node.histogramFlush (n : Node) : Node := n.flushNow

/-- SVY_CTL.FLUSH; how long the writing takes is not stated. -/
def Node.flush (n : Node) : Node :=
  if n.flushBusy then n
  else
    let (v, n) := n.flushEnds.fresh
    n.saveHisto.modSurvey fun s => { s with flushUntil := some (n.now + v) }

/-- The eight areas: base in MRAM, entries, bytes of an entry. -/
def surveyArea (k : Nat) : Nat × Nat × Nat :=
  match k with
  | 0 => (0x290000, 49152, 64) | 1 => (0x590000, 4096, 256) | 2 => (0x690000, 800, 512) | 3 => (0x6F4000, 128, 256)
  | 4 => (0x6FC000, 32, 512) | 5 => (0x700000, 512, 1024) | 6 => (0x780000, 4, 1024) | _ => (0x781000, 1, 4096)

/-- Bytes of the MRAM. -/
def Node.mramRead (n : Node) (a len : Nat) : Bytes := (span a len).map fun i => mapGetD 0 n.mram.bytes i

/-- The first granule of a range that is not of class HOST. -/
def Node.notHost (n : Node) (a len : Nat) : Option Nat :=
  (span (a / 4096) ((a + len + 4095) / 4096 - a / 4096)).find? fun g => n.classOf (addrQuad (g * 4096)) (addrGran (g * 4096)) != .host

/-- SURVEY_READ is checked and its copy begins. -/
def Node.surveyRead (n : Node) (ref : CmdRef) (bs : Bytes) : Applied :=
  let (base, count, size) := surveyArea (cmdBits bs 0x10 0 4)
  let first := cmdD bs 0x14
  let k := cmdD bs 0x18
  let dest := cmdQ bs 0x20
  if k = 0 ∨ count < first + k ∨ cmdD bs 0x1C < k * size then failCmd n stBadLength 0
  else
    let a := dest % 2 ^ 41
    match (if bitAt dest 63 then none else n.notHost a (k * size)) with
    | some g => failCmd n stBadState (n.classOf (addrQuad (g * 4096)) (addrGran (g * 4096))).code
    | none =>
      .later (n.modSurvey fun s =>
        { s with reads := s.reads ++ [⟨ref, !bitAt dest 63, dest, n.mramRead (base + first * size) (k * size)⟩] })

/-- The oldest copy is complete. -/
def Node.surveyReadDone (n : Node) : Node :=
  match n.survey.reads with
  | [] => n
  | r :: rest =>
    let n := n.modSurvey fun s => { s with reads := rest }
    let n := if r.hbm || n.host.link then n.ringWrite r.dest r.bytes else n
    n.complete r.cmd stDone 0 r.bytes.length

end Sys2Proof.Machine
end

