-- ==== Sys2Proof/Machine/Pldm.lean ====
section
/-!
DEFINITION. The PLDM responder on the management bus (R448). The spec names the requests; the numbers of sensors and effecters,
the command codes and the completion codes are those of log entry 41.
-/

namespace Sys2Proof.Machine

/-- Completion codes (log entry 41). -/
def pldmOk : Nat := 0
def pldmInvalidData : Nat := 2
def pldmUnsupported : Nat := 5
def pldmNoSensor : Nat := 0x80

/-- Keep the answer: completion code and data. -/
def Node.pldmAnswer (n : Node) (code : Nat) (data : List Nat) : Node := { n with pldm := { n.pldm with answer := code :: data } }

/-! ## Type 0 -/

def Node.getTid (n : Node) : Node := n.pldmAnswer pldmOk [n.pldm.tid]

/-- The version of a supported type; its number is not stated. -/
def Node.getPldmVersion (n : Node) (typ : Nat) : Node :=
  if typ = 0 ∨ typ = 2 then
    let (v, n) := n.fresh
    n.pldmAnswer pldmOk [v % 2 ^ 32]
  else n.pldmAnswer pldmUnsupported []

/-- Types 0 and 2. -/
def Node.getPldmTypes (n : Node) : Node := n.pldmAnswer pldmOk [2 ^ 0 + 2 ^ 2]

/-- The commands of a type. -/
def Node.getPldmCommands (n : Node) (typ : Nat) : Node :=
  match typ with
  | 0 => n.pldmAnswer pldmOk [0x02, 0x03, 0x04, 0x05]
  | 2 => n.pldmAnswer pldmOk [0x04, 0x0A, 0x11, 0x21, 0x31, 0x39, 0x51]
  | _ => n.pldmAnswer pldmUnsupported []

/-! ## Sensors -/

/-- A record of the PDR repository; its contents are not stated. -/
def Node.getPdr (n : Node) (handle : Nat) : Node :=
  let (v, n) := n.fresh
  n.pldmAnswer pldmOk [handle, v]

/-- Numeric sensors: 0 to 31 quad temperature, 32 to 63 stack temperature, 64 package power, 65 to 72 VCORE of a sheet; a
measured voltage is a free value. -/
def Node.getSensorReading (n : Node) (sensor : Nat) : Node :=
  if sensor < 32 ∧ n.hasQuad sensor then n.pldmAnswer pldmOk [(n.quad sensor).tempDie]
  else if 32 ≤ sensor ∧ sensor < 64 ∧ n.hasQuad (sensor - 32) then n.pldmAnswer pldmOk [(n.quad (sensor - 32)).tempStack]
  else if sensor = 64 then n.pldmAnswer pldmOk [n.power.avg]
  else if 65 ≤ sensor ∧ n.hasSheet (sensor - 65) then
    let (v, n) := n.fresh
    n.pldmAnswer pldmOk [v % 1024]
  else n.pldmAnswer pldmNoSensor []

def MerState.code : MerState → Nat
  | .free => 0 | .acquire => 1 | .locked => 2 | .holdover => 3 | .unlocked => 4

def HostState.code : HostState → Nat
  | .waiting => 0 | .active => 1 | .orphan => 2

/-- State sensors: 0 security state, 1 power state, 2 HP_STATUS.HOST, 3 Meridian state. -/
def Node.getStateSensorReadings (n : Node) (sensor : Nat) : Node :=
  match sensor with
  | 0 => n.pldmAnswer pldmOk [n.sec.st.code]
  | 1 => n.pldmAnswer pldmOk [n.powerState]
  | 2 => n.pldmAnswer pldmOk [n.host.st.code]
  | 3 => n.pldmAnswer pldmOk [n.time.st.code]
  | _ => n.pldmAnswer pldmNoSensor []

/-- The receiver of ALARM events. -/
def Node.setEventReceiver (n : Node) (eid : Nat) : Node :=
  { n with pldm := { n.pldm with receiver := if eid = 0 then none else some eid, answer := [pldmOk] } }

/-! ## Effecters -/

def Node.grants (n : Node) : Nat := n.cw 12 5 0xFFFF 1 0

/-- Ask for a granted effecter's value at the next boundary. -/
def Node.wantEffecter (n : Node) (eff v : Nat) : Node :=
  { n with pldm := { n.pldm with wants := (n.pldm.wants.filter fun w => w.1 != eff) ++ [(eff, v)], answer := [pldmOk] } }

/-- Numeric effecter 0: PWR_CFG.OP_LIMIT. -/
def Node.setNumericEffecterValue (n : Node) (eff v : Nat) : Node :=
  if eff ≠ 0 ∨ !bitAt n.grants 0 then n.pldmAnswer pldmUnsupported []
  else if 3 < v then n.pldmAnswer pldmInvalidData []
  else n.wantEffecter 0 v

/-- State effecters: 1 STANDBY, 2 POWER_CYCLE, which acts as RESET_LEVEL 5. -/
def Node.setStateEffecterStates (n : Node) (eff v : Nat) : Node :=
  if (eff ≠ 1 ∧ eff ≠ 2) ∨ !bitAt n.grants eff then n.pldmAnswer pldmUnsupported []
  else if 1 < v then n.pldmAnswer pldmInvalidData []
  else if eff = 1 then n.wantEffecter 1 v
  else if v = 0 then n.pldmAnswer pldmOk []
  else (n.pldmAnswer pldmOk []).askReset ⟨5, 0, 1, none⟩

/-- The host wrote PWR_CFG.OP_LIMIT (bit 0) or PWR_CTL.STANDBY (bit 1): its write wins at the coming boundary. -/
def Node.hostWrotePower (n : Node) (bit : Nat) : Node :=
  { n with pldm := { n.pldm with hostWrote := n.pldm.hostWrote ||| 2 ^ bit } }

/-- Granted effecters take effect, before action 4 reads the power registers. -/
def Node.effectersDue (n : Node) : Node :=
  let ws := n.pldm.wants.filter fun w => !bitAt n.pldm.hostWrote w.1
  let n := { n with pldm := { n.pldm with wants := [], hostWrote := 0 } }
  forEach ws n fun n w => if w.1 = 0 then n.wr R.PWR_CFG_OP_LIMIT 0 w.2 else n.wr R.PWR_CTL_STANDBY 0 w.2

end Sys2Proof.Machine
end

