-- ==== Sys2Proof/Machine/Startup.lean ====
section
/-!
DEFINITION. Power, start-up and power-off (chapters 21 and 22): cold start (R450 to R459), NODE_RESET_N (R423), power-off (R469)
and the thermal trip (R476).
-/

namespace Sys2Proof.Machine

/-! ## What survives (R368, R462) -/

/-- The security state a start-up finds in MRAM. Signing resumes at RES_END (R375). -/
def SecSt.kept (s : SecSt) : SecSt :=
  { (default : SecSt) with st := s.st, ownerEcdsa := s.ownerEcdsa, ownerLms := s.ownerLms, ctrFw := s.ctrFw,
                           ctrChart := s.ctrChart, ctrDebug := s.ctrDebug, lmsNext := s.resEnd, resEnd := s.resEnd,
                           nonceNo := s.nonceNo }

/-- The test port, which NODE_RESET_N does not reset. -/
def DebugSt.tap (d : DebugSt) : DebugSt :=
  { (default : DebugSt) with ir := d.ir, refused := d.refused, dr := d.dr, outputs := d.outputs }

/-- A node that has lost everything but its package, its pins, its MRAM and the time it counts. -/
def Node.bare (n : Node) : Node :=
  { (default : Node) with
    ident := n.ident, pins := { n.pins with avsEn := 0, ppsOut := none }, mram := n.mram
    time := { (default : TimeSt) with now := n.now, frac := n.time.frac }
    sec := n.sec.kept, dbg := n.dbg.tap, freeCtr := n.freeCtr
    survey := { (default : SurveySt) with histo := mapKeep (fun k _ => decide (0x690000 ≤ k)) n.mram.bytes } }

/-- The hub comes out of reset and its ROM reads slot A (R453 step 1). -/
def Node.coldStart (n : Node) : Node :=
  n.bare.modBoot fun b => { b with rom := true, startNs := n.now }

/-- PWR_GOOD rises; not while THERMTRIP_N is low (R476). -/
def Node.powerGoodRise (n : Node) : Node :=
  if n.pins.pwrGood ∨ n.pins.thermLow then n
  else (n.modPins fun p => { p with pwrGood := true }).coldStart.modDebug fun d => { d with ir := irIdcode }

/-- PWR_GOOD falls: Off (R390, R469, R473). -/
def Node.powerOff (n : Node) : Node :=
  (n.modPins fun p => { p with pwrGood := false, pwrcycLow := false }).bare.modDebug fun _ => { (default : DebugSt) with ir := irIdcode }

/-- NODE_RESET_N goes low or high (R423): as level 5, with power applied. -/
def Node.nodeReset (n : Node) (low : Bool) : Node :=
  if n.pins.resetLow = low then n
  else if low then
    let n := if n.pins.pwrGood then
        (if n.boot.rom then n.resetCount 5 6 else (n.flushNow.resetCount 5 6).summary 5 6)
      else n
    (n.modPins fun p => { p with resetLow := true, pwrcycLow := false }).bare
  else
    let n := n.modPins fun p => { p with resetLow := false }
    if n.pins.pwrGood then n.coldStart else n

/-! ## The thermal trip (R476) -/

/-- Is there a sensor of a number: 0 to 31 quad, 32 hub, 64 to 95 stack of quad i - 64? -/
def Node.hasSensor (n : Node) (sensor : Nat) : Bool := sensor == 32 || n.hasQuad (if 64 ≤ sensor then sensor - 64 else sensor)

/-- A sensor reads a temperature. -/
def Node.thermtrip (n : Node) (sensor celsius : Nat) : Node :=
  let limit := if 64 ≤ sensor then 105 else 115
  if n.hasSensor sensor ∧ limit ≤ celsius ∧ !n.pins.thermLow then n.modPins fun p => { p with thermLow := true, tripHeld := some (sensor, celsius) } else n

/-- THERMTRIP_N is released once PWR_GOOD is low and every sensor reads below 95 °C. -/
def Node.thermtripRelease (n : Node) : Node :=
  if n.pins.pwrGood then n else n.modPins fun p => { p with thermLow := false }

/-! ## Firmware and unsealing (R451, R452, R454) -/

/-- Time of a start-up event given in ms from PWR_GOOD. -/
def Node.atMs (n : Node) (ms : Nat) : Node := n.at (n.boot.startNs + ms * 1000000)

/-- The order of the parts in VARIANT_PARTS and PARTS. -/
def Part.order : Part → Nat
  | .vxa8032 => 0 | .vxa8032c => 1 | .vxa4016 => 2 | .vxa2008 => 3

/-- Is a firmware image to be rejected for its header, its lengths or its signatures? -/
def Node.imageBad (n : Node) (bs : Bytes) : Bool :=
  let sig := leAt bs 0x14 4
  leAt bs 0 8 != 0x574D524946415856 || leAt bs 8 2 != 1 || !bitAt (leAt bs 8 4) (16 + n.ident.part.order) ||
    bits (leAt bs 8 4) 20 12 != 0 || leAt bs 0x18 40 != 0 || leAt bs 0x10 4 != bs.length || decide (2 ^ 25 < bs.length) ||
    sig % 8 != 0 || decide (sig < 0x40) || leAt bs 0x10 4 != lmsOff sig + lmsLen || !n.sec.accepts .firmware bs sig

/-- A slot is rejected: slot B is tried, or the node stays in ROM and drives TRAY_ALERT_N low. -/
def Node.slotFails (n : Node) (code : Nat) : Node :=
  let n := n.modBoot fun b => { b with fwBytes := [], fwVer := 0, done := 0 }
  if n.boot.romSlot = 0 then n.modBoot fun b => { b with romSlot := 1 }
  else n.modBoot fun b => { b with slotsBad := true, failStep := 1, failCode := code }

/-- The ROM has read and verified the present slot; no image stands for a read error. -/
def Node.firmwareVerified (n : Node) (image : Option Bytes) : Node :=
  if !n.boot.rom || n.boot.slotsBad || n.boot.fwBytes != [] || n.boot.failStep != 0 then n
  else
    match image with
    | none => n.slotFails 1
    | some bs =>
      if n.imageBad bs then n.slotFails 2
      else n.modBoot fun b =>
        { b with fwBytes := bs.take (leAt bs 0x14 4), fwVer := leAt bs 0x0C 4, slot := b.romSlot, done := 1 }

/-- The security state area has no verifying copy: RETURNED with every counter 0, and only REPROVISION (R459). Where the HSS
reservation then stands is not stated. -/
def Node.stateLost (n : Node) : Node :=
  let (v, n) := n.fresh
  (n.modSec fun s => { s with st := .returned, ctrFw := 0, ctrChart := 0, ctrDebug := 0, lmsNext := v % 2 ^ 30, resEnd := v % 2 ^ 30 }).modBoot
    fun b => { b with ownerErr := true, failStep := 2, failCode := 6 }

/-- Step 3: the device secret, the MRAM areas, the rollback check; then the firmware runs. -/
def Node.unsealDone (n : Node) (pufOk ownerOk stateOk : Bool) : Node :=
  if !n.boot.rom || n.boot.fwBytes == [] || n.boot.failStep != 0 then n
  else if !pufOk then
    (n.wr R.SEC_ERR_STATUS_PUF_FAIL 0 1).modBoot fun b => { b with failStep := 2, failCode := 5 }
  else
    let n := if stateOk && ownerOk then n else n.wr R.SEC_ERR_STATUS_UNSEAL_FAIL 0 1
    let n := if stateOk then n else n.stateLost
    if n.boot.fwVer < n.sec.ctrFw then (n.wr R.SEC_ERR_STATUS_ROLLBACK 0 1).slotFails 2
    else
      let n := n.modSec fun s => { s with ownerAbsent := s.st == .owned && !ownerOk, mFirmware := sha384 n.boot.fwBytes
                                          mChart := leBytes 48 0, mOverlays := leBytes 48 0 }
      let n := n.modSec fun s => { s with level := n.freeLevel }
      (n.modChart fun c => { c with st := .waiting }).modBoot fun b => { b with rom := false, done := b.done ||| 3 }

/-- Does the hub answer more than the ID_ and CAP_ registers: powered, out of reset, firmware running? -/
def Node.awake (n : Node) : Bool := n.pins.pwrGood && !n.pins.resetLow && !n.boot.rom

/-! ## Sheets, stacks, layout (R455 to R457) -/

/-- A failure of step 7 stops the start-up: 3 rail, 4 die-to-die link. During a warm restart it escalates to level 5. -/
def Node.sheetFails (n : Node) (code : Nat) : Node :=
  if n.err.warmAt.isSome then n.levelFive 5 none true
  else (n.summary 0 0).modBoot fun b => { b with stopped := true, failStep := 5, failCode := code }

/-- A sheet is powered; sheets come in ascending order. -/
def Node.sheetPowerUp (n : Node) (s : Nat) (railsOk linksOk : Bool) : Node :=
  if n.err.warmAt.isSome then
    if railsOk && linksOk then n else n.sheetFails (if railsOk then 4 else 3)
  else if !n.awake || n.boot.stopped || n.pins.pwrcycLow || n.boot.sheetsUp + 1 != 2 ^ s then n
  else
    let n := n.modPins fun p => { p with avsEn := p.avsEn ||| 2 ^ s }
    if !railsOk then n.sheetFails 3
    else if !linksOk then n.sheetFails 4
    else
      let n := n.modBoot fun b => { b with sheetsUp := b.sheetsUp ||| 2 ^ s }
      if n.boot.sheetsUp = n.sheetMask then
        (n.modBoot fun b => { b with done := b.done ||| 0x10 }).modPower fun p => { p with op := 3 }
      else n

/-- A die-to-die link that failed to replay was retrained once (R19): failing again is FATAL, or stops the start-up. The
replay is counted; one that succeeds is no event of the table and is not (log entry 88). -/
def Node.d2dReplayTimeout (n : Node) (s link : Nat) (trained : Bool) : Node :=
  let n := n.modSurvey fun x => { x with replays := mapMod x.replays (4 * s + link) (· + 1) }
  if trained then n
  else if !bitAt n.boot.done 4 || n.err.warmAt.isSome then n.sheetFails 4
  else n.fatalError 1 s link

/-- Every channel has finished training: its margins are recorded, and a quad with a failed channel is OFFLINE (R214). -/
def Node.hbmTrained (n : Node) (channels : List ChMargins) : Node :=
  if !bitAt n.boot.done 4 || n.boot.trained then n
  else
    let n := forEach n.quadList n fun n q => n.modQuad q fun x =>
      if x.failedCh = 0 then x else { x with st := .offline, goOffline := false }
    let n := forEach (channels.filter fun c => n.hasQuad c.quad && decide (c.channel < 16)) n fun n c =>
      n.recordMargins c.quad c.channel c.margins
    n.modBoot fun b => { b with trained := true }

/-- The initialisation FILL is complete: HBM is zero, the granule maps are rebuilt from the retirement mirror, and granules
that failed during it (`failed`: quad × 2^24 + granule) are retired. -/
def Node.hbmInitDone (n : Node) (failed : List Nat) : Node :=
  if !n.boot.trained || n.boot.hbmReady then n
  else
    let n := { n with hbm := [], poison := [], granules := [] }
    let n := forEach n.quadList n fun n q => n.modQuad q fun x =>
      { x with retired := sortOn id ((n.mram.mirror.filter fun m => m.1 == q).map Prod.snd), retireReq := [] }
    let n := forEach n.mram.mirror n fun n m => n.setClass m.1 m.2 1 .retired 0 0
    let n := forEach failed n fun n f =>
      if n.hasQuad (f / 2 ^ 24) ∧ f % 2 ^ 24 < reservedGran ∧ n.classOf (f / 2 ^ 24) (f % 2 ^ 24) = .free then n.retireOne (f / 2 ^ 24) (f % 2 ^ 24) false 0 0 else n
    let n := n.modBoot fun b => { b with hbmReady := true, done := b.done ||| 0x20, hbmMs := min ((n.now - b.startNs) / 1000000) 65535 }
    if n.hasChart then forEach n.quadList n fun n q => n.layHost q else n

/-- Set granules of an ONLINE quad aside for a node-wide structure, in the first quad with room. -/
def Node.layStructure (n : Node) (kind bytes : Nat) : Node :=
  let len := (bytes + 4095) / 4096
  if len = 0 then n
  else match n.quadList.findSome? fun q => if (n.quad q).st = .offline then none else (n.findFree q len).map fun g => (q, g) with
    | some (q, g) => n.setClass q g len .system 0 kind
    | none => n

/-- The log ring: the highest granules below the host area of quad 0, or of the lowest quad that trained (R441). -/
def Node.layRing (n : Node) : Node :=
  match n.quadList.find? fun q => (n.quad q).st != .offline with
  | none => n
  | some q =>
    match highFit 262144 (reservedGran - n.hostGranules q) (n.quadRuns q) with
    | none => n
    | some g => (n.setClass q g 262144 .system 0 6).wr R.SVY_RING_BASE_ADDR 0 (granAddr q g)

/-- The crash dump: granules 0 to 125 of each quad (R416), also of one that is OFFLINE and may come back (R461); a retired
granule among them stays retired. -/
def Node.layDump (n : Node) : Node :=
  forEach n.quadList n fun n q =>
    forEach (freeGaps 0 126 (n.quadRuns q)) n fun n g => n.setClass q g.1 g.2 .system 0 5

/-- Step 10: the SYSTEM structures the chart sizes. -/
def Node.systemLayoutDone (n : Node) : Node :=
  if !n.boot.hbmReady || !n.hasChart || n.boot.laid then n
  else
    let n := n.layDump.layRing
    let n := n.layStructure 3 (n.seqLimit * 64)
    let n := n.layStructure 7 (n.keyLimit * 64)
    let n := if n.cw 14 3 0xFFFF 2 0 = 0 then n.layStructure 8 (n.cw 14 3 0xFFFF 1 1048576 * 256) else n
    let n := (n.modBoot fun b => { b with laid := true }).modSurvey fun s => { s with laid := true }
    let n := n.layStores
    match n.pins.tripHeld with
    | none => n
    | some (sensor, c) => (n.modPins fun p => { p with tripHeld := none }).alarmRec .hub 0 0x10 0x220 sensor c 0

/-- READY not reached 5 s after PWR_GOOD: a FAULT record naming the missing DONE bits. -/
def Node.readyTimeout (n : Node) : Node :=
  if n.ready || n.boot.late || n.boot.warm || !n.awake || decide (n.now < n.boot.startNs + 5000000000) then n
  else
    let (e, n) := n.fresh
    (n.modBoot fun b => { b with late := true }).form .hub (mkRec 1 0 0x0E (e % 65536) none (0xFF - n.boot.done % 256) 0 0)

/-- Milestones of a start-up, as ID_BOOT_STATUS and ID_BOOT_TIME report them (R463). -/
def Node.milestones (n : Node) : Node :=
  let ms := min ((n.now - n.boot.startNs) / 1000000) 65535
  let put (n : Node) (bit : Nat) (c : Bool) (f : BootSt → BootSt) : Node :=
    if c && !bitAt n.boot.done bit then n.modBoot fun b => f { b with done := b.done ||| 2 ^ bit } else n
  if !n.awake then n
  else
    let n := put n 2 n.host.link id
    let n := put n 3 (n.chart.st == .inForce) fun b => { b with chartMs := ms }
    put n 6 n.time.everLocked fun b => { b with lockMs := ms }

/-- Does the node admit at a boundary: started, laid out, LOCKED once, no level 4 or 5 under way? -/
def Node.admits (n : Node) : Bool :=
  n.awake && n.ticking && n.boot.laid && bitAt n.boot.done 4 && bitAt n.boot.done 5 && n.err.warmAt.isNone && !n.pins.pwrcycLow

/-- The first admitting boundary: READY. After a level 4, moves that had not sent COMMIT are cancelled (R422). -/
def Node.becomeReady (n : Node) : Node :=
  if n.ready || !n.admits then n
  else
    let n := n.modBoot fun b => { b with done := b.done ||| 0x80, readyMs := min ((n.now - b.startNs) / 1000000) 65535 }
    if n.boot.warm then
      (n.cancelMoves fun _ => true).modErr fun e => { e with lastFirst := if e.lastFatal.isSome then n.now else 0 }
    else n

/-- TRAY_ALERT_N is low (R412, R440, R452, R455). -/
def Node.trayAlert (n : Node) : Bool :=
  n.rd R.SVY_STATUS_ALERT 0 == 1 || n.err.noAdmit || n.boot.slotsBad || n.boot.stopped

end Sys2Proof.Machine
end

