-- ==== Sys2Proof/Machine/RegRead.lean ====
section
/-!
DEFINITION. Reading the control window (R304, and the register tables of every chapter). A register that shows a part
of the state the model holds elsewhere is computed from it; every other field is read where it is kept.
-/

namespace Sys2Proof.Machine

/-- A register word from its fields; a value wider than its field is cut. -/
def pk (l : List (Fld × Nat)) : Nat := l.foldl (fun a p => a + p.2 % 2 ^ p.1.width * 2 ^ p.1.lo) 0

/-- A value once a chart is in force, 0 before. -/
def Node.charted (n : Node) (v : Nat) : Nat := if n.hasChart then v else 0

def ChartState.code : ChartState → Nat
  | .empty => 0 | .waiting => 0 | .verifying => 1 | .inForce => 2 | .rejected => 3

def PortState.code : PortState → Nat
  | .disabled => 0 | .training => 1 | .keying => 2 | .up => 3 | .retraining => 4 | .failed => 5

def BoxState.code : BoxState → Nat
  | .disabled => 0 | .enabled => 1 | .draining => 2 | .error => 3

/-- MER_STATE.FREQ_SRC (table Meridian sources): 0 REFCLK_100, 1 the upstream port, 2 FABCLK_156. A SOURCE_PPS node uses
the FABCLK input its chart names, a FOLLOW_PTP node the upstream port's recovered clock (DESIGN CHOICE, log entry 76: the
table allows either clock for both). -/
def Node.freqSrc (n : Node) : Nat := if n.timeRole = 0 ∨ !n.hasChart then 0 else if n.timeRole = 1 then 2 else 1

/-- Whole milliseconds in the present HOLDOVER or UNLOCKED episode. -/
def Node.holdoverMs (n : Node) : Nat :=
  match n.time.st with
  | .holdover | .unlocked => min 0xFFFF ((n.now - n.time.lostAt) / 1000000)
  | _ => 0

/-- Registers of the time base (R56). -/
def Node.timeView (n : Node) (a : Nat) : Option Nat :=
  match a with
  | 0x10000 => some (pk [(R.TICK_PERIOD_PERIOD_NS, n.time.period)])
  | 0x10008 => some (pk [(R.TICK_ORIGIN_ORIGIN_NS, n.time.origin)])
  | 0x10010 => some (pk [(R.TICK_NOW_NUMBER, n.time.tick), (R.TICK_NOW_RUNNING, b2n n.ticking)])
  | 0x10018 => some (pk [(R.TICK_BUDGET_CYCLES, n.charted n.budget)])
  | 0x10100 => some (pk [(R.MER_NOW_NS, n.now)])
  | 0x10108 => some (pk [(R.MER_NOW_FRAC_FRAC, n.time.latchFrac)])
  | 0x10110 => some (pk [(R.MER_STATE_STATE, n.time.st.code), (R.MER_STATE_ROLE, n.timeRole),
      (R.MER_STATE_UPSTREAM_PORT, if n.follows then n.upPort n.time.upstream else 0),
      (R.MER_STATE_ALTERNATE, n.time.upstream), (R.MER_STATE_FREQ_SRC, n.freqSrc),
      (R.MER_STATE_FABCLK_SEL, n.cw 6 5 0xFFFF 1 0)])
  | 0x10118 => some (pk [(R.MER_OFFSET_OFFSET, toUnsigned 32 n.time.offset)])
  | 0x10120 => some (pk [(R.MER_ERR_EST_ERR_NS, if n.time.everLocked then min 0xFFFF n.time.errEst else 0xFFFF),
      (R.MER_ERR_EST_HOPS, n.time.hops)])
  | 0x10128 => some (pk [(R.MER_GUARD_CHART_NS, n.charted n.guardNs), (R.MER_GUARD_EFFECTIVE_NS, n.charted n.guardNow)])
  | 0x10130 => some (pk [(R.MER_HOLDOVER_LIMIT_NS, n.charted n.holdLimit), (R.MER_HOLDOVER_ELAPSED_MS, n.holdoverMs)])
  | 0x10138 => some (pk [(R.MER_PPS_CFG_OUT_EN, n.rd R.MER_PPS_CFG_OUT_EN 0), (R.MER_PPS_CFG_IN_USED, b2n (n.timeRole == 1))])
  | _ => none

/-- Identity, capability and start-up registers (R4, R325, R463). -/
def Node.idView (n : Node) (a : Nat) : Option Nat :=
  match a with
  | 0x0 => some (pk [(R.ID_PART_PART_CODE, n.ident.part.code), (R.ID_PART_STEPPING, n.ident.stepping)])
  | 0x8 => some (pk [(R.CAP_UNITS_FOLD, b2n n.ident.part.fold), (R.CAP_UNITS_GZ_CONTENT, b2n n.ident.part.content),
      (R.CAP_UNITS_NME, b2n n.ident.part.nme), (R.CAP_UNITS_SHEETS, n.nSheets), (R.CAP_UNITS_QUADS, n.nQuads)])
  | 0x10 => some (pk [(R.ID_SERIAL_SERIAL, n.ident.serial)])
  | 0x18 => some (pk [(R.ID_POSTCODE_POSTCODE, n.charted n.postcode), (R.ID_POSTCODE_VALID, b2n n.hasChart)])
  | 0x40 => some (pk [(R.ID_BOOT_STATUS_DONE, n.boot.done), (R.ID_BOOT_STATUS_FAIL_STEP, n.boot.failStep),
      (R.ID_BOOT_STATUS_FAIL_CODE, n.boot.failCode), (R.ID_BOOT_STATUS_SLOT, n.boot.slot),
      (R.ID_BOOT_STATUS_WARM, b2n n.boot.warm)])
  | 0x48 => some (pk [(R.ID_BOOT_TIME_CHART_MS, n.boot.chartMs), (R.ID_BOOT_TIME_HBM_MS, n.boot.hbmMs),
      (R.ID_BOOT_TIME_LOCK_MS, n.boot.lockMs), (R.ID_BOOT_TIME_READY_MS, n.boot.readyMs)])
  | _ => none

/-- Host-port and directory registers (R326, R327). -/
def Node.hpView (n : Node) (a : Nat) : Option Nat :=
  match a with
  | 0x60000 => some (pk [(R.HP_STATUS_LINK, b2n n.host.link), (R.HP_STATUS_MODULES, n.host.modules),
      (R.HP_STATUS_IDE_ON, b2n n.host.ide), (R.HP_STATUS_HOST, n.host.st.code), (R.HP_STATUS_MISSED, n.host.misses),
      (R.HP_STATUS_RATE, n.host.rate)])
  | 0x60008 => some (pk [(R.HP_CFG_PERIOD_MS, n.charted (n.cw 14 1 0xFFFF 0 10)), (R.HP_CFG_ORPHAN, n.cw 14 1 0xFFFF 1 0)])
  | 0x60040 => some (pk [(R.HP_NOTICE_IDX_LOG2, n.rd R.HP_NOTICE_IDX_LOG2 0), (R.HP_NOTICE_IDX_EN, n.rd R.HP_NOTICE_IDX_EN 0),
      (R.HP_NOTICE_IDX_TAIL, n.host.noticeTail), (R.HP_NOTICE_IDX_FREE, n.rd R.HP_NOTICE_IDX_FREE 0)])
  | 0x60800 => some (pk [(R.DIR_CFG_RECALL_TIMEOUT_US, n.charted (n.recallNs / 1000))])
  | 0x60808 => some (pk [(R.DIR_STATUS_USED, n.host.dir.length), (R.DIR_STATUS_EM, (n.host.dir.filter fun e => e.2.em).length)])
  | _ => none

/-- The extent POOL_SEL names. -/
def Node.selExt (n : Node) : ExtSt := n.ext (n.rd R.POOL_SEL_EXTENT_ID 0)

/-- Pool registers (R339), with the index of an array entry. -/
def Node.poolView (n : Node) (a i : Nat) : Option Nat :=
  let x := n.selExt
  let count (t : ExtSt → Bool) := (n.pool.exts.filter fun e => t e.2).length
  match a with
  | 0x70008 => some (pk [(R.POOL_CFG_LEASE_DEFAULT_MS, n.charted n.leaseDefault)])
  | 0x70010 => some (pk [(R.POOL_STATUS_GRANTED, count fun x => x.st == .granted),
      (R.POOL_STATUS_CLOSING, count fun x => x.st == .withdrawing || x.st == .scrubbing),
      (R.POOL_STATUS_GRANULES, (n.pool.exts.filter fun e => e.2.st != .free).foldl (fun s e => s + e.2.size / 4096) 0)])
  | 0x70028 => some (n.word [R.POOL_ERR_STATUS_EXPIRED, R.POOL_ERR_STATUS_RENEW_REFUSED] 0 +
      pk [(R.POOL_ERR_STATUS_SCRUB_STALLED, n.rd R.POOL_ERR_STATUS_SCRUB_STALLED 0 ||| b2n (n.pool.exts.any fun e => e.2.stalled))])
  | 0x70048 => some (pk [(R.POOL_EXT_STATE_STATE, x.st.code), (R.POOL_EXT_STATE_PARTITION, x.partition),
      (R.POOL_EXT_STATE_RIGHTS, x.rights), (R.POOL_EXT_STATE_GRANTEE_LEN, x.gLen),
      (R.POOL_EXT_STATE_GRANTEE_PREFIX, x.gPrefix)])
  | 0x70050 => some (pk [(R.POOL_EXT_BASE_BASE, x.base)])
  | 0x70058 => some (pk [(R.POOL_EXT_SIZE_SIZE, x.size)])
  | 0x70060 => some (pk [(R.POOL_EXT_EXPIRY_EXPIRY, x.expiry)])
  | 0x70068 => some (pk [(R.POOL_EXT_KEY_INDEX_GEN, x.key)])
  | 0x70100 => some (pk [(R.POOL_PART_QUOTA, n.poolQuota i), (R.POOL_PART_USED, n.poolUsed i)])
  | 0x70200 => some (pk [(R.POOL_HOST_HOST_GRANULES, n.hostGranules i), (R.POOL_HOST_POOL_SERVER, b2n (n.poolServer i)),
      (R.POOL_HOST_PARTITION, (n.quadOwner i).getD 0)])
  | _ => none

/-- Chart registers (R354). -/
def Node.chartView (n : Node) (a i : Nat) : Option Nat :=
  let c := n.chart
  match a with
  | 0x20008 => some (pk [(R.CHART_STATUS_STATE, c.st.code), (R.CHART_STATUS_STAGED, c.staged.length),
      (R.CHART_STATUS_RETIRE_PENDING, b2n c.retireAt.isSome),
      (R.CHART_STATUS_EPOCH_MISMATCH, n.rd R.CHART_STATUS_EPOCH_MISMATCH 0),
      (R.CHART_STATUS_REJECTED, n.rd R.CHART_STATUS_REJECTED 0)])
  | 0x20010 => some (pk [(R.CHART_EPOCH_EPOCH, c.epoch), (R.CHART_EPOCH_RETENTION_TICKS, n.charted n.retention)])
  | 0x20018 => some (pk [(R.CHART_SWITCH_TICK, c.switchTick.getD 0)])
  | 0x20020 => some (pk [(R.CHART_SWITCH_NS_NS, c.switchNs)])
  | 0x20028 => some (pk [(R.CHART_SPAN_SPAN_NS, n.charted n.spanNs)])
  | 0x20030 => some (pk [(R.CHART_ID_SERIAL, c.serial)])
  | 0x20038 => some (pk [(R.CHART_OVL_ID_SERIAL, c.ovlSerial)])
  | 0x20040 => some (pk [(R.CHART_SEC_VER_IN_FORCE, c.chartVer), (R.CHART_SEC_VER_COUNTER, n.sec.ctrChart)])
  | 0x20100 => some (match c.staged[i]? with
      | some o => pk [(R.CHART_STAGED_NAMED_TICK, o.namedTick), (R.CHART_STAGED_NEW_EPOCH, o.newEpoch)]
      | none => 0)
  | _ => none

/-- Partition registers (R366); `left` is what a running scrub has still to fill. -/
def Node.partView (n : Node) (a i left : Nat) : Option Nat :=
  match a with
  | 0x80100 => some (pk [(R.PART_STATE_STATE, (n.part i).st.code), (R.PART_STATE_GEN, (n.part i).gen),
      (R.PART_STATE_QUADS, (n.part i).quads)])
  | 0x80108 => some (pk [(R.PART_ALLOWED_QUADS, n.cw 1 1 i 0 0), (R.PART_ALLOWED_FENCE_THRESHOLD,
      if (compRec n.chart.comp 1 1 i).isSome then n.cw 1 1 i 1 3 else 0)])
  | 0x80400 => some (pk [(R.PART_QUAD_STATE, (n.quad i).st.code), (R.PART_QUAD_OWNER, (n.quadOwner i).getD 0),
      (R.PART_QUAD_SCRUB_LEFT, if (n.quad i).st = .scrubbing then left else 0)])
  | _ => none

/-- Security and power registers (R394, R395). -/
def Node.secView (n : Node) (a i : Nat) : Option Nat :=
  let s := n.sec
  let t := s.token
  match a with
  | 0x30000 => some (pk [(R.SEC_STATE_STATE, s.st.code), (R.SEC_STATE_LEVEL, s.level), (R.SEC_STATE_FREE_LEVEL, n.freeLevel),
      (R.SEC_STATE_DL3_PENDING, b2n s.pendingTok.isSome), (R.SEC_STATE_TOKEN, b2n t.isSome),
      (R.SEC_STATE_PARTITIONS, (t.map Token.partitions).getD 0)])
  | 0x30008 => some (pk [(R.SEC_TOKEN_SERIAL, (t.map Token.serial).getD 0)])
  | 0x30010 => some (pk [(R.SEC_TOKEN_END_NOT_AFTER, (t.map Token.notAfter).getD 0)])
  | 0x30018 => some (pk [(R.SEC_NONCE_NONCE, (Config.secNonce s.nonceNo).toNat)])
  | 0x30040 => some (pk [(R.SEC_ROLLBACK_COUNTER, [s.ctrFw, s.ctrChart, s.ctrDebug].getD i 0),
      (R.SEC_ROLLBACK_IN_FORCE, [n.boot.fwVer, n.chart.secVer, (t.map Token.secVer).getD 0].getD i 0)])
  | 0x30058 => some (pk [(R.SEC_LMS_NEXT, s.lmsNext), (R.SEC_LMS_RES_END, s.resEnd)])
  | 0x30080 => some (pk [(R.SEC_ID_HASH_HASH, leNat ((n.ident.idHash.drop (8 * i)).take 8 |>.map (BitVec.ofNat 8)))])
  | 0x30800 => some (pk [(R.PWR_STATE_NODE, n.powerState), (R.PWR_STATE_OP, n.power.op), (R.PWR_STATE_OP_POWER, n.power.opPower),
      (R.PWR_STATE_OP_THERMAL, n.power.opThermal), (R.PWR_STATE_RAISING, b2n n.power.raising.isSome),
      (R.PWR_STATE_PARKED, n.power.parked)])
  | 0x30818 => some (pk [(R.PWR_AVG_AVG_W, min 0xFFFF n.power.avg), (R.PWR_AVG_TDP_W, n.ident.part.tdp)])
  | _ => none

/-- Error, reset and Survey registers (R431, R432, R449); `phase` is the phase of a running reset. -/
def Node.errView (n : Node) (a i phase : Nat) : Option Nat :=
  let core := n.core (n.rd R.SVY_CORE_SEL_CORE 0)
  match a with
  | 0x40020 => some (pk [(R.ERR_LOG_NEXT, n.mram.logNext), (R.ERR_LOG_WRAPS, min 0xFFFF n.mram.logWraps),
      (R.ERR_LOG_SUMMARY_NEXT, n.mram.sumNext)])
  | 0x40028 => some (pk [(R.ERR_DUMP_STATUS_HELD, n.dumpsHeld.length), (R.ERR_DUMP_STATUS_FIRST_CORE, n.dumpFirst),
      (R.ERR_DUMP_STATUS_LATER, n.rd R.ERR_DUMP_STATUS_LATER 0)])
  | 0x40800 => some (pk [(R.RST_STATUS_ACTIVE, n.resetActive), (R.RST_STATUS_PHASE, if n.resetActive = 0 then 0 else phase),
      (R.RST_STATUS_LAST_LEVEL, n.mram.lastLevel), (R.RST_STATUS_LAST_CAUSE, n.mram.lastCause),
      (R.RST_STATUS_LAST_TICK, n.mram.lastTick)])
  | 0x40810 => some (pk [(R.RST_CNT_L2, n.mram.l2), (R.RST_CNT_L3, n.mram.l3), (R.RST_CNT_L4, n.mram.l4), (R.RST_CNT_L5, n.mram.l5)])
  | 0x50008 => some (pk [(R.SVY_CFG_KAT_INTERVAL, n.charted n.katInterval), (R.SVY_CFG_KAT_FENCE, n.charted n.katFence),
      (R.SVY_CFG_ALARM_LIST, n.charted n.alarmList), (R.SVY_CFG_GRANTS, n.grants)])
  | 0x50010 => some (pk [(R.SVY_THRESH_EYE_WARN_MV, n.charted n.eyeWarn), (R.SVY_THRESH_MARGIN_WARN_PS, n.charted n.marginWarn),
      (R.SVY_THRESH_GUARD_WARN_MV, n.charted n.guardWarn)])
  | 0x50018 => some (pk [(R.SVY_STATUS_ALERT, n.rd R.SVY_STATUS_ALERT 0), (R.SVY_STATUS_RING_WRAPPED, n.rd R.SVY_STATUS_RING_WRAPPED 0),
      (R.SVY_STATUS_RING_LOST, b2n n.survey.lost), (R.SVY_STATUS_FLUSH_BUSY, b2n n.flushBusy),
      (R.SVY_STATUS_TRACE_ON, b2n (n.survey.trace != 0 && decide (2 ≤ n.sec.level)))])
  | 0x50040 => some (pk [(R.SVY_RATE_RATE_PER_MS, n.charted (n.survRate i)), (R.SVY_RATE_BURST, n.charted (n.survBurst i))])
  | 0x500e8 => some (pk [(R.SVY_CORE_KAT_RUNS, min 0xFFFFFFFF core.katRuns), (R.SVY_CORE_KAT_FAILS, min 0xFFFF core.katFails),
      (R.SVY_CORE_KAT_CONSEC, min 15 core.katConsec), (R.SVY_CORE_KAT_FENCED, b2n core.fenceKat),
      (R.SVY_CORE_KAT_PARTNER, core.katPartner)])
  | _ => none

/-- Sorting-office and translation registers (R140, R187). -/
def Node.soView (n : Node) (s a i : Nat) : Option Nat :=
  match a with
  | 0x8 => some (pk [(R.SO_CFG_PROMOTE_ROWS, n.charted n.promoteRows), (R.SO_CFG_PROMOTE_MAX_COPIES, n.charted n.promoteCopies),
      (R.SO_CFG_PROMOTE_IDLE_LOG2, n.charted (n.cw 5 3 0xFFFF 2 12)), (R.SO_CFG_TICKET_KIB, n.ticketKib s)])
  | 0x10 => some (pk [(R.SO_STATUS_FETCH_GRANULES, n.charted n.fetchGranules), (R.SO_STATUS_ANCHOR_Q, n.anchorQueue s),
      (R.SO_STATUS_STAGE_FREE, n.charted (3584 - ((upTo 32).map (n.stageUsed s)).foldl (· + ·) 0)),
      (R.SO_STATUS_MERGE_FREE_KIB,
        n.charted (8192 - ceilDiv (((upTo 32).map (n.mergeUse s)).foldl (· + ·) 0 + n.ticketUse s) 1024))])
  | 0x100 => some (pk [(R.SO_SHARE_SLOT_LETTERS, n.share s i 0), (R.SO_SHARE_STORE_LINES, n.share s i 1),
      (R.SO_SHARE_STAGE_GRANULES, n.share s i 2), (R.SO_SHARE_MERGE_KIB, n.share s i 3)])
  | 0x40008 => some (pk [(R.XL_CFG_SEQ_LIMIT, n.charted n.seqLimit),
      (R.XL_CFG_RANGE_LOG2, n.charted (n.cw 14 2 0xFFFF 1 40)), (R.XL_CFG_FD_FRACTION, n.charted (n.cw 7 4 0xFFFF 0 64))])
  | 0x40020 => some (pk [(R.XL_WALK_CNT_WALKS, n.rd R.XL_WALK_CNT_WALKS (sheetBase s)),
      (R.XL_WALK_CNT_TABLE_PAGES, (sheetQuads s).foldl (fun t q =>
        ((n.quadRuns q).filter fun r => r.2.kind == 1 && (r.2.cls == .system || r.2.cls == .retirePending)).foldl
          (fun t r => t + r.2.len) t) 0)])
  | 0x40010 => some (pk [(R.XL_STATUS_SEQ_OPEN, n.seqs.length),
      (R.XL_STATUS_HASH_PENDING, (n.office.hashing.filter fun k => (n.leaf k).quad / 4 == s).length)])
  | _ => none

/-- Courier registers (R299). The queue pair shown is the one CR_QP_SEL names. -/
def Node.crView (n : Node) (s a i : Nat) : Option Nat :=
  let q := n.qp (n.rd R.CR_QP_SEL_QPN (sheetBase s))
  match a with
  | 0x20008 => some (pk [(R.CR_CFG_STORE, n.cw 14 3 0xFFFF 2 0), (R.CR_CFG_RETRY_LIMIT, n.charted n.crRetryLimit),
      (R.CR_CFG_RTO_US, n.charted n.crRtoUs), (R.CR_CFG_ACK_EVERY, n.charted n.crAckEvery),
      (R.CR_CFG_RNR_LIMIT, n.charted n.crRnrLimit), (R.CR_CFG_PKT_LIFETIME_US, n.charted (n.crLifetime / 1000))])
  | 0x20010 => some (pk [(R.CR_KEY_CFG_KEY_LIMIT, n.charted n.keyLimit),
      (R.CR_KEY_CFG_CONTEXT_LIMIT, n.charted (n.cw 14 3 0xFFFF 1 1048576))])
  | 0x20018 => some (pk [(R.CR_CC_CFG_INIT_RATE, n.charted (n.crInitRate / 256)), (R.CR_CC_CFG_MAX_RATE, n.charted (n.crMaxRate / 256)),
      (R.CR_CC_CFG_MIN_RATE, n.charted (n.crMinRate / 256)), (R.CR_CC_CFG_AI_STEP, n.charted (n.crStep / 256)),
      (R.CR_CC_CFG_MD, n.charted n.crMd)])
  | 0x20020 => some (pk [(R.CR_STATUS_RESIDENT_USED, (n.residents s).length),
      (R.CR_STATUS_PR_USED_KIB, ceilDiv (((upTo 32).map (n.prUsed s)).foldl (· + ·) 0) 1024),
      (R.CR_STATUS_FETCH_Q, (n.courier.qps.filter fun e => n.qpSheet e.1 == s && e.2.fetching).length)])
  | 0x20070 => some (pk [(R.CR_QP_STATE_STATE, q.st.code), (R.CR_QP_STATE_RESIDENT, b2n q.resident), (R.CR_QP_STATE_PINNED, b2n q.pin),
      (R.CR_QP_STATE_ORDERED, b2n q.ordered), (R.CR_QP_STATE_PATHS, q.paths), (R.CR_QP_STATE_RATE, q.rate / 256),
      (R.CR_QP_STATE_PEER_POSTCODE, q.peerPc)])
  | 0x20078 => some (pk [(R.CR_QP_PSN_TX_NEXT, q.txPsn), (R.CR_QP_PSN_RX_BASE, q.rxBase)])
  | 0x20080 => some (pk [(R.CR_QP_COMP_COMP_CNT, q.compCnt)])
  | 0x20088 => some (pk [(R.CR_QP_RECV_RECV_CNT, q.recvCnt)])
  | 0x20090 => some (pk [(R.CR_QP_FREED_FREED, q.freed)])
  | 0x20100 => some (pk [(R.CR_PART_QPN_BASE, n.qpnBase i), (R.CR_PART_PR_KIB, n.prKib s i), (R.CR_PART_QPN_COUNT, n.qpnCount i),
      (R.CR_PART_PIN_LIMIT, n.pinLimit s i)])
  | _ => none

/-- Gazetteer registers (R244). -/
def Node.gzView (n : Node) (s a i : Nat) : Option Nat :=
  let g := n.gzSlice s
  match a with
  | 0x30000 => some (pk [(R.GZ_CAP_CONTENT_ENTRIES, if n.ident.part.content then 0x100000 else 0), (R.GZ_CAP_RULE_ENTRIES, 0x4000),
      (R.GZ_CAP_ROUTE_ENTRIES, 0x1000)])
  | 0x30008 => some (pk [(R.GZ_CFG_HOLE_STRIDE, n.charted n.holeStride), (R.GZ_CFG_DEFAULT_ACTION, n.defaultAction)])
  | 0x30010 => some (pk [(R.GZ_STATUS_CONTENT_USED, g.content.length), (R.GZ_STATUS_RULES_USED, g.rules.length),
      (R.GZ_STATUS_ROUTES_USED, g.routes.length), (R.GZ_STATUS_RESPREAD, b2n (n.hasChart && !strideFree n.holeStride g.rules)),
      (R.GZ_STATUS_UPDATE_BUSY, b2n (decide (0 < n.updating s)))])
  | 0x30058 => some (pk [(R.GZ_RULE_STATUS_BUSY, b2n (n.ruleBusy s)), (R.GZ_RULE_STATUS_RESULT, g.result), (R.GZ_RULE_STATUS_INDEX, g.resIdx),
      (R.GZ_RULE_STATUS_MOVES, g.resMoves)])
  | 0x30100 => some (pk [(R.GZ_CONTENT_SHARE_SETS, n.gzSets s i), (R.GZ_CONTENT_SHARE_BASE, if n.ident.part.content then n.gzBase s i else 0)])
  | _ => none

/-- The association PORT_SEC shows: the one of a native port, or the one with the oldest key of a switched port. -/
def PortSt.shown (s : PortSt) : Assoc :=
  match sortOn (fun x : Nat × Assoc => x.2.keyAt) (s.assocs.filter fun x => x.2.keyed) with
  | x :: _ => x.2
  | [] => default

/-- Port registers (R271). -/
def Node.portView (n : Node) (p a : Nat) : Option Nat :=
  let s := n.port p
  let x := s.shown
  match a with
  | 0x0 => some (pk [(R.PORT_CFG_MODE, n.cw 10 1 p 0 0), (R.PORT_CFG_STACK, n.portStack p), (R.PORT_CFG_LOCK_GROUP, n.lockGroup p),
      (R.PORT_CFG_LOCK_MEMBER, n.lockMember p), (R.PORT_CFG_RETRY_TIMEOUT_US, n.charted (n.retryUs p))])
  | 0x8 => some (pk [(R.PORT_STATUS_STATE, s.st.code), (R.PORT_STATUS_WIDTH, s.width), (R.PORT_STATUS_LANES_OK, s.lanes),
      (R.PORT_STATUS_IN_LOCK, b2n (n.lockGroup p != 0 && s.st == .up && !(n.timePort p).outOfLock)),
      (R.PORT_STATUS_PEER_POSTCODE, if n.switched p then 0 else x.peer)])
  | 0x10 => some (pk [(R.PORT_SEC_KEY_EPOCH, x.epoch),
      (R.PORT_SEC_KEY_AGE_S, if x.keyed then min 0xFFFF ((n.now - x.keyAt) / 1000000000) else 0)])
  | 0x40 => some (pk [(R.PORT_CREDIT_CONTROL, s.txCredits.getD 0 0), (R.PORT_CREDIT_EXPRESS, s.txCredits.getD 1 0),
      (R.PORT_CREDIT_FIRST, s.txCredits.getD 2 0), (R.PORT_CREDIT_PARCEL, s.txCredits.getD 3 0)])
  | _ => none

/-- HBM_STATUS.STATE. -/
def Node.hbmState (n : Node) (q : Nat) : Nat :=
  if (n.quad q).st = .offline then 3 else if !n.boot.trained then 0 else if (n.quad q).selfRefresh then 2 else 1

/-- Quad registers (R212, R226). -/
def Node.quadView (n : Node) (q a : Nat) : Option Nat :=
  let x := n.quad q
  let p := (n.quadOwner q).getD 32
  match a with
  | 0x10 => some (pk [(R.HBM_STATUS_STATE, n.hbmState q), (R.HBM_STATUS_HOT, b2n x.hot), (R.HBM_STATUS_CRITICAL, b2n x.critical),
      (R.HBM_STATUS_FAILED_CH, x.failedCh)])
  | 0x18 => some (pk [(R.HBM_TEMP_NOW_C, x.tempStack), (R.HBM_TEMP_MAX_C, x.maxStack), (R.HBM_TEMP_REFRESH_X2, b2n x.x2)])
  | 0x30 => some (pk [(R.HBM_RETIRE_RETIRED, n.countClass q .retired), (R.HBM_RETIRE_PENDING, n.countClass q .retirePending)])
  | 0x4008 => some (pk [(R.NME_STATUS_ACTIVE, n.nmeActive q), (R.NME_STATUS_QUEUED, n.nmeQueued q), (R.NME_STATUS_SLOTS_LAST, x.nmeLast)])
  | 0x8008 => some (pk [(R.MIG_CFG_POLICY, n.policy p), (R.MIG_CFG_LOW_PCT, n.charted (n.lowPct p)),
      (R.MIG_CFG_HIGH_PCT, n.charted (n.highPct p)), (R.MIG_CFG_SWITCH_LEAD, n.charted n.switchLead),
      (R.MIG_CFG_TICK_GRANULES, n.charted (n.cw 11 2 0xFFFF 3 16)), (R.MIG_CFG_HEAT_DECAY_LOG2, n.charted n.decayLog2),
      (R.MIG_CFG_SWAPIN_COUNT, n.charted n.swapinCount)])
  | 0x8010 => some (pk [(R.MIG_TIMEOUT_TIMEOUT_US, n.charted (n.migTimeoutNs / 1000))])
  | 0x8018 => some (pk [(R.MIG_STATUS_ACTIVE, n.movesActive q), (R.MIG_STATUS_QUEUED, n.movesQueued q),
      (R.MIG_STATUS_PAUSED, b2n x.paused), (R.MIG_STATUS_T1_USED, n.t1OnQuad q)])
  | _ => none

/-- Core registers (R118). -/
def Node.coreView (n : Node) (c a : Nat) : Option Nat :=
  let x := n.core c
  let p := n.quadOwner (coreQuad c)
  match a with
  | 0x0 => some (n.word [R.CORE_CAP_RECIPES, R.CORE_CAP_ROWS, R.CORE_CAP_TILE_KEYS, R.CORE_CAP_SCRATCH_MIB] (coreBase c) +
      pk [(R.CORE_CAP_FOLD, b2n n.ident.part.fold)])
  | 0x8 => some (pk [(R.CORE_CFG_RECIPES_EN, n.cw 3 1 (p.getD 32) 0 0), (R.CORE_CFG_FENCE_THRESHOLD, if p.isSome then n.charted (n.fenceThreshold c) else 0),
      (R.CORE_CFG_PARTITION, p.getD 0)])
  | 0x10 => some (pk [(R.CORE_CTL_FENCE, b2n x.fenceHost)])
  | 0x18 => some (pk [(R.CORE_STATUS_STATE, n.coreState c),
      (R.CORE_STATUS_PASSQ, min 4 ((n.office.passes.filter fun y => y.core == c && !y.running).length)),
      (R.CORE_STATUS_FENCE_ABFT, b2n x.fenceAbft), (R.CORE_STATUS_ABFT_RUN, min 255 x.abftRun)])
  | _ => none

/-- Post-box registers (R328). -/
def Node.boxView (n : Node) (b a : Nat) : Option Nat :=
  let x := n.box b
  match a with
  | 0x28 => some (pk [(R.PB_TAIL_TAIL, x.tail)])
  | 0x30 => some (pk [(R.PB_HEAD_HEAD, x.head), (R.PB_HEAD_DONE, x.done)])
  | 0x38 => some (pk [(R.PB_CPL_FREE_CPL_FREE, x.cplFree)])
  | 0x40 => some (pk [(R.PB_RR_IDX_RR_TAIL, x.rrTail), (R.PB_RR_IDX_RR_FREE, x.rrFree)])
  | 0x48 => some (pk [(R.PB_STATUS_STATE, x.st.code), (R.PB_STATUS_ERR_CODE, x.err), (R.PB_STATUS_INFLIGHT, x.inflight)])
  | _ => none

/-! ## Finding a register -/

/-- The groups of the control window (table Control window). -/
inductive Grp where
  | hub | box | sheet | port | quad | core
  deriving DecidableEq, Repr, Inhabited

/-- A register: its group, the unit it belongs to, its row and the array index. -/
structure Loc where
  grp  : Grp
  unit : Nat
  base : Nat
  row  : RegRow
  i    : Nat

/-- BAR0 address of the register's first field base. -/
def Loc.at' (l : Loc) : Nat := l.base + l.i * l.row.stride

/-- The row of a window that an offset falls on, with its index. -/
def findRow (off : Nat) : List RegRow → Option (RegRow × Nat)
  | [] => none
  | r :: rs =>
    if r.addr ≤ off ∧ off < r.addr + max 1 (r.stride * r.count) ∧ (off - r.addr) % max 1 r.stride = 0 then
      some (r, if r.stride = 0 then 0 else (off - r.addr) / r.stride)
    else findRow off rs

/-- Where an address lies: the group, the unit, the window's base and the offset in it. -/
def window (a : Nat) : Grp × Nat × Nat :=
  if a < 0x100000 then (.hub, 0, 0)
  else if a < 0x200000 then (.box, (a - 0x100000) / 0x100, boxBase ((a - 0x100000) / 0x100))
  else if a < 0x1000000 then (.hub, 0, 0)
  else
    let s := (a - 0x1000000) / 0x200000
    let o := (a - 0x1000000) % 0x200000
    if o < 0x80000 then
      if 0x10100 ≤ o ∧ o < 0x10300 then (.port, s * 2 + (o - 0x10100) / 0x100, portBase (s * 2 + (o - 0x10100) / 0x100))
      else (.sheet, s, sheetBase s)
    else
      let q := s * 4 + (o - 0x80000) / 0x20000
      let u := (o - 0x80000) % 0x20000
      if o < 0x100000 ∧ 0x10000 ≤ u ∧ u < 0x10000 + 25 * 0x400 then
        (.core, q * 25 + (u - 0x10000) / 0x400, coreBase (q * 25 + (u - 0x10000) / 0x400))
      else (.quad, q, quadBase q)

/-- The rows of a group. -/
def Grp.rows : Grp → List RegRow
  | .hub => R.hubRows | .box => R.boxRows | .sheet => R.sheetRows | .port => R.portRows | .quad => R.quadRows | .core => R.coreRows

/-- The register at an address that is a multiple of 8; none at a reserved offset. -/
def locate (a : Nat) : Option Loc :=
  let (g, u, base) := window a
  (findRow (a - base) g.rows).map fun r => ⟨g, u, base, r.1, r.2⟩

/-- The register at an address on this node: the NME_ offsets are reserved on a part without the engines (R226). -/
def Node.locate (n : Node) (a : Nat) : Option Loc :=
  (Machine.locate a).filter fun l => n.ident.part.nme || l.grp != .quad || decide (l.row.addr < 0x4000) || decide (0x8000 ≤ l.row.addr)

/-- An address that no part of this node answers (R4, R304). -/
def Node.absentAddr (n : Node) (a : Nat) : Bool :=
  decide (0x1000000 ≤ a) && decide (a < 0x2000000) && !n.hasSheet ((a - 0x1000000) / 0x200000)

/-- The value of a register. The values the spec leaves open while something runs (the granules a scrub has filled
in the current tick, the phase of a reset) come from `free`. -/
def Node.regValue (n : Node) (l : Loc) (free : Nat) : Nat :=
  let a := l.row.addr
  let view := match l.grp with
    | .hub =>
      if a < 0x10000 then n.idView a else if a < 0x20000 then n.timeView a
      else if a < 0x30000 then n.chartView a l.i else if a < 0x40000 then n.secView a l.i
      else if a < 0x60000 then n.errView a l.i (1 + free % 4) else if a < 0x70000 then n.hpView a
      else if a < 0x80000 then n.poolView a l.i else n.partView a l.i (n.scrubLeft l.i free)
    | .box => n.boxView l.unit a
    | .sheet => if a < 0x20000 then n.soView l.unit a l.i else if a < 0x30000 then n.crView l.unit a l.i
      else if a < 0x40000 then n.gzView l.unit a l.i else n.soView l.unit a l.i
    | .port => n.portView l.unit a
    | .quad => n.quadView l.unit a
    | .core => n.coreView l.unit a
  view.getD (n.word l.row.flds l.at')

/-- A register with an open part (PART_QUAD, RST_STATUS). -/
def Loc.openPart (l : Loc) : Bool :=
  l.grp == .hub && (l.row.addr == 0x80400 || l.row.addr == 0x40800)

/-- Read the 64-bit word at an address that is a multiple of 8; reserved offsets read 0 (R304). -/
def Node.readReg (n : Node) (a : Nat) : Nat × Node :=
  match n.locate a with
  | none => (0, n)
  | some l =>
    if l.openPart then
      let (f, n) := n.fresh
      (n.regValue l f, n)
    else (n.regValue l 0, n)

end Sys2Proof.Machine
end

