-- ==== Sys2Proof/Machine/Commands.lean ====
section
/-!
DEFINITION. Host commands (R306 to R318): the doorbell and fetch, the checks at fetch (R10, R311, R313, R460), the commands that take
effect at fetch, and the commands that wait for boundary action 5 (R312).
-/

namespace Sys2Proof.Machine

/-- The owner of a post box: a partition, or 32 for NODE. -/
def Node.boxOwner (n : Node) (b : Nat) : Nat := n.rd R.PB_CFG_OWNER (boxBase b)

/-- A command that needs a unit the part lacks (R3, R227, R313). -/
def Node.opAbsent (n : Node) (bs : Bytes) : Bool :=
  let op := cmdOp bs
  (decide (0x40 ≤ op) && decide (op ≤ 0x43) && !n.ident.part.nme) ||
    (op == 0x17 && (decRange bs).kind == 3 && !n.ident.part.content)

/-- The commands that complete normally before READY (R460). -/
def earlyOk (bs : Bytes) : Bool := cmdOp bs == 0 || cmdOp bs == 0x60 || (cmdOp bs == 0x61 && cmdBits bs 0x10 0 3 == 5)

/-- The checks at fetch in the order of R10, R460 and R311: the failing status and its DETAIL. -/
def Node.fetchCheck (n : Node) (b : Nat) (bs : Bytes) : Option (Nat × Nat) :=
  let op := cmdOp bs
  let owner := n.boxOwner b
  if n.opAbsent bs then some (stUnsupported, 0)
  else if !opcodes.contains op || headerBad bs || bodyBad bs then some (stBadFormat, 0)
  else if bodyLong bs || (op == 0x61 && resetLong bs n.nCores) ||
      (decide (0x40 ≤ op) && decide (op ≤ 0x43) && n.nmeLong (decNme bs owner none)) then some (stBadLength, 0)
  else if !n.ready && !earlyOk bs then some (stBadState, n.boot.done % 256)
  else if (opOwner op = 1 ∧ owner = 32) ∨ (opOwner op = 2 ∧ owner ≠ 32) then some (stBadState, owner)
  else if owner < 32 ∧ (n.part owner).st ≠ .active then some (stBadState, n.partDetail owner none false)
  else none

/-! ## Commands that take effect at fetch -/

/-- The letter of a host APPEND or ATTEND with its postmark written. -/
def Node.postmarked (n : Node) (bs : Bytes) : Bytes :=
  bs.take 0x38 ++ leBytes 6 n.time.tick ++ (bs.drop 0x3E).take 2 ++ leBytes 8 n.now ++ bs.drop 0x48

/-- APPEND and ATTEND of the host (R315). -/
def Node.hostLetter (n : Node) (p : Nat) (bs data : Bytes) : Applied :=
  let len := cmdBits bs 0x18 0 16
  match n.namedFault p (cmdQ bs 0x10) len with
  | (some e, n) => failCmd n e.1 e.2
  | (none, n) =>
  let letter := n.namedBytes (cmdQ bs 0x10) len data
  if leAt letter 0 1 ≠ (if cmdOp bs = 0x14 then 2 else 1) then failCmd n stBadFormat 0
  else if leAt letter 2 2 ≠ len then failCmd n stBadLength 0
  else
    let l := decLetter letter 0
    let pkt := n.mkPkt (cmdBits bs 0x18 32 32) l.deadline ptLetter 1 l.letterId (n.postmarked letter)
    .done stDone 0 n.now (n.sendPkt pkt p)

/-- RESET_LEVEL (R419): level 1 acts at fetch, the others at the next boundary. -/
def Node.resetCmd (n : Node) (ref : CmdRef) (bs : Bytes) : Applied :=
  let lv := cmdBits bs 0x10 0 3
  let target := cmdD bs 0x14
  if lv = 1 then n.levelOne ref bs
  else if lv = 2 ∧ (n.quad (coreQuad target)).st = .offline then failCmd n stBadState QuadState.offline.code
  else if lv = 3 ∧ (n.part target).st ≠ .active then failCmd n stBadState (n.part target).st.code
  else .later (n.askReset ⟨lv, target, 1, some ref⟩)

/-- The effect of a command that is applied at fetch (table Opcodes). -/
def Node.runNow (n : Node) (p : Nat) (ref : CmdRef) (bs data : Bytes) : Applied :=
  match cmdOp bs with
  | 0x14 | 0x15 => n.hostLetter p bs data
  | 0x23 => n.extentRenew p ref bs
  | 0x30 => n.qpCreate p bs
  | 0x31 => n.qpConnect p bs
  | 0x32 => n.qpEnd p ref bs false
  | 0x33 => n.qpEnd p ref bs true
  | 0x34 | 0x35 | 0x36 | 0x37 | 0x38 | 0x39 => n.crCommand p ref bs data
  | 0x40 | 0x41 | 0x42 | 0x43 =>
    match n.nmePost p ref bs with
    | (some e, n) => .done e.1 e.2.1 e.2.2 n
    | (none, n) => .later n
  | 0x50 => n.overlayApply ref bs data
  | 0x60 => n.surveyRead ref bs
  | 0x61 => n.resetCmd ref bs
  | _ => .done stDone 0 0 n

/-- A command that is held goes back among the waiting ones ahead of the later ones of its box (R50, R312). -/
def putBack (w : BoxWait) : List BoxWait → List BoxWait
  | [] => [w]
  | x :: xs =>
    if x.cmd.box = w.cmd.box ∧ (x.cmd.idx + 2 ^ 32 - w.cmd.idx) % 2 ^ 32 < 2 ^ 31 then w :: x :: xs else x :: putBack w xs

/-- Complete a command that has ended. -/
def Node.ended (ref : CmdRef) : Applied → Node
  | .done st dt r n => n.complete ref st dt r
  | .later n => n
  | .hold w n => n.modHost fun h => { h with waiting := putBack w h.waiting }
  | .noRoom n => n.complete ref stNoQuota 0 0

/-- An AT_TICK that is past at fetch (R44, R312). -/
def Node.tickPast (n : Node) (bs : Bytes) : Bool := cmdAtTickEn bs && decide (tickDiff (cmdAtTick bs) n.time.tick ≤ 0)

/-- Queue a boundary command (R312); HINT SHARE reads its hits ahead, within 1 µs (R234). -/
def Node.awaitBoundary (n : Node) (ref : CmdRef) (c : Posted) : Node :=
  let share : Bool := cmdOp c.bytes == 0x17 && (decRange c.bytes).kind == 3
  let (f, n) := if share then n.fresh else (0, n)
  let (seen, n) := if share then n.preRead (n.boxOwner ref.box) c.bytes else ([], n)
  let w : BoxWait :=
    { cmd := ref, op := cmdOp c.bytes, bytes := c.bytes, data := c.data, at' := n.now,
      atTick := if cmdAtTickEn c.bytes then some (cmdAtTick c.bytes) else none,
      ready := if share then n.now + f % 1001 else 0, seen := seen }
  n.modHost fun h => { h with waiting := h.waiting ++ [w] }

/-- Start a command that has passed its checks. -/
def Node.startCmd (n : Node) (ref : CmdRef) (c : Posted) : Node :=
  if opAtBoundary (cmdOp c.bytes) then
    if n.tickPast c.bytes then n.complete ref stExpired 0 0 else n.awaitBoundary ref c
  else Node.ended ref (n.runNow (n.boxOwner ref.box) ref c.bytes c.data)

/-! ## Fetch (R308) -/

/-- Does a halt with FREEZE_IO stop the box (R404)? -/
def Node.boxFrozen (n : Node) (b : Nat) : Bool :=
  n.dbg.halted && n.dbg.freezeIo &&
    (if n.boxOwner b < 32 then n.inScope (n.boxOwner b) else !n.dbg.scopeParts && n.sec.st != .owned)

/-- May the box fetch its next command? -/
def Node.mayFetch (n : Node) (b : Nat) : Bool :=
  let x := n.box b
  x.st == .enabled && x.posted != [] && x.fence.isNone && !n.boxFrozen b &&
    decide (x.inflight + (x.done + 2 ^ 32 - x.cplFree) % 2 ^ 32 < 2 ^ n.rd R.PB_CFG_CPL_LOG2 (boxBase b))

/-- Can the next command slot be read: a host ring needs the link, an HBM ring sound bytes (R317)? -/
def Node.slotReads (n : Node) (b : Nat) : Bool :=
  let base := n.rd R.PB_CMD_BASE_BASE (boxBase b)
  if bitAt base 63 then n.host.link
  else !n.poisoned (base + (n.box b).head % 2 ^ n.rd R.PB_CFG_CMD_LOG2 (boxBase b) * 64) 64

/-- Fetch the next command: its checks, and its start unless a fence holds it (R308, R309, R311). -/
def Node.fetchNext (n : Node) (b : Nat) (c : Posted) : Node :=
  let x := n.box b
  let ref : CmdRef := ⟨b, cmdTag c.bytes, x.head⟩
  let n := n.modBox b fun x => { x with head := (x.head + 1) % 2 ^ 32, inflight := x.inflight + 1, posted := x.posted.drop 1 }
  match n.fetchCheck b c.bytes with
  | some e => n.complete ref e.1 e.2 0
  | none =>
    let bound := opAtBoundary (cmdOp c.bytes)
    if cmdFence c.bytes ∧ (x.inflight ≠ 0 ∨ bound) ∧ !(bound && n.tickPast c.bytes) then
      let n := n.modBox b fun x => { x with fence := some c }
      if bound then n.startCmd ref c else n
    else n.startCmd ref c

/-- One step of a box: a fenced command whose turn has come, or the next fetch. -/
def Node.pumpOne (n : Node) (b : Nat) : Option Node :=
  let x := n.box b
  match x.fence with
  | some c =>
    if x.inflight = 1 ∧ !opAtBoundary (cmdOp c.bytes) then
      let ref : CmdRef := ⟨b, cmdTag c.bytes, (x.head + 2 ^ 32 - 1) % 2 ^ 32⟩
      some ((n.modBox b fun x => { x with fence := none }).startCmd ref c)
    else none
  | none =>
    if !n.mayFetch b then none
    else if !n.slotReads b then some (n.modBox b fun x => { x with st := .error, err := 3 })
    else
      match x.posted with
      | [] => none
      | c :: _ => some (n.fetchNext b c)

def Node.pump : Nat → Node → Nat → Node
  | 0, n, _ => n
  | k + 1, n, b =>
    match n.pumpOne b with
    | none => n
    | some n => Node.pump k n b

/-! ## The doorbell (R307, R317) -/

/-- What stands in a command slot as memory shows it: HBM bytes, or host memory as the node last knew it. -/
def Node.slotBytes (n : Node) (b i : Nat) : Bytes :=
  let a := n.rd R.PB_CMD_BASE_BASE (boxBase b) + i % 2 ^ n.rd R.PB_CFG_CMD_LOG2 (boxBase b) * 64
  if bitAt a 63 then (span (a % 2 ^ 63) 64).map fun x => mapGetD 0 n.host.mem x else n.hbmRead (a % 2 ^ 41) 64

/-- A doorbell write. The host has posted `slots` since the last one; slots it does not name are read where they stand. -/
def Node.doorbell (n : Node) (b tail : Nat) (slots : List Posted) : Node :=
  let x := n.box b
  let want := (tail + 2 ^ 32 - x.head) % 2 ^ 32
  let faulty : Bool := decide (2 ^ n.rd R.PB_CFG_CMD_LOG2 (boxBase b) < want)
  let n := n.modBox b fun x => { x with tail := tail % 2 ^ 32 }
  if faulty then if x.st = .enabled then n.modBox b fun x => { x with st := .error, err := 2 } else n
  else
    let had := (x.posted ++ slots).take want
    let rest := (span had.length (want - had.length)).map fun i => (⟨n.slotBytes b (x.head + i), []⟩ : Posted)
    Node.pump (2 * want + 2) (n.modBox b fun x => { x with posted := had ++ rest }) b

/-- Can the host reach the node: the link is up and the firmware runs (R305, R452)? -/
def Node.hostReach (n : Node) : Bool := n.awake && n.host.link

/-- The host posts one command in the next slot of a box and rings its doorbell. -/
def Node.postCommand (n : Node) (b : Nat) (c : HostCmd) : Node :=
  if n.hostReach then n.doorbell b ((n.box b).tail + 1) [⟨padTo 64 c.bytes, c.data⟩] else n

/-- A command's bytes with the OPCODE of its row. -/
def withOp (op : Nat) (c : HostCmd) : HostCmd := { c with bytes := BitVec.ofNat 8 op :: c.bytes.drop 1 }

/-- With a byte of the body that its row fixes. -/
def withByte (off v : Nat) (c : HostCmd) : HostCmd :=
  { c with bytes := c.bytes.take off ++ BitVec.ofNat 8 v :: c.bytes.drop (off + 1) }

/-- With the LEVEL of a RESET_LEVEL row (bits 2:0 of the byte at 0x10). -/
def withLevel (lv : Nat) (c : HostCmd) : HostCmd := withByte 0x10 (leAt c.bytes 0x10 1 / 8 * 8 + lv) c

/-! ## Boundary action 5 (R50, R312) -/

/-- The effect of a boundary command; `last` when the pressure policy has run for it (R180). -/
def Node.applyBoundary (n : Node) (w : BoxWait) (last : Bool) : Applied :=
  let p := n.boxOwner w.cmd.box
  match w.op with
  | 0x10 => n.applyOpen p w.bytes w.data
  | 0x11 => n.applyClose p w.bytes
  | 0x12 => n.applyAlloc p w.bytes last
  | 0x13 => n.applyFree p w.bytes
  | 0x16 => n.applyMigrate p w.cmd w.bytes
  | 0x17 =>
    match (decRange w.bytes).kind with
    | 1 => n.applyHot p w.bytes
    | 2 => n.applyCold p w.bytes
    | _ => n.applyShare p w
  | 0x18 => n.applyPin p w.bytes
  | 0x19 => n.applyUnpin p w.bytes
  | 0x20 => n.keyRegister p w.bytes
  | 0x21 => n.keyRevoke p w.bytes
  | 0x22 => n.extentGrant p w.bytes
  | 0x24 => n.extentWithdraw p w.cmd w.bytes
  | 0x51 => n.partitionCreate w.bytes
  | 0x52 => n.partitionDestroy w.cmd w.bytes
  | _ => n.partitionScrub w.cmd w.bytes

/-- Page operations a command counts for (R312). -/
def pageOps (w : BoxWait) : Nat := if opRange w.op then max 1 (decRange w.bytes).count else 1

/-- Is a waiting command due at the boundary of tick `k`, at time `b`? -/
def Node.waitDue (n : Node) (k b : Nat) (w : BoxWait) : Bool :=
  let owner := n.boxOwner w.cmd.box
  (match w.atTick with
    | some t => decide (0 ≤ tickDiff k t)
    | none => decide (w.at' + 20 ≤ b)) && decide (w.ready ≤ b) && !(decide (owner < 32) && n.haltedPart owner) &&
    !(cmdFence w.bytes && decide ((n.box w.cmd.box).inflight ≠ 1))

/-- A fenced boundary command has started: its box fetches on. -/
def Node.unfenceBox (n : Node) (w : BoxWait) : Node :=
  if cmdFence w.bytes then n.modBox w.cmd.box fun x => { x with fence := none } else n

/-- Apply the due commands in order, at most 1,024 page operations. The commands left wait; a failed allocation is
handed back for the policy. -/
def Node.applyAll (k b : Nat) : List BoxWait → Nat → Bool → Node → List BoxWait → Node × List BoxWait
  | [], _, _, n, retry => (n, retry)
  | w :: ws, used, full, n, retry =>
    let still := n.host.waiting.any fun x => x.cmd == w.cmd
    if !still then applyAll k b ws used full n retry
    else if !n.waitDue k b w then applyAll k b ws used full n retry
    else if full ∨ 1024 < used + pageOps w then applyAll k b ws used true n retry
    else
      let n := n.modHost fun h => { h with waiting := h.waiting.filter fun x => x.cmd != w.cmd }
      let n := n.unfenceBox w
      match n.applyBoundary w false with
      | .noRoom n => applyAll k b ws (used + pageOps w) full n (retry ++ [w])
      | r => applyAll k b ws (used + pageOps w) full (Node.ended w.cmd r) retry

/-- Boundary action 5: post box by post box in ascending number, within a box in index order. -/
def Node.hostCommands (n : Node) (k b : Nat) : Node × List BoxWait :=
  Node.applyAll k b (sortOn (fun w => w.cmd.box) n.host.waiting) 0 false n []

/-- Allocations that found no room are tried once more when the pressure policy has run for their partition; `ran`
names the partitions it has run for at this boundary, and is answered with those it runs for here (R180, R200). -/
def Node.retryAllocs (n : Node) (retry : List BoxWait) (ran : List Nat) : Node × List Nat :=
  retry.foldl (fun (acc : Node × List Nat) w =>
    let p := acc.1.boxOwner w.cmd.box
    let n := if acc.2.contains p then acc.1 else acc.1.relieve p
    (Node.ended w.cmd (n.applyBoundary w true), p :: acc.2)) (n, ran)

end Sys2Proof.Machine
end

