-- ==== Sys2Proof/Machine/Deliver.lean ====
section
/-!
DEFINITION. What a received packet meets (R52 to R54, R236, R237, R260, R316, R460): the deadline and span checks, routing, the rule
lookup and the delivery to its unit; and the work inside the package that follows any event: packets the node sent to
itself, messages for its own engines, completions, and fetches that have become possible.
-/

namespace Sys2Proof.Machine

/-! ## Classification (R236) -/

/-- TYPE, and the key a frame carries. A message TYPE stands for a SEND to a node-owned queue pair (DEDUCED). -/
def frameKind (p : Packet) : Nat × Option Nat :=
  if p.ptype = ptLetter then (leAt p.payload 0 1, some (decLetter p.payload 0).key)
  else if p.ptype = ptReply then (leAt p.payload 0 1, none)
  else if p.ptype = ptCourier then
    let h := decCr p.payload
    let t := leAt h.data 0 1
    if h.op = opSend ∧ 0xF0000 ≤ h.dst ∧ 0x40 ≤ t ∧ t ≤ 0x46 then (t, none)
    else (h.op, if h.op = opWrite ∨ h.op = opReadReq ∨ h.op = opFetchAdd ∨ h.op = opCompareSwap then some h.key else none)
  else (0, none)

/-- The classification word of a frame that arrives on a port. -/
def Node.frameWord (n : Node) (port : Nat) (p : Packet) : Nat :=
  let (t, k) := frameKind p
  classWord p.src t p.cls (port % 2) k.isSome ((k.bind n.keyOwner).getD 0)

/-! ## Delivery -/

/-- A courier packet for this node (R404, R460): NAKed before READY and for a frozen halted partition. -/
def Node.courierIn (n : Node) (p : Packet) (long : Bool) : Node :=
  let h := decCr p.payload
  let part := (n.qp h.dst).partition
  let stopped : Bool := !n.ready || (n.dbg.halted && n.dbg.freezeIo && (n.qp h.dst).st != .free && n.inScope part)
  if crBad p.payload then n.receiveCourier p
  else if stopped then if crIsRequest h.op then n.sendNak h.dst p.src h p.entropy stRnrContext 255 else n
  else if long then n.sendNak h.dst p.src h p.entropy stBadLength 0
  else n.receiveCourier p

/-- Hand a packet for this node to its unit: by PTYPE (table Payload types). `refuse` completes a letter with REFUSED; `long` marks a deadline beyond the span (R54). -/
def Node.consume (n : Node) (sheet port : Nat) (p : Packet) (refuse long : Bool) : Node :=
  match p.ptype with
  | 1 => n.receiveLetter sheet port p.src p.entropy p.payload refuse
  | 2 =>
    if long then n
    else if leAt p.payload 0 1 = 0x11 then n.receivePartial p.entropy p.payload
    else if leAt p.payload 0 1 = 0x10 then n.hostReply (decReplyHdr p.payload).mailbox p.payload
    else n
  | 3 => n.courierIn p long
  | 4 => if long then n else ((n.hostNotice p.payload).crDeadLetter p.payload).copyLost p.payload
  | 6 => if long then n else n.abortArrives p.src p.payload
  | 7 => if long then n else n.alarmArrives p.src p.payload
  | 8 => if long then n else n.holdArrives p.src p.payload
  | _ => n

/-- Deliver a packet that the route index gives LOCAL: CONTROL frames take no rule lookup; the others take one on the
ingress sheet. -/
def Node.localFrame (n : Node) (port : Nat) (p : Packet) (long : Bool) : Node :=
  let sheet := port / 2
  if p.cls = 0 then n.consume sheet port p false long
  else
    let (act, n) := n.ruleLookup sheet (n.frameWord port p)
    if act = 1 ∨ (act = 2 ∧ p.ptype ≠ ptLetter) then n else n.consume sheet port p (act == 2) long

/-- Is a packet a courier request, which can be answered (R54)? -/
def courierRequest (p : Packet) : Bool := p.ptype == ptCourier && !crBad p.payload && crIsRequest (decCr p.payload).op

/-- Is a packet's deadline more than the maximum span ahead (R54)? -/
def Node.spanLong (n : Node) (p : Packet) : Bool := decide (n.now + n.spanNs < p.deadline)

/-- Forward a packet: HOPS counts the node, the ingress credits stay held until the frame leaves (R256, R260). -/
def Node.forwardFrame (n : Node) (port : Nat) (p : Packet) (ports : List Nat) : Node :=
  match n.egress ports p.entropy with
  | none => (n.freeCredits port p).dropAt port p 4
  | some e => n.queueFrom (n.queuePort e) { p with hops := min 255 (p.hops + 1) } 32 p.hops (if n.switched port then none else some port)

/-- A packet that has passed the frame checks (R260, steps 2 to 5): `src` is the port it came in on and whose buffer it occupies,
`port` the one it is steered from, member 0 of a lock (R248). -/
def Node.deliverFrom (n : Node) (src port : Nat) (p : Packet) : Node :=
  let long := n.spanLong p
  let n := n.traceRec 2 (.port src 0) none
  if p.deadline ≤ n.now + n.guardNow then (n.freeCredits src p).dropAt src p 1
  else if p.dst = 0xFFFFFFFF then
    if p.ptype = ptTime then (n.freeCredits src p).timeExchange src (n.timeMsg p)
    else if long then (n.freeCredits src p).dropAt src p 3 else (n.freeCredits src p).consume (port / 2) port p false false
  else
    let n := n.inc R.GZ_ROUTE_CNT_LOOKUPS (sheetBase (port / 2)) 1
    match n.route (port / 2) p.dst with
    | .deliver =>
      let n := n.freeCredits src p
      if long ∧ p.ptype ≠ ptLetter ∧ !courierRequest p then n.dropAt src p 3 else n.localFrame port p long
    | .miss =>
      if long then (n.freeCredits src p).dropAt src p 3
      else ((n.inc R.GZ_ROUTE_CNT_MISSES (sheetBase (port / 2)) 1).freeCredits src p).dropAt src p 2
    | .forward ports =>
      if long then (n.freeCredits src p).dropAt src p 3 else n.forwardFrame src p ports

/-- A packet that came in on the port it is steered from. -/
def Node.deliver (n : Node) (port : Nat) (p : Packet) : Node := n.deliverFrom port port p

/-- Deliver what the ports handed up. -/
def Node.deliverAll (n : Node) (l : List Handed) : Node := forEach l n fun n x => n.deliverFrom x.src x.port x.pkt

/-! ## The work that follows an event -/

/-- A message for the node's own users: migration messages (R205) and lease messages (R333). -/
def Node.ownMessage (n : Node) (src : Nat) (m : Bytes) : Node :=
  let t := leAt m 0 1
  if 0x40 ≤ t ∧ t ≤ 0x46 then n.migMessage src m
  else if 0x50 ≤ t ∧ t ≤ 0x52 then n.leaseArrives src m
  else n

/-- A completion of one of the node's own users. -/
def Node.ownDone (n : Node) (u : CrUser) (status result : Nat) : Node :=
  match u with
  | .migration id => n.migOpDone id status
  | .t2 id => n.t2OpDone id status
  | .stage order _ => if status = 0 then n else n.stageBroken order
  | .nme _ op => n.nmeOpDone op status result
  | _ => n

/-- A post box that can go on. -/
def Node.readyBox (n : Node) : Option Node :=
  (mapKeys n.host.boxes).findSome? fun b => if (n.box b).posted = [] ∧ (n.box b).fence.isNone then none else n.pumpOne b

/-- One piece of waiting work, in a fixed order. -/
def Node.workOne (n : Node) : Option Node :=
  match n.loop with
  | (sheet, p) :: rest => some (({ n with loop := rest } : Node).consume sheet 16 p false false)
  | [] =>
    match n.courier.inbox with
    | m :: rest => some (({ n with courier := { n.courier with inbox := rest } } : Node).ownMessage m.1 m.2)
    | [] =>
      match n.courier.done with
      | d :: rest => some (({ n with courier := { n.courier with done := rest } } : Node).ownDone d.1 d.2.1 d.2.2.2)
      | [] => match n.unread with
        | some (key, e) => some (n.readStore key e)
        | none => n.readyBox

def Node.work : Nat → Node → Node
  | 0, n => n
  | k + 1, n =>
    match n.workOne with
    | none => n
    | some n => Node.work k n

/-- Bound on the pieces of work one event sets off. -/
def workLimit : Nat := 4096

/-- Everything an event sets off inside the package: resets that have completed, a flush that has ended and start-up
milestones included. -/
def Node.settle (n : Node) : Node :=
  Node.work workLimit (((Node.work workLimit n).resetsDone).flushEnds).milestones

/-- An event at a time, with what it sets off. -/
def Node.event (n : Node) (t : Nat) (f : Node → Node) : Node := (f (n.at t)).settle

end Sys2Proof.Machine
end

