-- ==== Sys2Proof/Machine/Boundary.lean ====
section
/-!
DEFINITION. The tick boundary (R50): its eight actions in their order. Work that a boundary sets off by itself (moves that switch,
quads that go OFFLINE, granules that retire, expired leases, control writes that wait) stands at the action its chapter names.
-/

namespace Sys2Proof.Machine

/-- The number of the next tick and the time of its boundary (R43). -/
def Node.nextTick (n : Node) : Nat × Nat := ((n.time.tick + 1) % 2 ^ 48, n.boundary (n.time.tick + 1))

/-- Are the actions of tick `k`'s boundary still barred after a backward step (R42)? -/
def Node.barred (n : Node) (k : Nat) : Bool := n.time.barTick.any fun b => decide (tickDiff k b ≤ 0)

/-- Action 1: close the ending tick, let control writes, aborts and resets take effect, and become READY when start-up
allows it (R48, R412, R419, R427, R460). -/
def Node.action1 (n : Node) (k : Nat) : Node :=
  let n := n.clearFresh.growErr.slotTick.closeTick
  let n := n.modTime fun t => { t with tick := k, barTick := none }
  n.coresReady.runWaits.applyAborts.runResets.abortForFatal.becomeReady

/-- Action 2: a pending Meridian step, and the locks a member leaves for skew (R41, R55). -/
def Node.action2 (n : Node) : Node := n.meridianStep.leaveLocks

/-- Action 3: retirement and overlays; the port mode written before (R351, R345, R363). -/
def Node.action3 (n : Node) : Node :=
  let n := n.chartBoundary
  { n with portMode := n.rd R.PART_PORT_CFG_MODE 0 }

/-- Action 4: effecters, the operating point, Park and Standby; quads that leave service and granules that retire. -/
def Node.action4 (n : Node) : Node := n.effectersDue.powerBoundary.quadsOffline.retireAll

/-- ORPHAN under QUIESCE reaches its boundary (R323). -/
def Node.quiesceBoundary (n : Node) : Node :=
  if n.host.quiesce && !n.host.quiesced then
    ((n.revokeAll fun _ => true).withdrawOther fun _ => true).modHost fun h => { h with quiesced := true }
  else n

/-- Action 5: expired leases, host commands, moves and security commands. The allocations without room are handed on. -/
def Node.action5 (n : Node) (k b : Nat) : Node × List BoxWait :=
  let (n, retry) := (n.leasesExpire.quiesceBoundary).hostCommands k b
  (n.switchMoves.acceptOffers.secBoundary, retry)

/-- Action 6: the trace selection written before, known-answer fences and the tests that fall due. -/
def Node.action6 (n : Node) : Node :=
  let on := n.rd R.SVY_TRACE_CFG_LETTERS 0 + 2 * n.rd R.SVY_TRACE_CFG_PASSES 0 + 4 * n.rd R.SVY_TRACE_CFG_FRAMES 0 +
    8 * n.rd R.SVY_TRACE_CFG_BOUNDARY 0
  let n := (n.modSurvey fun s => { s with trace := on }).katFences.katsDue
  n.traceRec 3 .hub none

/-- Action 8: admission and the known-answer tests placed beside it (R442). -/
def Node.action8 (n : Node) (ran : List Nat) : Node × List Nat :=
  if n.admits && n.ready && !n.err.noAdmit then
    let (n, ran) := n.admission ran
    (n.placeKats, ran)
  else (n.expireHalted, ran)

/-- The end of a boundary: allocations tried again after the policy, the policies that go on after a failed swap-out, then
the watch on every partition's free quota (R180, R199, R211). The policy runs once for a partition. -/
def Node.boundaryEnd (n : Node) (retry : List BoxWait) (ran : List Nat) : Node :=
  let (n, ran) := n.retryAllocs retry ran
  let n := n.clearBad
  let again := n.mig.again
  forEach ((upTo 32).filter fun p => (n.part p).st == .active && !ran.contains p) (n.modMig fun m => { m with again := [] })
    fun n p => if again.contains p then n.relieve p else n.watch p

/-- Actions 3 to 8. -/
def Node.actions (n : Node) (b : Nat) : Node :=
  let k := n.time.tick
  let (n, retry) := n.action3.action4.action5 k b
  let (n, ran) := n.action6.debugBoundary.action8 []
  n.boundaryEnd retry ran

/-- The boundary of the next tick. Nothing happens before ticks are generated or while the node restarts; after a
backward step only the tick number moves on. -/
def Node.tickBoundary (n : Node) : Node :=
  if !n.ticking || !n.awake || n.err.warmAt.isSome then n
  else
    let (k, b) := n.nextTick
    let n := n.at b
    if n.barred k then n.modTime fun t => { t with tick := k }
    else
      let n := n.action1 k
      if n.err.warmAt.isSome || n.pins.pwrcycLow then n
      else
        let n := n.action2
        if n.barred n.time.tick then n else n.actions n.now

end Sys2Proof.Machine
end

