-- ==== Sys2Proof/Machine/RegWrite.lean ====
section
/-!
DEFINITION. Writing the control window (R304): what a write stores, and the actions that a write of a control field starts. CORE_CTL,
SO_CTL, XL_CTL and MIG_CTL act at the next boundary (R118, R140, R187, R212); the other controls act at once.
-/

namespace Sys2Proof.Machine

/-! ## Clearing counters -/

def nmeCounters : List Fld := [R.NME_OP_CNT_DONE, R.NME_OP_CNT_FAILED, R.NME_BYTE_CNT_BYTES]

def poolCounters : List Fld :=
  [R.POOL_CNT_GRANTS, R.POOL_CNT_RENEWALS, R.POOL_WD_CNT_BY_COMMAND, R.POOL_WD_CNT_BY_EXPIRY, R.POOL_WD_CNT_BY_OTHER,
   R.POOL_WD_CNT_RENEW_REFUSED]

def Node.hbmClear (n : Node) (q : Nat) : Node := n.clr hbmCounters (quadBase q)
def Node.nmeClear (n : Node) (q : Nat) : Node := n.clr nmeCounters (quadBase q)
/-- Every counter of a port: PORT_FRAME_CNT to PORT_DLN_CNT. -/
def Node.portClear (n : Node) (p : Nat) : Node := n.clrRange (portBase p + 0x18) (portBase p + 0x40)
/-- Every counter of a sheet's courier: CR_PKT_CNT to CR_CE_CNT. -/
def Node.crClear (n : Node) (s : Nat) : Node := n.clrRange (sheetBase s + 0x20028) (sheetBase s + 0x20050)
def Node.poolClear (n : Node) : Node := n.clr poolCounters 0
/-- Every SVY_ counter: SVY_CLASS_CNT, SVY_RING_OVR, SVY_KAT_CNT, SVY_RX_ALARM, RUNS and FAILS of SVY_CORE_KAT. -/
def Node.svyClear (n : Node) : Node :=
  let n := { n with cores := mapAll (fun _ x => { x with katRuns := 0, katFails := 0 }) n.cores }
  (((n.clrRange 0x50060 0x50080).clrRange 0x500d0 0x500d8).clrRange 0x500d8 0x500e0).clrRange 0x500f0 0x500f8

/-! ## Objects a register names -/

/-- Host memory as the node last wrote it. -/
def Node.hostBytes (n : Node) (a len : Nat) : Bytes := (span (a % 2 ^ 63) len).map fun x => mapGetD 0 n.host.mem x

/-- The object of a security command, at SEC_CMD_ADDR (R377): HBM bytes, or what the host supplied. -/
def Node.secObject (n : Node) (supplied : Bytes) : Bytes :=
  n.namedBytes (n.rd R.SEC_CMD_ADDR_ADDR 0) (n.rd R.SEC_CMD_LEN_BYTES 0) supplied

/-! ## Actions -/

/-- RELEASE_ALL and RELEASE_ONE (R417). -/
def Node.releaseAll (n : Node) : Node := forEach n.dumpsHeld n fun n c => n.releaseSlot c
def Node.releaseOne (n : Node) : Node := n.releaseSlot (n.rd R.ERR_DUMP_CTL_CORE 0)

/-- ERR_ABORT_CTL.SEND (R426). -/
def Node.abortSend (n : Node) : Node := n.sendAbort (n.rd R.ERR_ABORT_CTL_PARTITION 0) 1

/-- PORT_CTL.REKEY (R268): a rekey of every association of the port. -/
def Node.rekeyPort (n : Node) (p : Nat) : Node := forEach (n.assocKeys p) n fun n e => n.rekey p e

/-- A write of PWR_CTL.PARK, with its precedence over effecters (R388, R448); bits of absent sheets are ignored. -/
def Node.writePark (n : Node) (mask : Nat) : Node := n.wr R.PWR_CTL_PARK 0 (mask &&& n.sheetMask)

/-- A write of PWR_CTL.STANDBY (R389). -/
def Node.writeStandby (n : Node) (on : Nat) : Node := (n.wr R.PWR_CTL_STANDBY 0 on).hostWrotePower 1

/-- A write of PWR_CFG.OP_LIMIT (R391). -/
def Node.writeOpLimit (n : Node) (point : Nat) : Node := (n.wr R.PWR_CFG_OP_LIMIT 0 point).hostWrotePower 0

/-- MIG_CTL.PAUSE: shown at once, in force from the next boundary. -/
def Node.writePause (n : Node) (q : Nat) (on : Bool) : Node :=
  (n.wr R.MIG_CTL_PAUSE (quadBase q) (b2n on)).wait (.pause q on)

/-! ## One register write -/

/-- A write in progress: the register, the word as it would read with the written bytes replaced, and the written
bits alone. -/
structure RegWr where
  loc  : Loc
  word : Nat
  bits : Nat
  mask : Nat

/-- Does the write touch a field? -/
def RegWr.touches (w : RegWr) (f : Fld) : Bool := (w.mask &&& ((2 ^ f.width - 1) * 2 ^ f.lo)) != 0
/-- The field's new value. -/
def RegWr.get (w : RegWr) (f : Fld) : Nat := Sys2Proof.Machine.bits w.word f.lo f.width
/-- Was a one written to a control bit? -/
def RegWr.sets (w : RegWr) (f : Fld) : Bool := bitAt w.bits f.lo

/-- Store what a plain write stores: RW fields take the written bits, W1C bits written 1 clear; all else is kept. -/
def Node.storeFields (n : Node) (w : RegWr) : Node :=
  forEach w.loc.row.flds n fun n f =>
    match f.acc with
    | .rw => if w.touches f then n.wr f w.loc.at' (w.get f) else n
    | .w1c => if w.sets f then n.wr f w.loc.at' 0 else n
    | _ => n

/-- An action of a control bit. -/
def Node.ctl (n : Node) (w : RegWr) (f : Fld) (g : Node → Node) : Node := if w.sets f then g n else n

/-- Hub registers with an effect of their own. -/
def Node.writeHub (n : Node) (w : RegWr) : Node :=
  match w.loc.row.addr with
  | 0x20058 => n.ctl w R.CHART_CTL_LOAD fun n =>
      n.chartLoad (n.hostBytes (n.rd R.CHART_SRC_ADDR 0) (n.rd R.CHART_LEN_BYTES 0))
  | 0x30030 =>
    if w.sets R.SEC_CMD_GO then
      n.secAny (w.get R.SEC_CMD_OP) (w.get R.SEC_CMD_ARG)
        (n.secObject (n.hostBytes (n.rd R.SEC_CMD_ADDR_ADDR 0) (n.rd R.SEC_CMD_LEN_BYTES 0)))
    else n.storeFields w
  | 0x30808 => if w.touches R.PWR_CFG_OP_LIMIT then n.writeOpLimit (w.get R.PWR_CFG_OP_LIMIT) else n
  | 0x30810 =>
    if w.touches R.PWR_CTL_PARK then (n.writePark (w.get R.PWR_CTL_PARK)).writeStandby (w.get R.PWR_CTL_STANDBY) else n
  | 0x40030 =>
    let n := n.storeFields w
    (n.ctl w R.ERR_DUMP_CTL_RELEASE_ALL Node.releaseAll).ctl w R.ERR_DUMP_CTL_RELEASE_ONE Node.releaseOne
  | 0x40038 => (n.storeFields w).ctl w R.ERR_ABORT_CTL_SEND Node.abortSend
  | 0x40808 => (n.storeFields w).ctl w R.RST_CTL_GO fun n => n.rstGo (n.rd R.RST_CTL_LEVEL 0)
  | 0x500c8 => if w.touches R.SVY_RING_IDX_READ then n.ringReadAdvance (w.get R.SVY_RING_IDX_READ) else n
  | 0x50100 => (n.ctl w R.SVY_CTL_FLUSH Node.flush).ctl w R.SVY_CTL_CLEAR_CNT Node.svyClear
  | 0x60010 => n.heartbeat
  | 0x60020 => n.ctl w R.HP_CTL_ADOPT Node.adopt
  | 0x60028 => if n.rd R.HP_T3_SIZE_EN 0 = 1 then n else n.storeFields w
  | 0x60030 => n.t3WindowWrite w.word
  | 0x60038 => if n.rd R.HP_NOTICE_IDX_EN 0 = 1 then n else n.storeFields w
  | 0x70038 => n.ctl w R.POOL_CTL_CLEAR_CNT Node.poolClear
  | _ => n.storeFields w

/-- Post-box registers (R307, R317, R328). -/
def Node.writeBox (n : Node) (w : RegWr) : Node :=
  let b := w.loc.unit
  match w.loc.row.addr with
  | 0x0 | 0x8 | 0x10 | 0x18 => if (n.box b).st = .disabled then n.storeFields w else n
  | 0x20 =>
    ((n.ctl w R.PB_CTL_ENABLE fun n => n.boxEnable b).ctl w R.PB_CTL_DISABLE fun n => n.boxDisable b).ctl w R.PB_CTL_RESET
      fun n => n.boxReset b
  | 0x28 => if w.touches R.PB_TAIL_TAIL then n.doorbell b (w.get R.PB_TAIL_TAIL) [] else n
  | 0x38 => if w.touches R.PB_CPL_FREE_CPL_FREE then n.cplFree b (w.get R.PB_CPL_FREE_CPL_FREE) else n
  | 0x40 => if w.touches R.PB_RR_IDX_RR_FREE then n.rrFree b (w.get R.PB_RR_IDX_RR_FREE) else n
  | _ => n.storeFields w

/-- Sheet registers with an effect of their own. -/
def Node.writeSheet (n : Node) (w : RegWr) : Node :=
  let s := w.loc.unit
  match w.loc.row.addr with
  | 0x38 => (n.ctl w R.SO_CTL_CLEAR_CNT fun n => n.wait (.soClear s)).ctl w R.SO_CTL_DEMOTE_ALL fun n => n.wait (.demote s)
  | 0x40048 => (n.ctl w R.XL_CTL_CLEAR_CNT fun n => n.wait (.xlClear s)).ctl w R.XL_CTL_FLUSH_RC fun n => n.wait (.flushRc s)
  | 0x20090 => if w.touches R.CR_QP_FREED_FREED then n.qpFreed (n.rd R.CR_QP_SEL_QPN (sheetBase s)) (w.get R.CR_QP_FREED_FREED) else n
  | 0x20098 => n.ctl w R.CR_CTL_CLEAR_CNT fun n => n.crClear s
  | 0x30050 => (n.storeFields w).ctl w R.GZ_RULE_CMD_GO fun n => n.ruleGo s (n.rd R.GZ_RULE_CMD_OP (sheetBase s))
  | 0x30078 => (n.ctl w R.GZ_CTL_CLEAR_CNT fun n => n.clearGz s).ctl w R.GZ_CTL_RESPREAD_NOW fun n => n.respread s true
  | _ => n.storeFields w

/-- Quad, core and port registers with an effect of their own. -/
def Node.writeQuad (n : Node) (w : RegWr) : Node :=
  let q := w.loc.unit
  match w.loc.row.addr with
  | 0x50 => (n.ctl w R.HBM_CTL_CLEAR_CNT fun n => n.hbmClear q).ctl w R.HBM_CTL_PATROL_NOW fun n => n.patrol q
  | 0x4030 => n.ctl w R.NME_CTL_CLEAR_CNT fun n => n.nmeClear q
  | 0x8060 =>
    let n := n.ctl w R.MIG_CTL_CLEAR_CNT fun n => n.wait (.migClear q)
    if w.touches R.MIG_CTL_PAUSE then n.writePause q (w.get R.MIG_CTL_PAUSE == 1) else n
  | _ => n.storeFields w

def Node.writeCore (n : Node) (w : RegWr) : Node :=
  let c := w.loc.unit
  match w.loc.row.addr with
  | 0x10 =>
    ((n.ctl w R.CORE_CTL_FENCE fun n => n.wait (.coreFence c)).ctl w R.CORE_CTL_UNFENCE fun n => n.wait (.coreUnfence c)).ctl w
      R.CORE_CTL_CLEAR_CNT fun n => n.wait (.coreClear c)
  | _ => n.storeFields w

def Node.writePort (n : Node) (w : RegWr) : Node :=
  let p := w.loc.unit
  match w.loc.row.addr with
  | 0x58 =>
    ((n.ctl w R.PORT_CTL_CLEAR_CNT fun n => n.portClear p).ctl w R.PORT_CTL_RETRAIN fun n => n.hostRetrain p).ctl w
      R.PORT_CTL_REKEY fun n => n.rekeyPort p
  | _ => n.storeFields w

/-- Write a register word: `v` in `width` bytes at an aligned address. Reserved offsets ignore the write. -/
def Node.regWrite (n : Node) (a width v : Nat) : Node :=
  match n.locate (a / 8 * 8) with
  | none => n
  | some l =>
    let sh := a % 8 * 8
    let mask := (2 ^ (8 * width) - 1) * 2 ^ sh
    let bits := v % 2 ^ (8 * width) * 2 ^ sh
    let old := n.regValue l 0
    let w : RegWr := ⟨l, old - (old &&& mask) + bits, bits, mask⟩
    match l.grp with
    | .hub => n.writeHub w
    | .box => n.writeBox w
    | .sheet => n.writeSheet w
    | .port => n.writePort w
    | .quad => n.writeQuad w
    | .core => n.writeCore w

/-- An access that completes with Unsupported Request (R4, R304, R452): it has no effect. -/
def Node.unsupportedReq (n : Node) (a : Nat) : Node :=
  let n := n.modHost fun h => { h with ur := h.ur + 1 }
  if n.awake then n.hpErr 6 a else n

/-- Is an access of the control window answered at all? -/
def Node.accessOk (n : Node) (a width : Nat) : Bool :=
  n.awake && (width == 4 || width == 8) && a % width == 0 && decide (a < 0x4000000) && !n.absentAddr a

/-- A host write of the control window. -/
def Node.registerWrite (n : Node) (a width v : Nat) : Node :=
  if !n.host.link then n else if n.accessOk a width then n.regWrite a width v else n.unsupportedReq a

/-- A 32-bit read. One of the low half of TICK_NOW or MER_NOW latches the high half, and for MER_NOW also MER_NOW_FRAC;
the high half reads as latched (R56). Only ID_ and CAP_ answer while the ROM runs (R452). -/
def Node.read32 (n : Node) (a : Nat) : Node :=
  if !n.host.link then n
  else if !(n.awake || decide (a < 0x10000)) || a % 4 ≠ 0 || decide (0x4000000 ≤ a) || n.absentAddr a then n.unsupportedReq a
  else
    let (v, n) := n.readReg (a / 8 * 8)
    let half := if a % 8 = 0 then v % 2 ^ 32 else if a = 0x10014 then n.time.latchTick
      else if a = 0x10104 then n.time.latch else v / 2 ^ 32
    let n := n.modHost fun h => { h with regData := half }
    if a = 0x10010 then n.modTime fun t => { t with latchTick := v / 2 ^ 32 }
    else if a = 0x10100 then n.modTime fun t => { t with latch := v / 2 ^ 32, latchFrac := t.frac }
    else n

end Sys2Proof.Machine
end

