-- ==== Sys2Proof/Machine/DebugBus.lean ====
section
/-!
DEFINITION. The debug bus (R400 to R402, R384): READ, WRITE, READ_INC and WRITE_INC in the spaces CTRL, REG, HBM and SCRATCH.
-/

namespace Sys2Proof.Machine

/-- STATUS codes of the debug bus (table Debug-bus register). -/
def dbOk : Nat := 0x00
def dbLevel : Nat := 0x02
def dbPartition : Nat := 0x03
def dbBadAddr : Nat := 0x04
def dbPoisoned : Nat := 0x05
def dbOffline : Nat := 0x06
def dbNotHalted : Nat := 0x07

/-- Does R384 limit the debug port, and to which partitions? -/
def Node.dbNamed (n : Node) (p : Nat) : Bool :=
  n.sec.st != .owned || n.sec.level != 3 || n.sec.token.any fun t => bitAt t.partitions p

/-- May the debug port reach a quad: one of a named partition, or UNASSIGNED; an OFFLINE quad as its owner is named, if it
has one? -/
def Node.dbQuadOk (n : Node) (q : Nat) : Bool :=
  let x := n.quad q
  match x.st with
  | .assigned => n.dbNamed x.owner
  | .offline => !bitAt (n.part x.owner).quads q || n.dbNamed x.owner
  | st => n.sec.st != .owned || n.sec.level != 3 || st == .unassigned

/-- May it reach a register: one outside the quad windows and post boxes of partitions that the token does not name? -/
def Node.dbRegOk (n : Node) (a : Nat) : Bool :=
  match window a with
  | (.quad, q, _) => n.dbQuadOk q
  | (.core, c, _) => n.dbQuadOk (coreQuad c)
  | (.box, b, _) => (n.box b).st == .disabled || n.boxOwner b == 32 || n.dbNamed (n.boxOwner b)
  | _ => true

/-- The level an access needs. -/
def dbNeeds (space : Nat) (write : Bool) : Nat := if write || decide (2 ≤ space) then 3 else 1

/-- Is a CTRL offset a debug control register? -/
def ctrlOk (a : Nat) : Bool := decide (a < 0x20) || (decide (0x100 ≤ a) && decide (a < 0x200))

/-- The checks of an access: 0 when it goes on. -/
def Node.dbCheck (n : Node) (space a : Nat) (write : Bool) : Nat :=
  if n.sec.level < dbNeeds space write then dbLevel
  else if a % 8 ≠ 0 then dbBadAddr
  else match space with
    | 0 => if ctrlOk a then dbOk else dbBadAddr
    | 1 =>
      if !(n.awake || decide (a < 0x10000)) || decide (0x4000000 ≤ a) || n.absentAddr a then dbBadAddr
      else if n.dbRegOk a then dbOk else dbPartition
    | 2 =>
      let q := addrQuad a
      if !n.hasQuad q ∨ 12582912 ≤ addrGran a ∨ (write ∧ reservedGran ≤ addrGran a) then dbBadAddr
      else if !n.dbQuadOk q then dbPartition
      else if (n.quad q).st = .offline then dbOffline
      else dbOk
    | 3 =>
      let c := a / 2 ^ 22
      if !n.hasCore c then dbBadAddr
      else if !n.dbQuadOk (coreQuad c) then dbPartition
      else if write ∧ !(match n.quadOwner (coreQuad c) with
          | some p => n.haltedPart p
          | none => n.dbg.halted && !n.dbg.scopeParts) then dbNotHalted
      else dbOk
    | _ => dbBadAddr

/-- One word of a breakpoint: CTL, A, B or C. -/
def Bp.word (b : Bp) (w : Nat) : Nat := [b.ctl, b.a, b.b, b.c].getD w 0

def Bp.setWord (b : Bp) (w v : Nat) : Bp :=
  match w with
  | 0 => { b with ctl := v % 64 }
  | 1 => { b with a := v }
  | 2 => { b with b := v }
  | _ => { b with c := v }

/-- Read a debug control register (table Debug control registers). -/
def Node.ctrlRead (n : Node) (a : Nat) : Nat :=
  let d := n.dbg
  if 0x100 ≤ a then (mapGet d.bps ((a - 0x100) / 0x20)).word (a % 0x20 / 8)
  else match a with
    | 0x00 => b2n d.halted + d.cause % 8 * 2 + d.bpHit % 256 * 16 + d.haltTick % 2 ^ 48 * 65536
    | 0x08 => b2n d.scopeParts + b2n d.propagate * 2 + b2n d.freezeIo * 4 + d.list % 256 * 256 + d.partitions % 2 ^ 32 * 65536
    | 0x18 => min (2 ^ 32 - 1) d.sent + min 65535 d.honoured * 2 ^ 32 + min 65535 d.ignored * 2 ^ 48
    | _ => 0

/-- Write a debug control register; DBG_HALT_CTL is ignored while a scope is halted. -/
def Node.ctrlWrite (n : Node) (a v : Nat) : Node :=
  if 0x100 ≤ a then
    n.modDebug fun d => { d with bps := mapMod d.bps ((a - 0x100) / 0x20) fun b => b.setWord (a % 0x20 / 8) v }
  else if a = 0x08 then
    n.modDebug fun d =>
      if d.halted then d
      else { d with scopeParts := bitAt v 0, propagate := bitAt v 1, freezeIo := bitAt v 2, list := bits v 8 8,
                    partitions := bits v 16 32 }
  else if a = 0x10 then n.writeCmd (v % 16)
  else n

/-- The result of an access that has passed its checks. -/
def Node.dbResult (n : Node) (status : Nat) : Node := n.modDebug fun d => { d with status := status }
def Node.dbData (n : Node) (v : Nat) : Node := n.modDebug fun d => { d with status := dbOk, data := v }
def Node.dbPoison (n : Node) : Node := n.modDebug fun d => { d with status := dbPoisoned, data := 0 }

/-- A read that has passed its checks. -/
def Node.dbReadOk (n : Node) (space a : Nat) : Node :=
  match space with
  | 0 => n.dbData (n.ctrlRead a)
  | 1 =>
    let (v, n) := n.readReg a
    n.dbData v
  | 2 =>
    let n := (n.snoopRange a 8 false).wakeStack (addrQuad a)
    if n.poisoned a 8 then n.dbPoison else n.dbData (n.hbmNat a 8)
  | _ =>
    let c := a / 2 ^ 22
    let o := a % 2 ^ 22
    if (n.core c).badWords.contains (o / 8) then n.dbPoison
    else
      let v := leNat ((span o 8).map fun i => n.scratchByte c i)
      ({ n with freeCtr := n.freeCtr + 2 ^ 22 } : Node).dbData v

/-- Bytes put into a scratchpad: into the copy that lies there in the T0 area, elsewhere kept by their offset. -/
def CoreSt.scratchPut (x : CoreSt) (o : Nat) (bs : Bytes) : CoreSt :=
  match (if 0x80000 ≤ o then t0At (o - 0x80000) x.t0 else none) with
  | some (f, k) =>
    let d := (mapGet x.t0 f : T0Copy).data
    if k + bs.length ≤ d.length then
      { x with t0 := mapMod x.t0 f fun c => { c with data := d.take k ++ bs ++ d.drop (k + bs.length) } }
    else x
  | none => { x with scratch := forEach bs.zipIdx x.scratch fun m b => mapSet m (o + b.2) (b.1.toNat + 1) }

/-- A written word holds no error any more. -/
def CoreSt.cleared8 (x : CoreSt) (o : Nat) : CoreSt := { x with badWords := x.badWords.filter (· != o / 8) }

/-- A write that has passed its checks. -/
def Node.dbWriteOk (n : Node) (space a v : Nat) : Node :=
  match space with
  | 0 => (n.dbResult dbOk).ctrlWrite a v
  | 1 => (n.dbResult dbOk).regWrite a 8 v
  | 2 => (n.dbResult dbOk).ringWrite a (leBytes 8 v)
  | _ =>
    let c := a / 2 ^ 22
    let o := a % 2 ^ 22
    (n.dbResult dbOk).modCore c fun x => (x.scratchPut o (leBytes 8 v)).cleared8 o

/-- Refused accesses have no effect, on the address counter either (R401). -/
def dbRefused (st : Nat) : Bool := st == dbLevel || st == dbPartition

/-- An access at an address; `next` is the address counter afterwards. -/
def Node.dbAccess (n : Node) (space a next : Nat) (write : Bool) (v : Nat) : Node :=
  if n.dbg.ir ≠ irAccess ∨ n.pins.resetLow ∨ !n.pins.pwrGood then n
  else
    let st := n.dbCheck space a write
    let n := if dbRefused st then n else n.modDebug fun d => { d with addr := next, space := space }
    if st ≠ dbOk then n.dbResult st
    else if write then n.dbWriteOk space a v
    else n.dbReadOk space a

def Node.dbRead (n : Node) (space a : Nat) : Node := n.dbAccess space a a false 0
def Node.dbWrite (n : Node) (space a v : Nat) : Node := n.dbAccess space a a true v
/-- READ_INC and WRITE_INC use the address counter and then add 8 to it. -/
def Node.dbReadInc (n : Node) (space : Nat) : Node := n.dbAccess space n.dbg.addr (n.dbg.addr + 8) false 0
def Node.dbWriteInc (n : Node) (space v : Nat) : Node := n.dbAccess space n.dbg.addr (n.dbg.addr + 8) true v

end Sys2Proof.Machine
end

