-- ==== Sys2Proof/Machine/Exec.lean ====
section
/-!
DEFINITION. The forms every meaning takes: an event of the node, of a named unit, of the host side, a packet handed up by
a port, a host command; and what a row fixes in the packet or command it carries.
-/

namespace Sys2Proof.Machine

/-- An event at a time, whatever the node's power and reset (log entry 43). -/
def State.at (s : State) (t : Nat) (f : Node → Node) : Host.Outcome State Fault Refusal := s.on fun n => n.event t f

/-- An event of a node that runs firmware; nothing happens in one that does not (R13, R450). -/
def State.live (s : State) (t : Nat) (f : Node → Node) : Host.Outcome State Fault Refusal :=
  s.at t fun n => n.when n.awake f

/-- An event of a named unit. -/
def State.atUnit (s : State) (t : Nat) (present : Bool) (f : Node → Node) : Host.Outcome State Fault Refusal :=
  s.onUnit present fun n => n.event t f

/-- An event of a named unit of a node that runs firmware. -/
def State.liveUnit (s : State) (t : Nat) (present : Bool) (f : Node → Node) : Host.Outcome State Fault Refusal :=
  s.atUnit t present fun n => n.when n.awake f

/-- An access of HDM by the host, or its answer to a snoop. -/
def State.fromHost (s : State) (t : Nat) (f : Node → Node) : Host.Outcome State Fault Refusal :=
  s.at t fun n => n.when n.hostReach f

/-- What a write of a register does: nothing without a link; an Unsupported Request while the ROM runs or at an absent
unit's window (R4, R452); else its effect. -/
def Node.windowWrite (n : Node) (r : Fld) (base : Nat) (present : Bool) (f : Node → Node) : Node :=
  if !n.host.link then n else if n.awake && present then f n else n.unsupportedReq (base + r.addr)

/-- A write of a hub register by the host. -/
def State.hostReg (s : State) (t : Nat) (r : Fld) (f : Node → Node) : Host.Outcome State Fault Refusal :=
  s.at t fun n => n.windowWrite r 0 true f

/-- Can a port hand up packets: UP, in a node that runs and is in no warm restart? -/
def Node.portHands (n : Node) (port : Nat) : Bool := n.awake && n.portUp port && n.err.warmAt.isNone

/-- A packet that has passed the frame checks on a port. -/
def State.packet (s : State) (t port : Nat) (p : Packet) : Host.Outcome State Fault Refusal :=
  s.atUnit t (s.node.hasPort port) fun n => n.when (n.portHands port) fun n => n.deliver port p

/-- Post boxes 0 to 4095 (R13, R306). -/
def hasBox (b : Nat) : Bool := decide (b < 4096)

/-- A write of a post box's register by the host. -/
def State.hostBox (s : State) (t box : Nat) (r : Fld) (f : Node → Node) : Host.Outcome State Fault Refusal :=
  s.atUnit t (hasBox box) fun n => n.windowWrite r (boxBase box) true f

/-- A command the host posts in a box (R307, R309). -/
def State.command (s : State) (t box : Nat) (c : HostCmd) : Host.Outcome State Fault Refusal :=
  s.hostBox t box R.PB_TAIL_TAIL fun n => n.postCommand box c

/-! ## What a row fixes -/

/-- Set one byte of a payload. -/
def setByte (off v : Nat) (bs : Bytes) : Bytes :=
  let bs := if bs.length < off then padTo off bs else bs
  bs.take off ++ BitVec.ofNat 8 v :: bs.drop (off + 1)

/-- A packet of a payload type. -/
def ofPtype (ptype : Nat) (p : Packet) : Packet := { p with ptype := ptype }

/-- A packet of a payload type whose first byte says which message it is. -/
def ofType (ptype typ : Nat) (p : Packet) : Packet := { p with ptype := ptype, payload := setByte 0 typ p.payload }

/-- A courier SEND that carries a message of a type (R205, R298, R333). -/
def ofMessage (typ : Nat) (p : Packet) : Packet := ofType ptCourier opSend { p with payload := setByte 48 typ p.payload }

end Sys2Proof.Machine
end

