-- ==== Sys2Proof/Machine/ExecChart.lean ====
section
/-!
DEFINITION. The chart and its overlays (R340 to R354).
-/

namespace Sys2Proof.Machine

/-- CHART_LOAD (R344). CHART_CTL LOAD starts verification of a chart image. -/
def execChartLoad (t : Nat) (image : Bytes) (s : State) : Host.Outcome State Fault Refusal :=
  s.hostReg t R.CHART_CTL_LOAD fun n => n.chartLoad image

/-- CHART_VERIFY_DONE (R343). Chart verification ends and the chart takes effect or is rejected. -/
def execChartVerifyDone (t : Nat) (s : State) : Host.Outcome State Fault Refusal := s.live t fun n => n.chartVerified

/-- OVERLAY_APPLY (R345). Command reading, checking and staging an overlay for its named tick. -/
def execOverlayApply (t box : Nat) (c : HostCmd) (s : State) : Host.Outcome State Fault Refusal :=
  s.command t box (withOp 0x50 c)

/-- OVERLAY_STAGED (R353). An overlay's staged copies are built in every sheet and STAGED is raised. -/
def execOverlayStaged (t index : Nat) (s : State) : Host.Outcome State Fault Refusal :=
  s.live t fun n => n.overlayStaged index

/-- OVERLAY_SWITCH (R348). At B(NAMED_TICK) every structure switches to its staged copy and the epoch advances. -/
def execOverlaySwitch (t : Nat) (s : State) : Host.Outcome State Fault Refusal := s.live t fun n => n.overlaySwitch

/-- REDIRECT_RETIREMENT (R351). At B(S + RETENTION_TICKS) old-epoch redirects pointing at the placement's node become
NONE. -/
def execRedirectRetirement (t : Nat) (s : State) : Host.Outcome State Fault Refusal := s.live t fun n => n.redirectRetirement

end Sys2Proof.Machine
end

