-- ==== Sys2Proof/Machine/ExecControl.lean ====
section
/-!
DEFINITION. The control bits of cores, sheets, quads and ports, and the clearing of counters
(R118, R140, R187, R212, R244, R270).
-/

namespace Sys2Proof.Machine

/-- CORE_FENCE (R114). CORE_CTL FENCE fences a core at the next boundary. -/
def execCoreFence (t core : Nat) (s : State) : Host.Outcome State Fault Refusal :=
  s.at t fun n => n.windowWrite R.CORE_CTL_FENCE (coreBase core) (n.hasCore core) fun n => n.wait (.coreFence core)

/-- UNFENCE (R114). CORE_CTL UNFENCE clears a core's fence and ABFT_RUN at the next boundary. -/
def execUnfence (t core : Nat) (s : State) : Host.Outcome State Fault Refusal :=
  s.at t fun n => n.windowWrite R.CORE_CTL_UNFENCE (coreBase core) (n.hasCore core) fun n => n.wait (.coreUnfence core)

/-- CORE_CLEAR_CNT (R118). CORE_CTL CLEAR_CNT clears every CORE_ counter. -/
def execCoreClearCnt (t core : Nat) (s : State) : Host.Outcome State Fault Refusal :=
  s.at t fun n => n.windowWrite R.CORE_CTL_CLEAR_CNT (coreBase core) (n.hasCore core) fun n => n.wait (.coreClear core)

/-- SO_CLEAR_CNT (R140). SO_CTL CLEAR_CNT clears every SO_ counter. -/
def execSoClearCnt (t sheet : Nat) (s : State) : Host.Outcome State Fault Refusal :=
  s.at t fun n => n.windowWrite R.SO_CTL_CLEAR_CNT (sheetBase sheet) (n.hasSheet sheet) fun n => n.wait (.soClear sheet)

/-- DEMOTE_ALL (R139). SO_CTL DEMOTE_ALL drops every tier-0 copy on the sheet. -/
def execDemoteAll (t sheet : Nat) (s : State) : Host.Outcome State Fault Refusal :=
  s.at t fun n => n.windowWrite R.SO_CTL_DEMOTE_ALL (sheetBase sheet) (n.hasSheet sheet) fun n => n.wait (.demote sheet)

/-- XL_CLEAR_CNT (R187). XL_CTL CLEAR_CNT clears every XL_ counter. -/
def execXlClearCnt (t sheet : Nat) (s : State) : Host.Outcome State Fault Refusal :=
  s.at t fun n => n.windowWrite R.XL_CTL_CLEAR_CNT (sheetBase sheet) (n.hasSheet sheet) fun n => n.wait (.xlClear sheet)

/-- FLUSH_RC (R187). XL_CTL FLUSH_RC invalidates the sheet's route and walk caches. -/
def execFlushRc (t sheet : Nat) (s : State) : Host.Outcome State Fault Refusal :=
  s.at t fun n => n.windowWrite R.XL_CTL_FLUSH_RC (sheetBase sheet) (n.hasSheet sheet) fun n => n.wait (.flushRc sheet)

/-- MIG_CLEAR_CNT (R212). MIG_CTL CLEAR_CNT clears every MIG_ counter. -/
def execMigClearCnt (t quad : Nat) (s : State) : Host.Outcome State Fault Refusal :=
  s.at t fun n => n.windowWrite R.MIG_CTL_CLEAR_CNT (quadBase quad) (n.hasQuad quad) fun n => n.wait (.migClear quad)

/-- PAUSE (R212). A MIG_CTL PAUSE write stops or resumes policy swap-outs and drops on the quad. -/
def execPause (t quad : Nat) (on : Bool) (s : State) : Host.Outcome State Fault Refusal :=
  s.at t fun n => n.windowWrite R.MIG_CTL_PAUSE (quadBase quad) (n.hasQuad quad) fun n => n.writePause quad on

/-- HBM_CLEAR_CNT (R226). HBM_CTL CLEAR_CNT clears HBM_ERR_CNT and HBM_RFM_CNT. -/
def execHbmClearCnt (t quad : Nat) (s : State) : Host.Outcome State Fault Refusal :=
  s.at t fun n => n.windowWrite R.HBM_CTL_CLEAR_CNT (quadBase quad) (n.hasQuad quad) fun n => n.hbmClear quad

/-- PATROL_NOW (R226). HBM_CTL PATROL_NOW starts a patrol pass. -/
def execPatrolNow (t quad : Nat) (s : State) : Host.Outcome State Fault Refusal :=
  s.at t fun n => n.windowWrite R.HBM_CTL_PATROL_NOW (quadBase quad) (n.hasQuad quad) fun n => n.patrol quad

/-- NME_CLEAR_CNT (R226). NME_CTL CLEAR_CNT clears every NME_ counter. -/
def execNmeClearCnt (t quad : Nat) (s : State) : Host.Outcome State Fault Refusal :=
  s.at t fun n => n.windowWrite R.NME_CTL_CLEAR_CNT (quadBase quad) (n.hasQuad quad) fun n => n.nmeClear quad

/-- GZ_CLEAR_CNT (R244). GZ_CTL CLEAR_CNT clears every GZ_ counter. -/
def execGzClearCnt (t sheet : Nat) (s : State) : Host.Outcome State Fault Refusal :=
  s.at t fun n => n.windowWrite R.GZ_CTL_CLEAR_CNT (sheetBase sheet) (n.hasSheet sheet) fun n => n.clearGz sheet

/-- PORT_CLEAR_CNT (R271). PORT_CTL CLEAR_CNT clears every counter of a port. -/
def execPortClearCnt (t port : Nat) (s : State) : Host.Outcome State Fault Refusal :=
  s.at t fun n => n.windowWrite R.PORT_CTL_CLEAR_CNT (portBase port) (n.hasPort port) fun n => n.portClear port

/-- RETRAIN (R247). PORT_CTL RETRAIN retrains a port at the widest width its lanes allow. -/
def execRetrain (t port : Nat) (s : State) : Host.Outcome State Fault Refusal :=
  s.at t fun n => n.windowWrite R.PORT_CTL_RETRAIN (portBase port) (n.hasPort port) fun n => n.hostRetrain port

/-- REKEY (R268). PORT_CTL REKEY starts a rekey at once. -/
def execRekey (t port : Nat) (s : State) : Host.Outcome State Fault Refusal :=
  s.at t fun n => n.windowWrite R.PORT_CTL_REKEY (portBase port) (n.hasPort port) fun n => n.rekeyPort port

/-- CR_CLEAR_CNT (R299). CR_CTL CLEAR_CNT clears every CR_ counter. -/
def execCrClearCnt (t sheet : Nat) (s : State) : Host.Outcome State Fault Refusal :=
  s.at t fun n => n.windowWrite R.CR_CTL_CLEAR_CNT (sheetBase sheet) (n.hasSheet sheet) fun n => n.crClear sheet

/-- POOL_CLEAR_CNT (R339). POOL_CTL CLEAR_CNT clears every POOL_ counter. -/
def execPoolClearCnt (t : Nat) (s : State) : Host.Outcome State Fault Refusal :=
  s.hostReg t R.POOL_CTL_CLEAR_CNT fun n => n.poolClear

/-- SVY_CLEAR_CNT (R449). SVY_CTL CLEAR_CNT clears every SVY_ counter. -/
def execSvyClearCnt (t : Nat) (s : State) : Host.Outcome State Fault Refusal :=
  s.hostReg t R.SVY_CTL_CLEAR_CNT fun n => n.svyClear

end Sys2Proof.Machine
end

