-- ==== Sys2Proof/Machine/ExecCores.lean ====
section
/-!
DEFINITION. Passes and the faults of cores, staging and hashing (R104, R116, R127, R134, R171, R413).
-/

namespace Sys2Proof.Machine

/-- PASS_START (R134). A core takes the next pass from its queue, loads query forms and starts tiles as they land. -/
def execPassStart (t core : Nat) (s : State) : Host.Outcome State Fault Refusal :=
  s.liveUnit t (s.node.hasCore core) fun n => n.passStart core

/-- PASS_COMPLETE (R104). A pass completes and hands its page or subtree partials to the lead sheet's merge unit. -/
def execPassComplete (t core : Nat) (upsets : List Upset) (s : State) : Host.Outcome State Fault Refusal :=
  s.liveUnit t (s.node.hasCore core) fun n => n.passComplete core upsets

/-- SPAD_ERROR (R116). A scratchpad SECDED error is corrected or, by area, poisons a page, fails a pass or cancels the
core's tick. -/
def execSpadError (t core offset _bit : Nat) (uncorrected : Bool) (s : State) : Host.Outcome State Fault Refusal :=
  s.liveUnit t (s.node.hasCore core) fun n => n.spadError core offset uncorrected

/-- STAGING_ERROR (R127). A SECDED error in staging, the collection store or the merge buffer is corrected or fails
the affected work. -/
def execStagingError (t sheet kind which : Nat) (uncorrected : Bool) (s : State) : Host.Outcome State Fault Refusal :=
  s.liveUnit t (s.node.hasSheet sheet) fun n => n.stagingError sheet kind which uncorrected

/-- SEAL_HASH_DONE (R171). The hash engine finishes CONTENT_HASH and the page's SEAL becomes 2. -/
def execSealHashDone (t seq slot : Nat) (s : State) : Host.Outcome State Fault Refusal :=
  s.live t fun n => n.sealHashed (leafKey seq slot)

/-- CORE_HANG (R413). A core without a completion report two ticks after a boundary is hung and may be reset at level
2. -/
def execCoreHang (t core : Nat) (s : State) : Host.Outcome State Fault Refusal :=
  s.liveUnit t (s.node.hasCore core) fun n => n.when ((n.core core).mode == .normal) fun n => n.hangCore core

/-- CORE_RESET_TIMEOUT (R413). A core not ready 10 µs after a level-2 reset stays HUNG and is fenced. -/
def execCoreResetTimeout (t core : Nat) (s : State) : Host.Outcome State Fault Refusal :=
  s.liveUnit t (s.node.hasCore core) fun n => n.coreResetTimeout core

end Sys2Proof.Machine
end

