-- ==== Sys2Proof/Machine/ExecCourier.lean ====
section
/-!
DEFINITION. The Courier: queue pairs, operations, packets, timers and keys (R271 to R298).
-/

namespace Sys2Proof.Machine

/-- QP_CREATE (R273). Command making a queue-pair context with its receive ring. -/
def execQpCreate (t box : Nat) (c : HostCmd) (s : State) : Host.Outcome State Fault Refusal := s.command t box (withOp 0x30 c)

/-- QP_CONNECT (R273). Command fixing a queue pair's peer and paths and making it READY. -/
def execQpConnect (t box : Nat) (c : HostCmd) (s : State) : Host.Outcome State Fault Refusal :=
  s.command t box (withOp 0x31 c)

/-- QP_RESET (R273). Command aborting a queue pair's operations and resetting it after PKT_LIFETIME. -/
def execQpReset (t box : Nat) (c : HostCmd) (s : State) : Host.Outcome State Fault Refusal := s.command t box (withOp 0x32 c)

/-- QP_DESTROY (R273). Command resetting and releasing a queue pair. -/
def execQpDestroy (t box : Nat) (c : HostCmd) (s : State) : Host.Outcome State Fault Refusal :=
  s.command t box (withOp 0x33 c)

/-- QP_LIFETIME_WAIT_END (R274). After PKT_LIFETIME a resetting queue pair clears its PSNs and counters and completes.
-/
def execQpLifetimeWaitEnd (t qpn : Nat) (s : State) : Host.Outcome State Fault Refusal :=
  s.live t fun n => n.qpLifetimeEnd qpn

/-- CR_WRITE (R275). Courier operation writing local bytes to a remote key's region. -/
def execCrWrite (t box : Nat) (c : HostCmd) (s : State) : Host.Outcome State Fault Refusal := s.command t box (withOp 0x34 c)

/-- CR_READ (R275). Courier operation reading a remote key's region. -/
def execCrRead (t box : Nat) (c : HostCmd) (s : State) : Host.Outcome State Fault Refusal := s.command t box (withOp 0x35 c)

/-- CR_SEND (R278). Courier operation sending a message into the peer's receive ring. -/
def execCrSend (t box : Nat) (c : HostCmd) (s : State) : Host.Outcome State Fault Refusal := s.command t box (withOp 0x36 c)

/-- CR_FETCH_ADD (R290). Courier atomic fetch-and-add on a remote 64-bit word. -/
def execCrFetchAdd (t box : Nat) (c : HostCmd) (s : State) : Host.Outcome State Fault Refusal :=
  s.command t box (withOp 0x37 c)

/-- CR_COMPARE_SWAP (R290). Courier atomic compare-and-swap on a remote 64-bit word. -/
def execCrCompareSwap (t box : Nat) (c : HostCmd) (s : State) : Host.Outcome State Fault Refusal :=
  s.command t box (withOp 0x38 c)

/-- CR_WAIT (R277). Courier operation holding later operations until a watched counter reaches a target. -/
def execCrWait (t box : Nat) (c : HostCmd) (s : State) : Host.Outcome State Fault Refusal := s.command t box (withOp 0x39 c)

/-- WAIT_TIMEOUT (R277). A WAIT whose TIMEOUT_US elapses completes with EXPIRED and the queue pair goes to ERROR. -/
def execWaitTimeout (t qpn : Nat) (s : State) : Host.Outcome State Fault Refusal := s.live t fun n => n.waitTimeout qpn

/-- WRITE (R281). A received WRITE packet is checked and placed by its own address. -/
def execWrite (t port : Nat) (p : Packet) (s : State) : Host.Outcome State Fault Refusal :=
  s.packet t port (ofType ptCourier opWrite p)

/-- READ_REQ (R281). A received READ_REQ is checked and answered with READ_RESP packets. -/
def execReadReq (t port : Nat) (p : Packet) (s : State) : Host.Outcome State Fault Refusal :=
  s.packet t port (ofType ptCourier opReadReq p)

/-- READ_RESP (R288). A received READ_RESP is placed at the requester's local address. -/
def execReadResp (t port : Nat) (p : Packet) (s : State) : Host.Outcome State Fault Refusal :=
  s.packet t port (ofType ptCourier opReadResp p)

/-- SEND (R278). A received SEND lands in a receive ring slot and RECV_CNT advances. -/
def execSend (t port : Nat) (p : Packet) (s : State) : Host.Outcome State Fault Refusal :=
  s.packet t port (ofType ptCourier opSend p)

/-- FETCH_ADD (R290). A received FETCH_ADD is performed once and answered with the old value. -/
def execFetchAdd (t port : Nat) (p : Packet) (s : State) : Host.Outcome State Fault Refusal :=
  s.packet t port (ofType ptCourier opFetchAdd p)

/-- COMPARE_SWAP (R290). A received COMPARE_SWAP is performed once and answered with the old value. -/
def execCompareSwap (t port : Nat) (p : Packet) (s : State) : Host.Outcome State Fault Refusal :=
  s.packet t port (ofType ptCourier opCompareSwap p)

/-- ATOMIC_RESP (R290). A received ATOMIC_RESP delivers an atomic's old value and completes it. -/
def execAtomicResp (t port : Nat) (p : Packet) (s : State) : Host.Outcome State Fault Refusal :=
  s.packet t port (ofType ptCourier opAtomicResp p)

/-- ACK (R288). A received ACK advances the send window, completes operations and ends congestion windows. -/
def execAck (t port : Nat) (p : Packet) (s : State) : Host.Outcome State Fault Refusal :=
  s.packet t port (ofType ptCourier opAck p)

/-- NAK (R289). A received NAK ends its operation or schedules an RNR resend. -/
def execNak (t port : Nat) (p : Packet) (s : State) : Host.Outcome State Fault Refusal :=
  s.packet t port (ofType ptCourier opNak p)

/-- CLOSE (R294). A received CLOSE moves the queue pair to ERROR and is answered with CLOSE_ACK. -/
def execClose (t port : Nat) (p : Packet) (s : State) : Host.Outcome State Fault Refusal :=
  s.packet t port (ofType ptCourier opClose p)

/-- CLOSE_ACK (R294). A received CLOSE_ACK completes the failing ORDERED operation with the last placed PSN. -/
def execCloseAck (t port : Nat) (p : Packet) (s : State) : Host.Outcome State Fault Refusal :=
  s.packet t port (ofType ptCourier opCloseAck p)

/-- ORDERED_CLOSE_SEND (R294). After PKT_LIFETIME plus guard an ORDERED queue pair in ERROR sends CLOSE. -/
def execOrderedCloseSend (t qpn : Nat) (s : State) : Host.Outcome State Fault Refusal := s.live t fun n => n.orderedClose qpn

/-- CLOSE_ACK_TIMEOUT (R294). Without CLOSE_ACK within 100 µs the operation completes with the last acknowledged PSN.
-/
def execCloseAckTimeout (t qpn : Nat) (s : State) : Host.Outcome State Fault Refusal := s.live t fun n => n.closeTimeout qpn

/-- ACK_DELAY_TIMEOUT (R288). 500 ns after the oldest unacknowledged placement the receiver sends an ACK. -/
def execAckDelayTimeout (t qpn : Nat) (s : State) : Host.Outcome State Fault Refusal := s.live t fun n => n.ackDelay qpn

/-- COURIER_RTO (R289). A packet unacknowledged for RTO_US is resent, or its operation fails at RETRY_LIMIT. -/
def execCourierRto (t qpn psn : Nat) (s : State) : Host.Outcome State Fault Refusal := s.live t fun n => n.courierRto qpn psn

/-- RNR_RETRY (R297). After RETRY_US a packet NAKed RNR_CONTEXT is resent. -/
def execRnrRetry (t qpn psn : Nat) (s : State) : Host.Outcome State Fault Refusal := s.live t fun n => n.rnrRetry qpn psn

/-- COURIER_PACE (R295). A queue pair's next paced packet leaves once b ÷ r has passed. -/
def execCourierPace (t qpn : Nat) (s : State) : Host.Outcome State Fault Refusal := s.live t fun n => n.crAdvance qpn

/-- PATH_RESUME (R287). A suspended path is used again after 1 ms. -/
def execPathResume (t qpn path : Nat) (s : State) : Host.Outcome State Fault Refusal :=
  s.live t fun n => n.pathResume qpn path

/-- CONTEXT_FETCHED (R296). A context fetch completes and packets held in poste restante proceed to their checks. -/
def execContextFetched (t qpn : Nat) (s : State) : Host.Outcome State Fault Refusal := s.live t fun n => n.contextFetched qpn

/-- CONTEXT_UE (R296). An uncorrected error in a backing context moves its queue pair to ERROR. -/
def execContextUe (t qpn : Nat) (s : State) : Host.Outcome State Fault Refusal := s.live t fun n => n.contextLost qpn

/-- NODE_QP_IDLE (R298). A node-owned queue pair unused for 1 s is destroyed. -/
def execNodeQpIdle (t qpn : Nat) (s : State) : Host.Outcome State Fault Refusal := s.live t fun n => n.nodeQpIdle qpn

/-- KEY_REGISTER (R280). Command registering a memory key at a boundary. -/
def execKeyRegister (t box : Nat) (c : HostCmd) (s : State) : Host.Outcome State Fault Refusal :=
  s.command t box (withOp 0x20 c)

/-- KEY_REVOKE (R284). Command revoking a memory key at a boundary and completing once passed placements finish. -/
def execKeyRevoke (t box : Nat) (c : HostCmd) (s : State) : Host.Outcome State Fault Refusal :=
  s.command t box (withOp 0x21 c)

/-- CR_QP_FREED_WRITE (R278). Write of the consumed-message count that frees receive ring slots. -/
def execCrQpFreedWrite (t qpn value : Nat) (s : State) : Host.Outcome State Fault Refusal :=
  s.at t fun n => n.windowWrite R.CR_QP_FREED_FREED (sheetBase (n.qpSheet qpn)) true fun n => n.qpFreed qpn value

end Sys2Proof.Machine
end

