-- ==== Sys2Proof/Machine/ExecDebug.lean ====
section
/-!
DEFINITION. The test access port, the debug bus, halts and holds (R396 to R407).
-/

namespace Sys2Proof.Machine

/-- EXTEST (R397). TAP instruction selecting the boundary register for external test. -/
def execExtest (t : Nat) (s : State) : Host.Outcome State Fault Refusal := s.at t fun n => n.extest

/-- SAMPLE_PRELOAD (R397). TAP instruction sampling or preloading the boundary register. -/
def execSamplePreload (t : Nat) (s : State) : Host.Outcome State Fault Refusal := s.at t fun n => n.samplePreload

/-- IDCODE (R398). TAP instruction selecting the identification register. -/
def execIdcode (t : Nat) (s : State) : Host.Outcome State Fault Refusal := s.at t fun n => n.idcode

/-- CLAMP (R397). TAP instruction holding outputs and selecting bypass. -/
def execClamp (t : Nat) (s : State) : Host.Outcome State Fault Refusal := s.at t fun n => n.clamp

/-- HIGHZ (R397). TAP instruction floating outputs and selecting bypass. -/
def execHighz (t : Nat) (s : State) : Host.Outcome State Fault Refusal := s.at t fun n => n.highz

/-- DBG_ACCESS (R400). TAP instruction selecting the debug-bus register. -/
def execDbgAccess (t : Nat) (s : State) : Host.Outcome State Fault Refusal := s.at t fun n => n.dbgAccess

/-- BYPASS (R397). TAP instruction selecting the bypass register. -/
def execBypass (t : Nat) (s : State) : Host.Outcome State Fault Refusal := s.at t fun n => n.bypass

/-- DBG_READ (R401). Debug-bus READ of one word in a space, loading the address counter. -/
def execDbgRead (t space addr : Nat) (s : State) : Host.Outcome State Fault Refusal := s.at t fun n => n.dbRead space addr

/-- DBG_WRITE (R401). Debug-bus WRITE of one word in a space, loading the address counter. -/
def execDbgWrite (t space addr data : Nat) (s : State) : Host.Outcome State Fault Refusal :=
  s.at t fun n => n.dbWrite space addr data

/-- READ_INC (R400). Debug-bus read at the address counter, which then advances by 8. -/
def execReadInc (t space : Nat) (s : State) : Host.Outcome State Fault Refusal := s.at t fun n => n.dbReadInc space

/-- WRITE_INC (R400). Debug-bus write at the address counter, which then advances by 8. -/
def execWriteInc (t space data : Nat) (s : State) : Host.Outcome State Fault Refusal :=
  s.at t fun n => n.dbWriteInc space data

/-- HALT (R403). DBG_CMD HALT halts the scope at the next boundary. -/
def execHalt (t : Nat) (s : State) : Host.Outcome State Fault Refusal := s.at t fun n => n.dbWrite 0 0x10 1

/-- RESUME (R403). DBG_CMD RESUME ends the halt at the next boundary. -/
def execResume (t : Nat) (s : State) : Host.Outcome State Fault Refusal := s.at t fun n => n.dbWrite 0 0x10 2

/-- STEP (R403). DBG_CMD STEP runs exactly one tick of admitted work and halts again. -/
def execStepTick (t : Nat) (s : State) : Host.Outcome State Fault Refusal := s.at t fun n => n.dbWrite 0 0x10 3

/-- HOLD (R406). A received HOLD frame is checked and scheduled for B(TICK), or counted as ignored. -/
def execHold (t port : Nat) (p : Packet) (s : State) : Host.Outcome State Fault Refusal := s.packet t port (ofType ptHold 1 p)

/-- RELEASE (R406). A received RELEASE frame schedules the end of a halt at B(TICK). -/
def execRelease (t port : Nat) (p : Packet) (s : State) : Host.Outcome State Fault Refusal :=
  s.packet t port (ofType ptHold 2 p)

/-- HOLD_STEP (R406). A received STEP hold frame schedules a one-tick step at B(TICK). -/
def execHoldStep (t port : Nat) (p : Packet) (s : State) : Host.Outcome State Fault Refusal :=
  s.packet t port (ofType ptHold 3 p)

/-- HOLD_TICK (R406). At B(TICK) a scheduled hold, release or step is applied to the scope. -/
def execHoldTick (t : Nat) (s : State) : Host.Outcome State Fault Refusal := s.live t fun n => n.holdTick

/-- BREAKPOINT_TIME (R407). A TIME breakpoint halts the scope at the first boundary at or after its MER_NS. -/
def execBreakpointTime (t : Nat) (s : State) : Host.Outcome State Fault Refusal := s.live t fun n => n.breakpointTime

end Sys2Proof.Machine
end

