-- ==== Sys2Proof/Machine/ExecFabric.lean ====
section
/-!
DEFINITION. Ports: frames, links, lanes, locks and keys (R245 to R270).
-/

namespace Sys2Proof.Machine

/-- FRAME_RECEIVED (R260). A received DATA frame is authenticated, decrypted, deadline-checked and delivered or queued
for forwarding. -/
def execFrameReceived (t port : Nat) (f : RxFrame) (s : State) : Host.Outcome State Fault Refusal :=
  s.liveUnit t (s.node.hasPort port) fun n => (let r := n.rxFrame port (ofLtype 1 f); r.2.deliverAll r.1)

/-- EGRESS_FRAME_SEND (R257). At each frame boundary the egress chooses its next frame by class, credits and deadline,
and franks it. -/
def execEgressFrameSend (t port : Nat) (s : State) : Host.Outcome State Fault Refusal :=
  s.liveUnit t (s.node.hasPort port) fun n => n.egressSend port

/-- LINK_FRAME_SEND (R255). A LINK frame with ACK and credits is sent on change and at least every 1 µs. -/
def execLinkFrameSend (t port : Nat) (s : State) : Host.Outcome State Fault Refusal :=
  s.liveUnit t (s.node.hasPort port) fun n => n.linkSend port

/-- LINK_FRAME (R255). A received LINK frame acknowledges frames, returns credits or triggers a resend on NAK. -/
def execLinkFrame (t port : Nat) (f : RxFrame) (s : State) : Host.Outcome State Fault Refusal :=
  s.liveUnit t (s.node.hasPort port) fun n => (n.rxFrame port (ofLtype 2 f)).2

/-- RETRY_TIMEOUT (R254). No acknowledgement within RETRY_TIMEOUT makes the port resend from the first unacknowledged
frame. -/
def execRetryTimeout (t port : Nat) (s : State) : Host.Outcome State Fault Refusal :=
  s.liveUnit t (s.node.hasPort port) fun n => n.retryTimeout port

/-- LINK_IDLE_TIMEOUT (R255). A port receiving no valid frame for 100 µs retrains. -/
def execLinkIdleTimeout (t port : Nat) (s : State) : Host.Outcome State Fault Refusal :=
  s.liveUnit t (s.node.hasPort port) fun n => n.linkIdle port

/-- LANE_FAULT (R246). A lane losing lock or exceeding its error limits makes the port retrain at a narrower width. -/
def execLaneFault (t port : Nat) (e : LaneErr) (s : State) : Host.Outcome State Fault Refusal :=
  s.liveUnit t (s.node.hasPort port) fun n => n.laneFault port e

/-- PORT_TRAINED (R246). A port completes training or retraining at an agreed width, or becomes FAILED after three
failures at width 1. -/
def execPortTrained (t port mask peerMask : Nat) (ok : Bool) (s : State) : Host.Outcome State Fault Refusal :=
  s.liveUnit t (s.node.hasPort port) fun n => n.portTrained port mask peerMask ok

/-- LOCK_GAP_TIMEOUT (R248). A lock sequence gap open for 2 µs is skipped and counted. -/
def execLockGapTimeout (t lock : Nat) (s : State) : Host.Outcome State Fault Refusal :=
  s.live t fun n => (let r := n.lockGap lock; r.2.deliverAll r.1)

/-- HELLO (R267). A received HELLO in a KEYX frame starts or restarts key establishment on the port. -/
def execHello (t port peer : Nat) (m : HelloMsg) (s : State) : Host.Outcome State Fault Refusal :=
  s.liveUnit t (s.node.hasPort port) fun n => n.helloIn port peer m

/-- FINISH (R267). A received FINISH signature is verified and the direction keys are derived. -/
def execFinish (t port peer : Nat) (m : FinishMsg) (s : State) : Host.Outcome State Fault Refusal :=
  s.liveUnit t (s.node.hasPort port) fun n => n.finishIn port peer m

/-- KEY_EXCHANGE_TIMEOUT (R267). A key exchange not finished within 20 ms fails, writes a FAULT record and is retried
every 1 s. -/
def execKeyExchangeTimeout (t port peer : Nat) (s : State) : Host.Outcome State Fault Refusal :=
  s.liveUnit t (s.node.hasPort port) fun n => n.keyTimeout port peer

/-- KEY_EXCHANGE_RETRY (R267). One second after a failed key exchange the port sends a new HELLO and tries again. -/
def execKeyExchangeRetry (t port peer : Nat) (s : State) : Host.Outcome State Fault Refusal :=
  s.liveUnit t (s.node.hasPort port) fun n => n.keyRetry port peer

/-- REKEY_TRIGGER (R268). A transmit FCTR of 2^47 or a 9-minute-old key starts a rekey. -/
def execRekeyTrigger (t port peer : Nat) (s : State) : Host.Outcome State Fault Refusal :=
  s.liveUnit t (s.node.hasPort port) fun n => n.rekeyTrigger port peer

/-- KEY_AGE_LIMIT (R268). A port reaching the FCTR or 10-minute key limit without a new key goes to KEYING. -/
def execKeyAgeLimit (t port peer : Nat) (s : State) : Host.Outcome State Fault Refusal :=
  s.liveUnit t (s.node.hasPort port) fun n => n.keyLimitReached port peer

/-- OLD_KEY_ERASE (R268). 100 µs after the first frame of a new epoch the old key is erased. -/
def execOldKeyErase (t port peer : Nat) (s : State) : Host.Outcome State Fault Refusal :=
  s.liveUnit t (s.node.hasPort port) fun n => n.oldKeyErase port peer

/-- NEIGHBOR_SOLICITATION (R258). A switched port answers a Neighbor Solicitation for its own address. -/
def execNeighborSolicitation (t port : Nat) (target source : Bytes) (s : State) : Host.Outcome State Fault Refusal :=
  s.liveUnit t (s.node.hasPort port) fun n => n.solicited port target source

/-- DEAD_LETTER (R316). A received dead-letter notice is written to the host's notice ring. -/
def execDeadLetter (t port : Nat) (p : Packet) (s : State) : Host.Outcome State Fault Refusal :=
  s.packet t port (ofPtype ptDeadLetter p)

end Sys2Proof.Machine
end

