-- ==== Sys2Proof/Machine/ExecGazetteer.lean ====
section
/-!
DEFINITION. The Gazetteer slices: the rule engine and entry errors (R238, R243, R244).
-/

namespace Sys2Proof.Machine

/-- GZ_RULE_INSERT (R238). GZ_RULE_CMD GO with OP INSERT moves rules towards a free index and writes the new rule. -/
def execGzRuleInsert (t sheet : Nat) (s : State) : Host.Outcome State Fault Refusal :=
  s.at t fun n => n.windowWrite R.GZ_RULE_CMD_GO (sheetBase sheet) (n.hasSheet sheet) fun n => n.ruleGo sheet 1

/-- GZ_RULE_REMOVE (R238). GZ_RULE_CMD GO with OP REMOVE clears the lowest matching rule. -/
def execGzRuleRemove (t sheet : Nat) (s : State) : Host.Outcome State Fault Refusal :=
  s.at t fun n => n.windowWrite R.GZ_RULE_CMD_GO (sheetBase sheet) (n.hasSheet sheet) fun n => n.ruleGo sheet 2

/-- GZ_RESPREAD (R238). With the update queue empty the node moves rules until every stride holds a free index. -/
def execGzRespread (t sheet : Nat) (s : State) : Host.Outcome State Fault Refusal :=
  s.liveUnit t (s.node.hasSheet sheet) fun n => n.respread sheet false

/-- RESPREAD_NOW (R244). GZ_CTL write that starts a respread even while updates are queued. -/
def execRespreadNow (t sheet : Nat) (s : State) : Host.Outcome State Fault Refusal :=
  s.at t fun n => n.windowWrite R.GZ_CTL_RESPREAD_NOW (sheetBase sheet) (n.hasSheet sheet) fun n => n.respread sheet true

/-- GZ_ENTRY_ERROR (R243). A parity or SECDED error in a Gazetteer entry is corrected, invalidated or rewritten from
HBM. -/
def execGzEntryError (t sheet part index : Nat) (uncorrected : Bool) (s : State) : Host.Outcome State Fault Refusal :=
  s.liveUnit t (s.node.hasSheet sheet) fun n => n.gzEntryError sheet part index uncorrected

end Sys2Proof.Machine
end

