-- ==== Sys2Proof/Machine/ExecHbm.lean ====
section
/-!
DEFINITION. The HBM controllers: training, errors, patrol, refresh management, temperature (R214 to R220, R388).
-/

namespace Sys2Proof.Machine

/-- HBM_TRAIN_FAIL (R214). A channel failing training takes its quad OFFLINE at the next boundary. -/
def execHbmTrainFail (t quad channel : Nat) (s : State) : Host.Outcome State Fault Refusal :=
  s.liveUnit t (s.node.hasQuad quad) fun n => n.hbmTrainFail quad (channel % 16)

/-- HBM_RECENTRE (R214). Once per second each channel's timing is re-centred during refresh windows. -/
def execHbmRecentre (t quad channel : Nat) (margins : List Nat) (s : State) : Host.Outcome State Fault Refusal :=
  s.liveUnit t (s.node.hasQuad quad) fun n => n.recordMargins quad (channel % 16) margins

/-- HBM_CORRECTED (R217). A single-symbol error is corrected, the burst rewritten and the granule's count checked for
retirement. -/
def execHbmCorrected (t burst : Nat) (e : SymErr) (s : State) : Host.Outcome State Fault Refusal :=
  s.liveUnit t (s.node.hasQuad (addrQuad (burst * 32))) fun n => n.burstRead burst ⟨burst, [e]⟩ none

/-- HBM_UNCORRECTED (R217). An uncorrected burst or tag mismatch is poisoned and its granule retired. -/
def execHbmUncorrected (t burst : Nat) (read : BurstRead) (what record : Nat) (s : State) :
    Host.Outcome State Fault Refusal :=
  s.liveUnit t (s.node.hasQuad (addrQuad (burst * 32))) fun n =>
    n.burstRead burst read (if what = 2 then some record else none)

/-- PATROL_START (R217). A patrol read of every allocatable granule starts once per PATROL_HOURS. -/
def execPatrolStart (t quad : Nat) (s : State) : Host.Outcome State Fault Refusal :=
  s.liveUnit t (s.node.hasQuad quad) fun n => n.patrolTimer quad

/-- HBM_REFRESH (R218). Per-bank refresh is issued at the JESD238A rate, doubled at 85 °C. -/
def execHbmRefresh (t quad _channel _bank : Nat) (s : State) : Host.Outcome State Fault Refusal :=
  s.liveUnit t (s.node.hasQuad quad) fun n => n

/-- HBM_RFM (R218). An activation count reaching the stack's threshold issues an RFM command. -/
def execHbmRfm (t quad _channel _bank : Nat) (s : State) : Host.Outcome State Fault Refusal :=
  s.liveUnit t (s.node.hasQuad quad) fun n => n.rfm quad

/-- THERMAL_SAMPLE (R219). Every 1 ms stack and die temperatures are read and the thermal rules applied. -/
def execThermalSample (t : Nat) (die stack : List Nat) (hub : Nat) (s : State) : Host.Outcome State Fault Refusal :=
  s.live t fun n => n.thermalSample die stack hub

/-- STACK_SELF_REFRESH_IDLE (R388). A parked stack goes back into self-refresh after 10 µs without access. -/
def execStackSelfRefreshIdle (t quad : Nat) (s : State) : Host.Outcome State Fault Refusal :=
  s.liveUnit t (s.node.hasQuad quad) fun n => n.stackIdle quad

end Sys2Proof.Machine
end

