-- ==== Sys2Proof/Machine/ExecHost.lean ====
section
/-!
DEFINITION. The host port: its link, HDM accesses, the control window and the post boxes (R300 to R328, R56).
-/

namespace Sys2Proof.Machine

/-- UCIE_LINK_UP (R300). The UCIe link comes up with at least one active module. -/
def execUcieLinkUp (t modules rate : Nat) (s : State) : Host.Outcome State Fault Refusal :=
  s.live t fun n => n.linkUp modules rate

/-- UCIE_MODULE_DOWN (R300). A module failing training is left out, or a lane is repaired or degraded. -/
def execUcieModuleDown (t ucie kind : Nat) (s : State) : Host.Outcome State Fault Refusal :=
  s.live t fun n => n.moduleEvent (ucie % 4) kind

/-- UCIE_LINK_DOWN (R300). No active module for 1 ms takes the link down and may declare the host failed. -/
def execUcieLinkDown (t : Nat) (s : State) : Host.Outcome State Fault Refusal := s.live t fun n => n.linkDown

/-- IDE_FAILURE (R376). An IDE integrity failure takes the host link down. -/
def execIdeFailure (t : Nat) (s : State) : Host.Outcome State Fault Refusal :=
  s.live t fun n => n.when n.host.ide Node.linkDown

/-- HDM_READ (R302). A host CXL.mem read returns the line, or poison for holes and poisoned lines. -/
def execHdmRead (t addr : Nat) (exclusive : Bool) (s : State) : Host.Outcome State Fault Refusal :=
  s.fromHost t fun n => n.hdmRead addr exclusive

/-- HDM_WRITE (R302). A host CXL.mem write is made to HOST granules or an unsealed bias area, or dropped. -/
def execHdmWrite (t addr mask : Nat) (data : Bytes) (poison : Bool) (held : Nat)
    (s : State) : Host.Outcome State Fault Refusal :=
  s.fromHost t fun n => n.hdmWrite addr mask data poison held

/-- BISNP_RESPONSE (R320). The host's answer to a back-invalidate snoop releases the waiting node access. -/
def execBisnpResponse (t line : Nat) (data : Option Bytes) (keeps : Bool) (s : State) : Host.Outcome State Fault Refusal :=
  s.fromHost t fun n => n.bisnpResponse line data keeps

/-- RECALL_TIMEOUT (R321). A snoop unanswered within DIR_RECALL_TIMEOUT poisons an EM line or drops a Shared one. -/
def execRecallTimeout (t line : Nat) (s : State) : Host.Outcome State Fault Refusal := s.live t fun n => n.recallTimeout line

/-- REGISTER_WRITE (R304). A control-window write to a register without its own row sets its fields or is ignored. -/
def execRegisterWrite (t addr width value : Nat) (s : State) : Host.Outcome State Fault Refusal :=
  s.at t fun n => n.registerWrite addr width value

/-- LOW_HALF_READ (R56). A 32-bit read of the low half of TICK_NOW or MER_NOW latches the high half, and for MER_NOW
also MER_NOW_FRAC, until the next low-half read. -/
def execLowHalfRead (t addr : Nat) (s : State) : Host.Outcome State Fault Refusal := s.at t fun n => n.read32 addr

/-- DOORBELL (R307). A PB_TAIL write records TAIL, starts fetching or moves the post box to ERROR. -/
def execDoorbell (t box tail : Nat) (slots : List HostCmd) (s : State) : Host.Outcome State Fault Refusal :=
  s.hostBox t box R.PB_TAIL_TAIL fun n => n.doorbell box tail (slots.map fun c => ⟨padTo 64 c.bytes, c.data⟩)

/-- CPL_FREE_WRITE (R307). A PB_CPL_FREE write releases completion slots within the bound. -/
def execCplFreeWrite (t box value : Nat) (s : State) : Host.Outcome State Fault Refusal :=
  s.hostBox t box R.PB_CPL_FREE_CPL_FREE fun n => n.cplFree box value

/-- RR_FREE_WRITE (R316). A write of RR_FREE releases reply ring slots within the bound. -/
def execRrFreeWrite (t box value : Nat) (s : State) : Host.Outcome State Fault Refusal :=
  s.hostBox t box R.PB_RR_IDX_RR_FREE fun n => n.rrFree box value

/-- PB_ENABLE (R317). PB_CTL ENABLE checks the configuration and enables the post box. -/
def execPbEnable (t box : Nat) (s : State) : Host.Outcome State Fault Refusal :=
  s.hostBox t box R.PB_CTL_ENABLE fun n => n.boxEnable box

/-- PB_DISABLE (R317). PB_CTL DISABLE stops fetching and drains the post box. -/
def execPbDisable (t box : Nat) (s : State) : Host.Outcome State Fault Refusal :=
  s.hostBox t box R.PB_CTL_DISABLE fun n => n.boxDisable box

/-- PB_RESET (R317). PB_CTL RESET aborts unapplied commands and clears the post box's indices. -/
def execPbReset (t box : Nat) (s : State) : Host.Outcome State Fault Refusal :=
  s.hostBox t box R.PB_CTL_RESET fun n => n.boxReset box

/-- NOP (R313). Command that completes with DONE. -/
def execNop (t box : Nat) (c : HostCmd) (s : State) : Host.Outcome State Fault Refusal := s.command t box (withOp 0x00 c)

/-- HOST_APPEND (R315). Command sending an APPEND letter from the host. -/
def execHostAppend (t box : Nat) (c : HostCmd) (s : State) : Host.Outcome State Fault Refusal :=
  s.command t box (withOp 0x14 c)

/-- HOST_ATTEND (R315). Command sending an ATTEND letter from the host. -/
def execHostAttend (t box : Nat) (c : HostCmd) (s : State) : Host.Outcome State Fault Refusal :=
  s.command t box (withOp 0x15 c)

/-- IRQ_HOLDOFF_END (R318). At the end of the interrupt hold-off a pending event raises one interrupt. -/
def execIrqHoldoffEnd (t box : Nat) (s : State) : Host.Outcome State Fault Refusal :=
  s.liveUnit t (hasBox box) fun n => n.irqHoldoffEnd box

/-- HP_HEARTBEAT (R322). A write of HP_HEARTBEAT counts as a heartbeat and may start monitoring. -/
def execHpHeartbeat (t _value : Nat) (s : State) : Host.Outcome State Fault Refusal :=
  s.hostReg t R.HP_HEARTBEAT_BEAT fun n => n.heartbeat

/-- HEARTBEAT_CHECK (R322). At the end of each heartbeat period the node checks for a write and may declare the host
failed. -/
def execHeartbeatCheck (t : Nat) (s : State) : Host.Outcome State Fault Refusal := s.live t fun n => n.heartbeatCheck

/-- ADOPT (R324). HP_CTL ADOPT ends ORPHAN, disables every post box and restarts monitoring. -/
def execAdopt (t : Nat) (s : State) : Host.Outcome State Fault Refusal := s.hostReg t R.HP_CTL_ADOPT fun n => n.adopt

/-- T3_WINDOW_ENABLE (R194). A write of HP_T3_SIZE.EN gives the T3 window or, when cleared, withdraws it. -/
def execT3WindowEnable (t value : Nat) (s : State) : Host.Outcome State Fault Refusal :=
  s.hostReg t R.HP_T3_SIZE_EN fun n => n.t3WindowWrite value

end Sys2Proof.Machine
end

