-- ==== Sys2Proof/Machine/ExecLetters.lean ====
section
/-!
DEFINITION. Letters, replies and partials as they arrive; shares, route walks, cut-offs and
staging (R52 to R88, R120 to R127).
-/

namespace Sys2Proof.Machine

/-- ATTEND (R63). A received ATTEND letter is checked, translated, split into shares and collected, or anchored. -/
def execAttend (t port : Nat) (p : Packet) (s : State) : Host.Outcome State Fault Refusal :=
  s.packet t port (ofType ptLetter 1 p)

/-- APPEND (R67). A received APPEND letter is checked and collected for application at the next boundary. -/
def execAppend (t port : Nat) (p : Packet) (s : State) : Host.Outcome State Fault Refusal :=
  s.packet t port (ofType ptLetter 2 p)

/-- ATTEND_FWD (R80). A received anchor copy is checked and collected like an unanchored letter. -/
def execAttendFwd (t port : Nat) (p : Packet) (s : State) : Host.Outcome State Fault Refusal :=
  s.packet t port (ofType ptLetter 3 p)

/-- LETTER_SHARE (R122). A share sent from the lead sheet is collected by its own sorting office. -/
def execLetterShare (t ctx sheet : Nat) (s : State) : Host.Outcome State Fault Refusal :=
  s.liveUnit t (s.node.hasSheet sheet) fun n => n.shareArrives ctx sheet

/-- ROUTE_CACHE_WALK (R178). A route cache miss completes its table walk and the waiting translation proceeds. -/
def execRouteCacheWalk (t sheet seq : Nat) (walk : SlotWalk) (s : State) : Host.Outcome State Fault Refusal :=
  s.liveUnit t (s.node.hasSheet sheet) fun n => n.routeWalk sheet seq walk.slot walk.parity

/-- PARTIAL (R81). A received PARTIAL frame is merged into its anchor or ticket context, or discarded on a tombstone.
-/
def execPartialFrame (t port : Nat) (p : Packet) (s : State) : Host.Outcome State Fault Refusal :=
  s.packet t port (ofType ptReply 0x11 p)

/-- REPLY (R316). A REPLY frame for this node is written to the reply ring of its mailbox or discarded. -/
def execReplyFrame (t port : Nat) (p : Packet) (s : State) : Host.Outcome State Fault Refusal :=
  s.packet t port (ofType ptReply 0x10 p)

/-- MERGE_CUTOFF (R81). At DEADLINE − RETURN_NS uncovered ordinals receive LATE records and the merging node replies.
-/
def execMergeCutoff (t : Nat) (s : State) : Host.Outcome State Fault Refusal := s.live t fun n => n.mergeCutoffs

/-- TOMBSTONE_EXPIRY (R84). A context tombstone is removed at its letter's DEADLINE. -/
def execTombstoneExpiry (t : Nat) (s : State) : Host.Outcome State Fault Refusal := s.live t fun n => n.expireTombs

/-- REFUSAL_ENTRY_EXPIRY (R85). A refusal-table entry is removed at its DEADLINE. -/
def execRefusalEntryExpiry (t : Nat) (s : State) : Host.Outcome State Fault Refusal := s.live t fun n => n.expireRefusals

/-- RUN_AHEAD_FETCH (R125). A page waiting in the fetch queue starts its run-ahead fetch once staging credits are
freed. -/
def execRunAheadFetch (t sheet : Nat) (s : State) : Host.Outcome State Fault Refusal :=
  s.liveUnit t (s.node.hasSheet sheet) fun n => n.pumpStaging sheet

/-- PAGE_STAGED (R125). A page's granules land in staging and the page becomes admissible. -/
def execPageStaged (t sheet : Nat) (part : StagedPart) (s : State) : Host.Outcome State Fault Refusal :=
  s.liveUnit t (s.node.hasSheet sheet) fun n => n.pageStaged sheet part.key part.granules

/-- STAGE_FROM_LOWER_TIER (R196). A SWAPPED page read from T2 or T3 has its CONTENT_HASH checked before it counts as
staged. -/
def execStageFromLowerTier (t sheet key : Nat) (data : Bytes) (bad : Bool) (s : State) : Host.Outcome State Fault Refusal :=
  s.liveUnit t (s.node.hasSheet sheet) fun n => n.stagedLower sheet key data bad

end Sys2Proof.Machine
end

