-- ==== Sys2Proof/Machine/ExecMigration.lean ====
section
/-!
DEFINITION. Moves between nodes, quads and tiers (R194 to R212).
-/

namespace Sys2Proof.Machine

/-- OFFER (R205). A received OFFER is checked and the destination allocates a frame at its next boundary. -/
def execOffer (t port : Nat) (p : Packet) (s : State) : Host.Outcome State Fault Refusal := s.packet t port (ofMessage 0x40 p)

/-- ACCEPT (R205). A received ACCEPT lets the source start writing tiles under the write key. -/
def execAccept (t port : Nat) (p : Packet) (s : State) : Host.Outcome State Fault Refusal :=
  s.packet t port (ofMessage 0x41 p)

/-- MIGRATION_TILE (R203). The migration engine reads or writes page tiles in HBM slots left spare by admission. -/
def execMigrationTile (t move : Nat) (data : Bytes) (s : State) : Host.Outcome State Fault Refusal :=
  s.live t fun n => n.moveTile move data

/-- MOVE_HASH_VERIFIED (R205). The destination finishes recomputing CONTENT_HASH and sends VERIFIED or REJECT. -/
def execMoveHashVerified (t move : Nat) (s : State) : Host.Outcome State Fault Refusal :=
  s.live t fun n => n.hashVerified move

/-- VERIFIED (R206). A received VERIFIED makes the source name the switch tick and send COMMIT. -/
def execVerified (t port : Nat) (p : Packet) (s : State) : Host.Outcome State Fault Refusal :=
  s.packet t port (ofMessage 0x42 p)

/-- COMMIT (R205). A received COMMIT is answered COMMITTED or REJECT with LATE. -/
def execCommit (t port : Nat) (p : Packet) (s : State) : Host.Outcome State Fault Refusal :=
  s.packet t port (ofMessage 0x43 p)

/-- COMMITTED (R206). A received COMMITTED lets the source switch at B(S) if it arrived before B(S − 1). -/
def execCommitted (t port : Nat) (p : Packet) (s : State) : Host.Outcome State Fault Refusal :=
  s.packet t port (ofMessage 0x44 p)

/-- CANCEL (R206). A received CANCEL makes the destination redirect to the source and free its frame. -/
def execCancel (t port : Nat) (p : Packet) (s : State) : Host.Outcome State Fault Refusal :=
  s.packet t port (ofMessage 0x45 p)

/-- REJECT (R205). A received REJECT ends the move with its status or triggers one resend of the tiles. -/
def execReject (t port : Nat) (p : Packet) (s : State) : Host.Outcome State Fault Refusal :=
  s.packet t port (ofMessage 0x46 p)

/-- MOVE_SWITCH (R206). At B(S) the source becomes a REDIRECT and the destination's leaf becomes SEALED. -/
def execMoveSwitch (t move : Nat) (s : State) : Host.Outcome State Fault Refusal := s.live t fun n => n.switchMove move

/-- MIG_TIMEOUT (R208). A peer that does not answer within MIG_TIMEOUT ends the move with INTERNAL. -/
def execMigTimeout (t move : Nat) (s : State) : Host.Outcome State Fault Refusal := s.live t fun n => n.migTimedOut move

/-- SWAP_OUT_COMPLETE (R211). After the last write of a swap-out the leaf becomes SWAPPED and the T1 frame is freed.
-/
def execSwapOutComplete (t move : Nat) (s : State) : Host.Outcome State Fault Refusal := s.live t fun n => n.swapComplete move

/-- SWAP_IN_COMPLETE (R202). A swap-in's tiles are copied back and verified, and at its switch the page is SEALED in
T1. -/
def execSwapInComplete (t move : Nat) (s : State) : Host.Outcome State Fault Refusal := s.live t fun n => n.swapComplete move

/-- HEAT_DECAY (R197). Every 2^HEAT_DECAY_LOG2 ticks every heat COUNT is halved. -/
def execHeatDecay (t : Nat) (s : State) : Host.Outcome State Fault Refusal := s.live t fun n => n.heatDecay

/-- T0_IDLE_DROP (R139). Copies of a page without admitted rows for 2^PROMOTE_IDLE_LOG2 ticks are dropped. -/
def execT0IdleDrop (t : Nat) (s : State) : Host.Outcome State Fault Refusal := s.live t fun n => n.idleT0

end Sys2Proof.Machine
end

