-- ==== Sys2Proof/Machine/ExecNme.lean ====
section
/-!
DEFINITION. The near-memory engines (R221 to R228).
-/

namespace Sys2Proof.Machine

/-- NME_FILL (R223). Command filling an HBM range with a 64-bit pattern. -/
def execNmeFill (t box : Nat) (c : HostCmd) (s : State) : Host.Outcome State Fault Refusal := s.command t box (withOp 0x40 c)

/-- NME_COPY (R223). Command copying an HBM range locally or to and from a remote node. -/
def execNmeCopy (t box : Nat) (c : HostCmd) (s : State) : Host.Outcome State Fault Refusal := s.command t box (withOp 0x41 c)

/-- NME_COMPARE (R223). Command comparing two HBM ranges byte by byte. -/
def execNmeCompare (t box : Nat) (c : HostCmd) (s : State) : Host.Outcome State Fault Refusal :=
  s.command t box (withOp 0x42 c)

/-- NME_REDUCE (R223). Command reducing vectors by SUM, MAX or MIN. -/
def execNmeReduce (t box : Nat) (c : HostCmd) (s : State) : Host.Outcome State Fault Refusal :=
  s.command t box (withOp 0x43 c)

/-- NME_OP_START (R221). The engine takes a queued operation when one of its four places frees. -/
def execNmeOpStart (t quad : Nat) (s : State) : Host.Outcome State Fault Refusal :=
  s.liveUnit t (s.node.hasQuad quad) fun n => n.nmeStart quad

/-- NME_OP_COMPLETE (R224). An engine operation finishes or stops on a fault and writes its completion. -/
def execNmeOpComplete (t op : Nat) (s : State) : Host.Outcome State Fault Refusal :=
  s.live t fun n => (n.nmeOpEnds op).finishReturn

/-- CORE_PATH_SCRUB_DONE (R225). On a part without the engine, the zero fill over the core write path completes and
the quad or extent moves on, to UNASSIGNED or FREE for example. -/
def execCorePathScrubDone (t op : Nat) (s : State) : Host.Outcome State Fault Refusal :=
  s.live t fun n => (n.corePathScrubDone op).finishReturn

end Sys2Proof.Machine
end

