-- ==== Sys2Proof/Machine/ExecPages.lean ====
section
/-!
DEFINITION. The commands on sequences and pages (R172 to R187, R198, R204, R234).
-/

namespace Sys2Proof.Machine

/-- SEQ_OPEN (R172). Command opening a sequence with its descriptor and placement list. -/
def execSeqOpen (t box : Nat) (c : HostCmd) (s : State) : Host.Outcome State Fault Refusal := s.command t box (withOp 0x10 c)

/-- SEQ_CLOSE (R179). Command closing a sequence and releasing its pages. -/
def execSeqClose (t box : Nat) (c : HostCmd) (s : State) : Host.Outcome State Fault Refusal := s.command t box (withOp 0x11 c)

/-- PAGE_ALLOC (R180). Command allocating frames for a range of page slots. -/
def execPageAlloc (t box : Nat) (c : HostCmd) (s : State) : Host.Outcome State Fault Refusal :=
  s.command t box (withOp 0x12 c)

/-- PAGE_FREE (R179). Command freeing a range of pages. -/
def execPageFree (t box : Nat) (c : HostCmd) (s : State) : Host.Outcome State Fault Refusal := s.command t box (withOp 0x13 c)

/-- PIN (R179). Command setting PINNED on a range of pages. -/
def execPin (t box : Nat) (c : HostCmd) (s : State) : Host.Outcome State Fault Refusal := s.command t box (withOp 0x18 c)

/-- UNPIN (R179). Command clearing PINNED on a range of pages. -/
def execUnpin (t box : Nat) (c : HostCmd) (s : State) : Host.Outcome State Fault Refusal := s.command t box (withOp 0x19 c)

/-- HINT_HOT (R198). HINT command that sets HOT and may request a swap-in. -/
def execHintHot (t box : Nat) (c : HostCmd) (s : State) : Host.Outcome State Fault Refusal :=
  s.command t box (withByte 0x1F 1 (withOp 0x17 c))

/-- HINT_COLD (R198). HINT command that clears HOT and zeroes COUNT. -/
def execHintCold (t box : Nat) (c : HostCmd) (s : State) : Host.Outcome State Fault Refusal :=
  s.command t box (withByte 0x1F 2 (withOp 0x17 c))

/-- HINT_SHARE (R234). HINT command that pre-verifies a Gazetteer content hit and shares the sealed page at a
boundary. -/
def execHintShare (t box : Nat) (c : HostCmd) (s : State) : Host.Outcome State Fault Refusal :=
  s.command t box (withByte 0x1F 3 (withOp 0x17 c))

/-- MIGRATE (R204). Command moving a range of sealed pages to another node or quad. -/
def execMigrate (t box : Nat) (c : HostCmd) (s : State) : Host.Outcome State Fault Refusal := s.command t box (withOp 0x16 c)

end Sys2Proof.Machine
end

