-- ==== Sys2Proof/Machine/ExecPartition.lean ====
section
/-!
DEFINITION. Partitions and the tenant switch (R355 to R362).
-/

namespace Sys2Proof.Machine

/-- PARTITION_CREATE (R356). Command creating a partition on UNASSIGNED quads. -/
def execPartitionCreate (t box : Nat) (c : HostCmd) (s : State) : Host.Outcome State Fault Refusal :=
  s.command t box (withOp 0x51 c)

/-- PARTITION_DESTROY (R358). Command destroying a partition and starting its tenant switch. -/
def execPartitionDestroy (t box : Nat) (c : HostCmd) (s : State) : Host.Outcome State Fault Refusal :=
  s.command t box (withOp 0x52 c)

/-- PARTITION_SCRUB (R361). Command filling the FREE and optionally HOST granules of a partition's quads. -/
def execPartitionScrub (t box : Nat) (c : HostCmd) (s : State) : Host.Outcome State Fault Refusal :=
  s.command t box (withOp 0x53 c)

/-- QUAD_CLEAR_DONE (R359). On-die clearing of a quad finishes and it becomes SCRUBBING. -/
def execQuadClearDone (t quad : Nat) (s : State) : Host.Outcome State Fault Refusal :=
  s.liveUnit t (s.node.hasQuad quad) fun n => n.quadClearDone quad

end Sys2Proof.Machine
end

