-- ==== Sys2Proof/Machine/ExecPldm.lean ====
section
/-!
DEFINITION. The PLDM responder (R448).
-/

namespace Sys2Proof.Machine

/-- GETTID (R448). PLDM GetTID request. -/
def execGetTid (t : Nat) (s : State) : Host.Outcome State Fault Refusal := s.live t fun n => n.getTid

/-- GETPLDMVERSION (R448). PLDM GetPLDMVersion request. -/
def execGetPldmVersion (t pldmType : Nat) (s : State) : Host.Outcome State Fault Refusal :=
  s.live t fun n => n.getPldmVersion pldmType

/-- GETPLDMTYPES (R448). PLDM GetPLDMTypes request. -/
def execGetPldmTypes (t : Nat) (s : State) : Host.Outcome State Fault Refusal := s.live t fun n => n.getPldmTypes

/-- GETPLDMCOMMANDS (R448). PLDM GetPLDMCommands request. -/
def execGetPldmCommands (t pldmType : Nat) (s : State) : Host.Outcome State Fault Refusal :=
  s.live t fun n => n.getPldmCommands pldmType

/-- GETPDR (R448). PLDM GetPDR request. -/
def execGetPdr (t handle : Nat) (s : State) : Host.Outcome State Fault Refusal := s.live t fun n => n.getPdr handle

/-- GETSENSORREADING (R448). PLDM numeric sensor reading request. -/
def execGetSensorReading (t sensor : Nat) (s : State) : Host.Outcome State Fault Refusal :=
  s.live t fun n => n.getSensorReading sensor

/-- GETSTATESENSORREADINGS (R448). PLDM state sensor reading request. -/
def execGetStateSensorReadings (t sensor : Nat) (s : State) : Host.Outcome State Fault Refusal :=
  s.live t fun n => n.getStateSensorReadings sensor

/-- SETEVENTRECEIVER (R448). PLDM request naming the receiver of ALARM events. -/
def execSetEventReceiver (t eid : Nat) (s : State) : Host.Outcome State Fault Refusal :=
  s.live t fun n => n.setEventReceiver eid

/-- SETNUMERICEFFECTERVALUE (R448). PLDM request setting a granted numeric effecter at the next boundary. -/
def execSetNumericEffecterValue (t effecter value : Nat) (s : State) : Host.Outcome State Fault Refusal :=
  s.live t fun n => n.setNumericEffecterValue effecter value

/-- SETSTATEEFFECTERSTATES (R448). PLDM request setting a granted state effecter at the next boundary. -/
def execSetStateEffecterStates (t effecter value : Nat) (s : State) : Host.Outcome State Fault Refusal :=
  s.live t fun n => n.setStateEffecterStates effecter value

end Sys2Proof.Machine
end

