-- ==== Sys2Proof/Machine/ExecPool.lean ====
section
/-!
DEFINITION. The memory pool: extents and leases (R331 to R336).
-/

namespace Sys2Proof.Machine

/-- EXTENT_GRANT (R331). Command granting an extent of the host area under a key and lease. -/
def execExtentGrant (t box : Nat) (c : HostCmd) (s : State) : Host.Outcome State Fault Refusal :=
  s.command t box (withOp 0x22 c)

/-- EXTENT_RENEW (R333). Command sending a RENEW to the server and completing with its answer. -/
def execExtentRenew (t box : Nat) (c : HostCmd) (s : State) : Host.Outcome State Fault Refusal :=
  s.command t box (withOp 0x23 c)

/-- EXTENT_WITHDRAW (R336). Command withdrawing an extent, fencing its keys and scrubbing it. -/
def execExtentWithdraw (t box : Nat) (c : HostCmd) (s : State) : Host.Outcome State Fault Refusal :=
  s.command t box (withOp 0x24 c)

/-- RENEW (R334). A received RENEW is checked and answered RENEWED with a later EXPIRY, or REFUSED. -/
def execRenew (t port : Nat) (p : Packet) (s : State) : Host.Outcome State Fault Refusal := s.packet t port (ofMessage 0x50 p)

/-- RENEWED (R333). A received RENEWED completes EXTENT_RENEW with the new EXPIRY. -/
def execRenewed (t port : Nat) (p : Packet) (s : State) : Host.Outcome State Fault Refusal :=
  s.packet t port (ofMessage 0x51 p)

/-- REFUSED (R333). A received REFUSED completes EXTENT_RENEW with its status. -/
def execRefusedAnswer (t port : Nat) (p : Packet) (s : State) : Host.Outcome State Fault Refusal :=
  s.packet t port (ofMessage 0x52 p)

/-- RENEW_TIMEOUT (R333). No answer to RENEW within 1 ms completes EXTENT_RENEW with INTERNAL. -/
def execRenewTimeout (t reqId : Nat) (s : State) : Host.Outcome State Fault Refusal := s.live t fun n => n.renewTimeout reqId

/-- LEASE_EXPIRY (R335). At the first boundary at or after EXPIRY the extent is withdrawn. -/
def execLeaseExpiry (t ext : Nat) (s : State) : Host.Outcome State Fault Refusal := s.live t fun n => n.leaseExpiry ext

/-- EXTENT_DRAINED (R336). When passed placements finish the extent becomes SCRUBBING and its FILL is started. -/
def execExtentDrained (t ext : Nat) (s : State) : Host.Outcome State Fault Refusal := s.live t fun n => n.extentDrained ext

end Sys2Proof.Machine
end

