-- ==== Sys2Proof/Machine/ExecPower.lean ====
section
/-!
DEFINITION. Park, Doze, Standby, operating points and the power cap (R24, R387 to R391).
-/

namespace Sys2Proof.Machine

/-- PARK (R388). A PWR_CTL PARK write parks or unparks sheets at the next boundary. -/
def execPark (t mask : Nat) (s : State) : Host.Outcome State Fault Refusal :=
  s.hostReg t R.PWR_CTL_PARK fun n => n.writePark mask

/-- STANDBY (R389). A PWR_CTL STANDBY write enters or leaves Standby. -/
def execStandby (t : Nat) (on : Bool) (s : State) : Host.Outcome State Fault Refusal :=
  s.hostReg t R.PWR_CTL_STANDBY fun n => n.writeStandby (b2n on)

/-- OP_LIMIT (R391). A PWR_CFG OP_LIMIT write sets the fastest operating point allowed. -/
def execOpLimit (t point : Nat) (s : State) : Host.Outcome State Fault Refusal :=
  s.hostReg t R.PWR_CFG_OP_LIMIT fun n => n.writeOpLimit point

/-- SHEET_DOZE (R387). A sheet with no pass and empty queues dozes for the rest of the tick. -/
def execSheetDoze (t sheet : Nat) (s : State) : Host.Outcome State Fault Refusal :=
  s.liveUnit t (s.node.hasSheet sheet) fun n => n.sheetDoze sheet

/-- SHEET_WAKE_DONE (R388). A sheet's cores power up after Park and it admits from the next boundary, or WAKE_TIMEOUT
is set. -/
def execSheetWakeDone (t sheet : Nat) (inTime : Bool) (s : State) : Host.Outcome State Fault Refusal :=
  s.liveUnit t (s.node.hasSheet sheet) fun n => n.sheetWakeDone sheet inTime

/-- RAIL_SETTLED (R391). Every rail reports settled and the faster clock is switched at the next boundary. -/
def execRailSettled (t : Nat) (s : State) : Host.Outcome State Fault Refusal := s.live t fun n => n.railSettled

/-- RAIL_SETTLE_TIMEOUT (R391). A rail not settled within 1 ms leaves the point unchanged and sets AVS_FAIL. -/
def execRailSettleTimeout (t _rail : Nat) (s : State) : Host.Outcome State Fault Refusal := s.live t fun n => n.railTimeout

/-- POWER_SAMPLE (R24). Every 1 ms package power is averaged and the power cap lowers or releases the operating point.
-/
def execPowerSample (t watts : Nat) (s : State) : Host.Outcome State Fault Refusal := s.live t fun n => n.powerSample watts

end Sys2Proof.Machine
end

