-- ==== Sys2Proof/Machine/ExecReset.lean ====
section
/-!
DEFINITION. Errors, aborts and resets (R410 to R433, R461).
-/

namespace Sys2Proof.Machine

/-- RESET_LEVEL_1 (R420). RESET_LEVEL 1 resets one queue pair, post box or merge context. -/
def execResetLevel1 (t box : Nat) (c : HostCmd) (s : State) : Host.Outcome State Fault Refusal :=
  s.command t box (withLevel 1 (withOp 0x61 c))

/-- RESET_LEVEL_2 (R420). RESET_LEVEL 2 samples and resets one core. -/
def execResetLevel2 (t box : Nat) (c : HostCmd) (s : State) : Host.Outcome State Fault Refusal :=
  s.command t box (withLevel 2 (withOp 0x61 c))

/-- RESET_LEVEL_3 (R421). RESET_LEVEL 3 resets the work and state of one partition. -/
def execResetLevel3 (t box : Nat) (c : HostCmd) (s : State) : Host.Outcome State Fault Refusal :=
  s.command t box (withLevel 3 (withOp 0x61 c))

/-- RESET_LEVEL_4 (R422). RESET_LEVEL 4 resets node compute and warm-restarts. -/
def execResetLevel4 (t box : Nat) (c : HostCmd) (s : State) : Host.Outcome State Fault Refusal :=
  s.command t box (withLevel 4 (withOp 0x61 c))

/-- RESET_LEVEL_5 (R423). RESET_LEVEL 5 requests a power cycle of the whole node. -/
def execResetLevel5 (t box : Nat) (c : HostCmd) (s : State) : Host.Outcome State Fault Refusal :=
  s.command t box (withLevel 5 (withOp 0x61 c))

/-- RST_CTL_GO (R432). RST_CTL GO starts a level-4 or level-5 reset at the next boundary. -/
def execRstCtlGo (t level : Nat) (s : State) : Host.Outcome State Fault Refusal :=
  s.hostReg t R.RST_CTL_GO fun n => n.rstGo level

/-- NODE_RESET (R423). NODE_RESET_N low resets the node as level 5 with power applied. -/
def execNodeReset (t : Nat) (low : Bool) (s : State) : Host.Outcome State Fault Refusal := s.at t fun n => n.nodeReset low

/-- FATAL_ERROR (R412). A FATAL error stops admission, alerts the tray and sends automatic ABORTs. -/
def execFatalError (t source sheet link : Nat) (s : State) : Host.Outcome State Fault Refusal :=
  s.liveUnit t (s.node.fatalUnit source sheet link) fun n => n.fatalError source sheet link

/-- FATAL_RESET_DELAY (R412). After FATAL_DELAY_MS the node starts its automatic level-4 or level-5 reset. -/
def execFatalResetDelay (t : Nat) (s : State) : Host.Outcome State Fault Refusal := s.live t fun n => n.fatalResetDelay

/-- SHEET_HANG (R414). A sheet missing two consecutive boundary reports is a FATAL hang. -/
def execSheetHang (t sheet : Nat) (s : State) : Host.Outcome State Fault Refusal :=
  s.liveUnit t (s.node.hasSheet sheet) fun n => n.sheetHang sheet

/-- HUB_WATCHDOG (R414). A lapse of the 100 ms hub watchdog is a hub FATAL error. -/
def execHubWatchdog (t : Nat) (s : State) : Host.Outcome State Fault Refusal := s.live t fun n => n.hubWatchdog

/-- RESET_ESCALATION (R424). A level 4 not complete within 2 s or hit by another FATAL escalates to level 5. -/
def execResetEscalation (t : Nat) (s : State) : Host.Outcome State Fault Refusal := s.live t fun n => n.resetEscalation

/-- WARM_RESTART_DONE (R461). The warm restart completes and the first admitting boundary follows. -/
def execWarmRestartDone (t quads : Nat) (s : State) : Host.Outcome State Fault Refusal :=
  s.live t fun n => n.warmRestartDone quads

/-- ABORT_SEND (R426). ERR_ABORT_CTL SEND sends an ABORT to the distribution list and applies it locally. -/
def execAbortSend (t : Nat) (s : State) : Host.Outcome State Fault Refusal :=
  s.hostReg t R.ERR_ABORT_CTL_SEND fun n => n.abortSend

/-- ABORT (R427). A received ABORT opens an abort window and aborts matching shares at the next boundary. -/
def execAbort (t port : Nat) (p : Packet) (s : State) : Host.Outcome State Fault Refusal :=
  s.packet t port (ofPtype ptAbort p)

/-- ABORT_WINDOW_END (R427). At UNTIL an abort window stops refusing matching letters. -/
def execAbortWindowEnd (t : Nat) (s : State) : Host.Outcome State Fault Refusal := s.live t fun n => n.abortWindowEnd

/-- RELEASE_ALL (R431). ERR_DUMP_CTL write emptying every crash dump slot. -/
def execReleaseAll (t : Nat) (s : State) : Host.Outcome State Fault Refusal :=
  s.hostReg t R.ERR_DUMP_CTL_RELEASE_ALL fun n => n.releaseAll

/-- RELEASE_ONE (R431). ERR_DUMP_CTL write emptying the crash dump slot of one core. -/
def execReleaseOne (t : Nat) (s : State) : Host.Outcome State Fault Refusal :=
  s.hostReg t R.ERR_DUMP_CTL_RELEASE_ONE fun n => n.releaseOne

end Sys2Proof.Machine
end

