-- ==== Sys2Proof/Machine/ExecSecurity.lean ====
section
/-!
DEFINITION. Ownership, debug levels and attestation (R365 to R386).
-/

namespace Sys2Proof.Machine

/-- OWN (R377). SEC_CMD OWN takes the node to OWNED with the owner's key hashes. -/
def execOwn (t : Nat) (object : Bytes) (s : State) : Host.Outcome State Fault Refusal :=
  s.hostReg t R.SEC_CMD_GO fun n => n.secAny 1 0 (n.secObject object)

/-- RETURN (R378). SEC_CMD RETURN revokes keys, scrubs HBM, erases the owner area and enters RETURNED. -/
def execSecReturn (t : Nat) (object : Bytes) (s : State) : Host.Outcome State Fault Refusal :=
  s.hostReg t R.SEC_CMD_GO fun n => n.secAny 2 0 (n.secObject object)

/-- REPROVISION (R377). SEC_CMD REPROVISION returns the node to BLANK. -/
def execReprovision (t : Nat) (object : Bytes) (s : State) : Host.Outcome State Fault Refusal :=
  s.hostReg t R.SEC_CMD_GO fun n => n.secAny 3 0 (n.secObject object)

/-- DEBUG_TOKEN (R382). SEC_CMD DEBUG_TOKEN verifies a token and raises or extends the debug level. -/
def execDebugToken (t : Nat) (object : Bytes) (s : State) : Host.Outcome State Fault Refusal :=
  s.hostReg t R.SEC_CMD_GO fun n => n.secAny 4 0 (n.secObject object)

/-- DEBUG_LOWER (R385). SEC_CMD DEBUG_LOWER lowers the debug level. -/
def execDebugLower (t arg : Nat) (s : State) : Host.Outcome State Fault Refusal :=
  s.hostReg t R.SEC_CMD_GO fun n => n.secAny 5 arg []

/-- ADVANCE (R371). SEC_CMD ADVANCE raises a rollback counter to the version in force. -/
def execAdvance (t arg : Nat) (s : State) : Host.Outcome State Fault Refusal :=
  s.hostReg t R.SEC_CMD_GO fun n => n.secAny 6 arg []

/-- TOKEN_EXPIRY (R385). At the first boundary at or after NOT_AFTER the level falls to the free level. -/
def execTokenExpiry (t : Nat) (s : State) : Host.Outcome State Fault Refusal := s.live t fun n => n.tokenExpiry

/-- GET_VERSION (R372). SPDM request for the supported versions. -/
def execGetVersion (t conn : Nat) (s : State) : Host.Outcome State Fault Refusal :=
  s.at t fun n => n.when (n.spdmLink conn) fun n => n.getVersion conn

/-- GET_CAPABILITIES (R372). SPDM request for the responder's capabilities. -/
def execGetCapabilities (t conn : Nat) (m : SpdmReq) (s : State) : Host.Outcome State Fault Refusal :=
  s.at t fun n => n.when (n.spdmLink conn) fun n => n.getCapabilities conn m

/-- NEGOTIATE_ALGORITHMS (R372). SPDM request fixing the algorithms. -/
def execNegotiateAlgorithms (t conn : Nat) (m : SpdmReq) (s : State) : Host.Outcome State Fault Refusal :=
  s.at t fun n => n.when (n.spdmLink conn) fun n => n.negotiate conn m

/-- GET_DIGESTS (R372). SPDM request for certificate chain digests. -/
def execGetDigests (t conn : Nat) (m : SpdmReq) (s : State) : Host.Outcome State Fault Refusal :=
  s.at t fun n => n.when (n.spdmLink conn) fun n => n.getDigests conn m

/-- GET_CERTIFICATE (R372). SPDM request for the slot 0 certificate chain. -/
def execGetCertificate (t conn slot offset length : Nat) (m : SpdmReq) (s : State) : Host.Outcome State Fault Refusal :=
  s.at t fun n => n.when (n.spdmLink conn) fun n => n.getCertificate conn slot offset length m

/-- CHALLENGE (R374). SPDM request answered with a dual-signed CHALLENGE_AUTH. -/
def execChallenge (t conn slot measType : Nat) (m : SpdmReq) (s : State) : Host.Outcome State Fault Refusal :=
  s.at t fun n => n.when (n.spdmLink conn) fun n => n.challenge conn slot measType m

/-- GET_MEASUREMENTS (R373). SPDM request returning the measurement blocks. -/
def execGetMeasurements (t conn index slot : Nat) (signed : Bool) (m : SpdmReq)
    (s : State) : Host.Outcome State Fault Refusal :=
  s.at t fun n => n.when (n.spdmLink conn) fun n => n.getMeasurements conn index slot signed m

/-- KEY_EXCHANGE (R372). SPDM request opening a secured session. -/
def execKeyExchange (t conn slot measType : Nat) (m : SpdmReq) (s : State) : Host.Outcome State Fault Refusal :=
  s.at t fun n => n.when (n.spdmLink conn) fun n => n.spdmKeyExchange conn slot measType m

/-- SPDM_FINISH (R372). SPDM FINISH request completing a secured session handshake. -/
def execSpdmFinish (t conn session : Nat) (hmacOk : Bool) (m : SpdmReq) (s : State) : Host.Outcome State Fault Refusal :=
  s.at t fun n => n.when (n.spdmLink conn) fun n => n.spdmFinish conn session hmacOk m

/-- HEARTBEAT (R372). SPDM HEARTBEAT request on a session. -/
def execSpdmHeartbeat (t conn session : Nat) (m : SpdmReq) (s : State) : Host.Outcome State Fault Refusal :=
  s.at t fun n => n.when (n.spdmLink conn) fun n => n.heartbeatAck conn session m

/-- KEY_UPDATE (R372). SPDM request updating session keys. -/
def execKeyUpdate (t conn session op tag : Nat) (m : SpdmReq) (s : State) : Host.Outcome State Fault Refusal :=
  s.at t fun n => n.when (n.spdmLink conn) fun n => n.keyUpdate conn session op tag m

/-- END_SESSION (R372). SPDM request ending a session. -/
def execEndSession (t conn session : Nat) (m : SpdmReq) (s : State) : Host.Outcome State Fault Refusal :=
  s.at t fun n => n.when (n.spdmLink conn) fun n => n.endSession conn session m

/-- VENDOR_DEFINED_REQUEST (R374). SPDM vendor request returning the HSS signature or carrying CXL IDE_KM. -/
def execVendorDefinedRequest (t conn session vendor code : Nat) (m : SpdmReq)
    (s : State) : Host.Outcome State Fault Refusal :=
  s.at t fun n => n.when (n.spdmLink conn) fun n => n.vendorRequest conn session vendor code m

/-- LOWER_TREE_GENERATED (R375). Generation of the next lower HSS tree, started while the present tree still has at
least 256 leaves, completes within 20 ms. -/
def execLowerTreeGenerated (t : Nat) (s : State) : Host.Outcome State Fault Refusal := s.live t fun n => n.lowerTree

end Sys2Proof.Machine
end

