-- ==== Sys2Proof/Machine/ExecStartup.lean ====
section
/-!
DEFINITION. Power, reset and the steps of start-up (R13, R450 to R478).
-/

namespace Sys2Proof.Machine

/-- POWER_GOOD_RISE (R453). PWR_GOOD rising starts the cold start with the hub ROM reading slot A. -/
def execPowerGoodRise (t : Nat) (s : State) : Host.Outcome State Fault Refusal := s.at t fun n => n.powerGoodRise

/-- FIRMWARE_VERIFIED (R452). The ROM finishes verifying a firmware slot and runs it, tries slot B, or stays in ROM.
-/
def execFirmwareVerified (t ms : Nat) (image : Option Bytes) (s : State) : Host.Outcome State Fault Refusal :=
  s.at t fun n => (n.atMs ms).firmwareVerified image

/-- UNSEAL_DONE (R454). The device secret is reconstructed, MRAM unsealed and rollback checked, and firmware runs. -/
def execUnsealDone (t ms : Nat) (pufOk ownerOk stateOk : Bool) (s : State) : Host.Outcome State Fault Refusal :=
  s.at t fun n => (n.atMs ms).unsealDone pufOk ownerOk stateOk

/-- SHEET_POWER_UP (R455). Sheets are powered 10 ms apart and each sheet's rails settle or stop the start-up. -/
def execSheetPowerUp (t ms sheet : Nat) (railsOk linksOk : Bool) (s : State) : Host.Outcome State Fault Refusal :=
  s.atUnit t (s.node.hasSheet sheet) fun n => (n.atMs ms).sheetPowerUp sheet railsOk linksOk

/-- HBM_TRAINED (R453). Every HBM channel finishes training and each stack is ONLINE or OFFLINE. -/
def execHbmTrained (t : Nat) (x : Trained) (s : State) : Host.Outcome State Fault Refusal :=
  s.at t fun n => (n.atMs x.ms).hbmTrained x.channels

/-- HBM_INIT_DONE (R456). The initialisation FILL completes and the granule maps are rebuilt. -/
def execHbmInitDone (t ms : Nat) (failed : List Nat) (s : State) : Host.Outcome State Fault Refusal :=
  s.at t fun n => (n.atMs ms).hbmInitDone failed

/-- SYSTEM_LAYOUT_DONE (R457). The system structures sized by the chart are laid out. -/
def execSystemLayoutDone (t ms : Nat) (s : State) : Host.Outcome State Fault Refusal :=
  s.at t fun n => (n.atMs ms).systemLayoutDone

/-- READY_TIMEOUT (R459). READY not reached 5 s after PWR_GOOD writes a FAULT record. -/
def execReadyTimeout (t : Nat) (s : State) : Host.Outcome State Fault Refusal := s.live t fun n => n.readyTimeout

/-- POWER_OFF (R469). PWR_GOOD falling drives every AVS_EN low and the node is Off. -/
def execPowerOff (t : Nat) (s : State) : Host.Outcome State Fault Refusal := s.at t fun n => n.powerOff

/-- THERMTRIP (R476). A quad, hub or stack reaching its trip temperature drives THERMTRIP_N low. -/
def execThermtrip (t sensor celsius : Nat) (s : State) : Host.Outcome State Fault Refusal :=
  s.at t fun n => n.thermtrip sensor celsius

/-- THERMTRIP_RELEASE (R476). THERMTRIP_N is released once PWR_GOOD is low and every sensor reads below 95 °C. -/
def execThermtripRelease (t : Nat) (s : State) : Host.Outcome State Fault Refusal := s.at t fun n => n.thermtripRelease

end Sys2Proof.Machine
end

