-- ==== Sys2Proof/Machine/ExecSurvey.lean ====
section
/-!
DEFINITION. The Survey: samples, records, alarms, known-answer tests and the ring (R434 to R447).
-/

namespace Sys2Proof.Machine

/-- EYE_MONITOR_SAMPLE (R433). Every 1 s each UP lane's eye height and width are measured. -/
def execEyeMonitorSample (t port lane height width : Nat) (s : State) : Host.Outcome State Fault Refusal :=
  s.liveUnit t (s.node.hasPort port) fun n => n.eyeMonitorSample port lane height width

/-- UCIE_MARGIN_SAMPLE (R433). Every 10 s each UCIe lane's margin is measured. -/
def execUcieMarginSample (t ucie lane margin : Nat) (s : State) : Host.Outcome State Fault Refusal :=
  s.live t fun n => n.ucieMarginSample (ucie % 4) lane margin

/-- GUARD_BAND_SAMPLE (R433). Each 1 ms the lowest voltage guard band of each quad is kept and checked. -/
def execGuardBandSample (t quad lowest : Nat) (s : State) : Host.Outcome State Fault Refusal :=
  s.liveUnit t (s.node.hasQuad quad) fun n => n.guardBandSample quad lowest

/-- SURVEY_RECORD (R436). A record formed at its source reaches the hub, takes a SEQ and goes to its destinations. -/
def execSurveyRecord (t : Nat) (s : State) : Host.Outcome State Fault Refusal := s.live t fun n => n.surveyRecord

/-- BUCKET_REFILL (R439). Each Meridian millisecond every class bucket refills and a pending drop summary is written.
-/
def execBucketRefill (t : Nat) (s : State) : Host.Outcome State Fault Refusal := s.live t fun n => n.bucketRefill

/-- ALARM_FRAME (R440). A received ALARM frame from the alarm list is written to the ring or dropped. -/
def execAlarmFrame (t port : Nat) (p : Packet) (s : State) : Host.Outcome State Fault Refusal :=
  s.packet t port (ofPtype ptAlarm p)

/-- ALERT_CLEAR (R440). Writing 1 to SVY_STATUS ALERT releases TRAY_ALERT_N. -/
def execAlertClear (t : Nat) (s : State) : Host.Outcome State Fault Refusal :=
  s.hostReg t R.SVY_STATUS_ALERT fun n => n.wr R.SVY_STATUS_ALERT 0 0

/-- RING_READ_ADVANCE (R441). A write of SVY_RING_IDX READ consumes log ring records within the bound. -/
def execRingReadAdvance (t value : Nat) (s : State) : Host.Outcome State Fault Refusal :=
  s.hostReg t R.SVY_RING_IDX_READ fun n => n.ringReadAdvance value

/-- KAT_DUE (R442). At its due tick a core pair's known-answer test is scheduled. -/
def execKatDue (t core : Nat) (s : State) : Host.Outcome State Fault Refusal :=
  s.liveUnit t (s.node.hasCore core) fun n => n.katDue core

/-- KAT_COMPLETE (R443). A known-answer test's digest is compared with ROM, with failures counted and fencing. -/
def execKatComplete (t core digest : Nat) (s : State) : Host.Outcome State Fault Refusal :=
  s.liveUnit t (s.node.hasCore core) fun n => n.katComplete core digest

/-- HISTOGRAM_FLUSH (R445). Every 10 minutes the hub writes the lifetime histograms to MRAM. -/
def execHistogramFlush (t : Nat) (s : State) : Host.Outcome State Fault Refusal := s.live t fun n => n.histogramFlush

/-- FLUSH (R445). SVY_CTL FLUSH writes the histograms to MRAM. -/
def execFlush (t : Nat) (s : State) : Host.Outcome State Fault Refusal := s.hostReg t R.SVY_CTL_FLUSH fun n => n.flush

/-- SURVEY_READ (R446). Command copying histogram or log entries to a host buffer. -/
def execSurveyRead (t box : Nat) (c : HostCmd) (s : State) : Host.Outcome State Fault Refusal :=
  s.command t box (withOp 0x60 c)

/-- SURVEY_READ_DONE (R446). The 200 MB/s copy of SURVEY_READ finishes and the command completes. -/
def execSurveyReadDone (t : Nat) (s : State) : Host.Outcome State Fault Refusal := s.live t fun n => n.surveyReadDone

end Sys2Proof.Machine
end

