-- ==== Sys2Proof/Machine/ExecTime.lean ====
section
/-!
DEFINITION. Boundaries, collection cut-off, time exchange, PTP and PPS (R26 to R50), the die-to-die links (R19).
-/

namespace Sys2Proof.Machine

/-- TICK_BOUNDARY (R50). At each tick boundary the node applies the boundary actions in order, ending with admission
of the new tick's pigeonholes. -/
def execTickBoundary (s : State) : Host.Outcome State Fault Refusal := s.on fun n => n.tickBoundary.settle

/-- COLLECTION_CUTOFF (R46). Collection for the next tick closes 20 ns before the boundary so that pigeonholes can be
formed. -/
def execCollectionCutoff (t : Nat) (s : State) : Host.Outcome State Fault Refusal := s.live t fun n => n

/-- TIME_EXCHANGE_SEND (R30). At each exchange interval the node sends a time-exchange message on each native port. -/
def execTimeExchangeSend (t : Nat) (s : State) : Host.Outcome State Fault Refusal := s.live t fun n => n.sendExchanges

/-- TIME_EXCHANGE (R30). A received time-exchange message yields timestamps, offset and delay for the servo. -/
def execTimeExchange (t port : Nat) (m : TimeMsg) (s : State) : Host.Outcome State Fault Refusal :=
  s.liveUnit t (s.node.hasPort port) fun n => n.timeExchange port m

/-- EXCHANGE_MISSED (R39). Eight missed exchanges mean the upstream is lost and the node enters HOLDOVER. -/
def execExchangeMissed (t port : Nat) (s : State) : Host.Outcome State Fault Refusal :=
  s.liveUnit t (s.node.hasPort port) fun n => n.exchangeMissed port

/-- PTP_MESSAGE (R32). A received PTP event or general message feeds the time servo on a switched port. -/
def execPtpMessage (t port : Nat) (m : PtpMsg) (s : State) : Host.Outcome State Fault Refusal :=
  s.liveUnit t (s.node.hasPort port) fun n => n.ptpMessage port m

/-- PTP_SYNC_SEND (R32). A source node sends two-step Sync at its sync interval as time transmitter. -/
def execPtpSyncSend (t port : Nat) (s : State) : Host.Outcome State Fault Refusal :=
  s.liveUnit t (s.node.hasPort port) fun n => n.ptpSync port

/-- DELAY_REQUEST_SEND (R32). On a switched port the node sends its end-to-end delay request or peer-to-peer delay
request for the chosen delay mechanism. -/
def execDelayRequestSend (t port : Nat) (s : State) : Host.Outcome State Fault Refusal :=
  s.liveUnit t (s.node.hasPort port) fun n => n.delayRequest port

/-- PPS_IN_EDGE (R34). A rising edge on TIME_PPS_IN marks the PPS instant and locks a SOURCE_PPS node. -/
def execPpsInEdge (t : Nat) (s : State) : Host.Outcome State Fault Refusal := s.live t fun n => n.ppsEdge

/-- PPS_MISSING (R34). A pulse not arriving within 1 s ± 1 µs counts as missing; two in a row enter HOLDOVER. -/
def execPpsMissing (t : Nat) (s : State) : Host.Outcome State Fault Refusal := s.live t fun n => n.ppsMissing

/-- PPS_OUT_PULSE (R35). TIME_PPS_OUT rises at each second of MER_NS and stays high for 10 µs. -/
def execPpsOutPulse (t : Nat) (s : State) : Host.Outcome State Fault Refusal := s.live t fun n => n.ppsOut

/-- UPSTREAM_ATTEMPT_TIMEOUT (R39). An attempt on an alternate port that has not succeeded within 0.5 s fails and the
next port is tried. -/
def execUpstreamAttemptTimeout (t : Nat) (s : State) : Host.Outcome State Fault Refusal := s.live t fun n => n.attemptTimeout

/-- HOLDOVER_LIMIT_EXCEEDED (R40). MER_ERR_EST passing the holdover limit makes the node UNLOCKED and raises an ALARM.
-/
def execHoldoverLimitExceeded (t : Nat) (s : State) : Host.Outcome State Fault Refusal := s.live t fun n => n.holdoverLimit

/-- D2D_REPLAY_TIMEOUT (R19). A die-to-die link that fails to replay within 1 µs is retrained once, and a failed
retrain is FATAL. -/
def execD2dReplayTimeout (t sheet link : Nat) (trained : Bool) (s : State) : Host.Outcome State Fault Refusal :=
  s.liveUnit t (s.node.hasLink sheet link) fun n => n.d2dReplayTimeout sheet link trained

end Sys2Proof.Machine
end

