-- ==== Sys2Proof/Machine/Dispatch.lean ====
section
/-!
DEFINITION. The dispatcher: one arm per command of the table, each a direct call of that command's meaning.
-/

namespace Sys2Proof.Machine

/-- The effect of a command on everything but the queue. -/
def exec (i : Instr) (s : State) : Host.Outcome State Fault Refusal :=
  match i with
  | .tickBoundary => Sys2Proof.Machine.execTickBoundary s
  | .collectionCutoff t => Sys2Proof.Machine.execCollectionCutoff t s
  | .timeExchangeSend t => Sys2Proof.Machine.execTimeExchangeSend t s
  | .timeExchange t port m => Sys2Proof.Machine.execTimeExchange t port m s
  | .exchangeMissed t port => Sys2Proof.Machine.execExchangeMissed t port s
  | .ptpMessage t port m => Sys2Proof.Machine.execPtpMessage t port m s
  | .ptpSyncSend t port => Sys2Proof.Machine.execPtpSyncSend t port s
  | .ppsInEdge t => Sys2Proof.Machine.execPpsInEdge t s
  | .ppsMissing t => Sys2Proof.Machine.execPpsMissing t s
  | .ppsOutPulse t => Sys2Proof.Machine.execPpsOutPulse t s
  | .upstreamAttemptTimeout t => Sys2Proof.Machine.execUpstreamAttemptTimeout t s
  | .holdoverLimitExceeded t => Sys2Proof.Machine.execHoldoverLimitExceeded t s
  | .d2dReplayTimeout t sheet link trained => Sys2Proof.Machine.execD2dReplayTimeout t sheet link trained s
  | .attend t port p => Sys2Proof.Machine.execAttend t port p s
  | .append t port p => Sys2Proof.Machine.execAppend t port p s
  | .attendFwd t port p => Sys2Proof.Machine.execAttendFwd t port p s
  | .letterShare t ctx sheet => Sys2Proof.Machine.execLetterShare t ctx sheet s
  | .routeCacheWalk t sheet seq walk => Sys2Proof.Machine.execRouteCacheWalk t sheet seq walk s
  | .partialFrame t port p => Sys2Proof.Machine.execPartialFrame t port p s
  | .replyFrame t port p => Sys2Proof.Machine.execReplyFrame t port p s
  | .mergeCutoff t => Sys2Proof.Machine.execMergeCutoff t s
  | .tombstoneExpiry t => Sys2Proof.Machine.execTombstoneExpiry t s
  | .refusalEntryExpiry t => Sys2Proof.Machine.execRefusalEntryExpiry t s
  | .runAheadFetch t sheet => Sys2Proof.Machine.execRunAheadFetch t sheet s
  | .pageStaged t sheet part => Sys2Proof.Machine.execPageStaged t sheet part s
  | .stageFromLowerTier t sheet key data bad => Sys2Proof.Machine.execStageFromLowerTier t sheet key data bad s
  | .passStart t core => Sys2Proof.Machine.execPassStart t core s
  | .passComplete t core upsets => Sys2Proof.Machine.execPassComplete t core upsets s
  | .spadError t core offset bit uncorrected => Sys2Proof.Machine.execSpadError t core offset bit uncorrected s
  | .stagingError t sheet kind which uncorrected => Sys2Proof.Machine.execStagingError t sheet kind which uncorrected s
  | .sealHashDone t seq slot => Sys2Proof.Machine.execSealHashDone t seq slot s
  | .coreHang t core => Sys2Proof.Machine.execCoreHang t core s
  | .coreResetTimeout t core => Sys2Proof.Machine.execCoreResetTimeout t core s
  | .seqOpen t box c => Sys2Proof.Machine.execSeqOpen t box c s
  | .seqClose t box c => Sys2Proof.Machine.execSeqClose t box c s
  | .pageAlloc t box c => Sys2Proof.Machine.execPageAlloc t box c s
  | .pageFree t box c => Sys2Proof.Machine.execPageFree t box c s
  | .pin t box c => Sys2Proof.Machine.execPin t box c s
  | .unpin t box c => Sys2Proof.Machine.execUnpin t box c s
  | .hintHot t box c => Sys2Proof.Machine.execHintHot t box c s
  | .hintCold t box c => Sys2Proof.Machine.execHintCold t box c s
  | .hintShare t box c => Sys2Proof.Machine.execHintShare t box c s
  | .migrate t box c => Sys2Proof.Machine.execMigrate t box c s
  | .offer t port p => Sys2Proof.Machine.execOffer t port p s
  | .accept t port p => Sys2Proof.Machine.execAccept t port p s
  | .migrationTile t move data => Sys2Proof.Machine.execMigrationTile t move data s
  | .moveHashVerified t move => Sys2Proof.Machine.execMoveHashVerified t move s
  | .verified t port p => Sys2Proof.Machine.execVerified t port p s
  | .commit t port p => Sys2Proof.Machine.execCommit t port p s
  | .committed t port p => Sys2Proof.Machine.execCommitted t port p s
  | .cancel t port p => Sys2Proof.Machine.execCancel t port p s
  | .reject t port p => Sys2Proof.Machine.execReject t port p s
  | .moveSwitch t move => Sys2Proof.Machine.execMoveSwitch t move s
  | .migTimeout t move => Sys2Proof.Machine.execMigTimeout t move s
  | .swapOutComplete t move => Sys2Proof.Machine.execSwapOutComplete t move s
  | .swapInComplete t move => Sys2Proof.Machine.execSwapInComplete t move s
  | .heatDecay t => Sys2Proof.Machine.execHeatDecay t s
  | .t0IdleDrop t => Sys2Proof.Machine.execT0IdleDrop t s
  | .hbmTrainFail t quad channel => Sys2Proof.Machine.execHbmTrainFail t quad channel s
  | .hbmRecentre t quad channel margins => Sys2Proof.Machine.execHbmRecentre t quad channel margins s
  | .hbmCorrected t burst e => Sys2Proof.Machine.execHbmCorrected t burst e s
  | .hbmUncorrected t burst read what record => Sys2Proof.Machine.execHbmUncorrected t burst read what record s
  | .patrolStart t quad => Sys2Proof.Machine.execPatrolStart t quad s
  | .hbmRefresh t quad channel bank => Sys2Proof.Machine.execHbmRefresh t quad channel bank s
  | .hbmRfm t quad channel bank => Sys2Proof.Machine.execHbmRfm t quad channel bank s
  | .thermalSample t die stack hub => Sys2Proof.Machine.execThermalSample t die stack hub s
  | .stackSelfRefreshIdle t quad => Sys2Proof.Machine.execStackSelfRefreshIdle t quad s
  | .nmeFill t box c => Sys2Proof.Machine.execNmeFill t box c s
  | .nmeCopy t box c => Sys2Proof.Machine.execNmeCopy t box c s
  | .nmeCompare t box c => Sys2Proof.Machine.execNmeCompare t box c s
  | .nmeReduce t box c => Sys2Proof.Machine.execNmeReduce t box c s
  | .nmeOpStart t quad => Sys2Proof.Machine.execNmeOpStart t quad s
  | .nmeOpComplete t op => Sys2Proof.Machine.execNmeOpComplete t op s
  | .gzRuleInsert t sheet => Sys2Proof.Machine.execGzRuleInsert t sheet s
  | .gzRuleRemove t sheet => Sys2Proof.Machine.execGzRuleRemove t sheet s
  | .gzRespread t sheet => Sys2Proof.Machine.execGzRespread t sheet s
  | .respreadNow t sheet => Sys2Proof.Machine.execRespreadNow t sheet s
  | .gzEntryError t sheet part index uncorrected => Sys2Proof.Machine.execGzEntryError t sheet part index uncorrected s
  | .frameReceived t port f => Sys2Proof.Machine.execFrameReceived t port f s
  | .egressFrameSend t port => Sys2Proof.Machine.execEgressFrameSend t port s
  | .linkFrameSend t port => Sys2Proof.Machine.execLinkFrameSend t port s
  | .linkFrame t port f => Sys2Proof.Machine.execLinkFrame t port f s
  | .retryTimeout t port => Sys2Proof.Machine.execRetryTimeout t port s
  | .linkIdleTimeout t port => Sys2Proof.Machine.execLinkIdleTimeout t port s
  | .laneFault t port e => Sys2Proof.Machine.execLaneFault t port e s
  | .portTrained t port mask peerMask ok => Sys2Proof.Machine.execPortTrained t port mask peerMask ok s
  | .lockGapTimeout t lock => Sys2Proof.Machine.execLockGapTimeout t lock s
  | .hello t port peer m => Sys2Proof.Machine.execHello t port peer m s
  | .finish t port peer signature => Sys2Proof.Machine.execFinish t port peer signature s
  | .keyExchangeTimeout t port peer => Sys2Proof.Machine.execKeyExchangeTimeout t port peer s
  | .rekeyTrigger t port peer => Sys2Proof.Machine.execRekeyTrigger t port peer s
  | .keyAgeLimit t port peer => Sys2Proof.Machine.execKeyAgeLimit t port peer s
  | .oldKeyErase t port peer => Sys2Proof.Machine.execOldKeyErase t port peer s
  | .neighborSolicitation t port target source => Sys2Proof.Machine.execNeighborSolicitation t port target source s
  | .deadLetter t port p => Sys2Proof.Machine.execDeadLetter t port p s
  | .qpCreate t box c => Sys2Proof.Machine.execQpCreate t box c s
  | .qpConnect t box c => Sys2Proof.Machine.execQpConnect t box c s
  | .qpReset t box c => Sys2Proof.Machine.execQpReset t box c s
  | .qpDestroy t box c => Sys2Proof.Machine.execQpDestroy t box c s
  | .qpLifetimeWaitEnd t qpn => Sys2Proof.Machine.execQpLifetimeWaitEnd t qpn s
  | .crWrite t box c => Sys2Proof.Machine.execCrWrite t box c s
  | .crRead t box c => Sys2Proof.Machine.execCrRead t box c s
  | .crSend t box c => Sys2Proof.Machine.execCrSend t box c s
  | .crFetchAdd t box c => Sys2Proof.Machine.execCrFetchAdd t box c s
  | .crCompareSwap t box c => Sys2Proof.Machine.execCrCompareSwap t box c s
  | .crWait t box c => Sys2Proof.Machine.execCrWait t box c s
  | .waitTimeout t qpn => Sys2Proof.Machine.execWaitTimeout t qpn s
  | .write t port p => Sys2Proof.Machine.execWrite t port p s
  | .readReq t port p => Sys2Proof.Machine.execReadReq t port p s
  | .readResp t port p => Sys2Proof.Machine.execReadResp t port p s
  | .send t port p => Sys2Proof.Machine.execSend t port p s
  | .fetchAdd t port p => Sys2Proof.Machine.execFetchAdd t port p s
  | .compareSwap t port p => Sys2Proof.Machine.execCompareSwap t port p s
  | .atomicResp t port p => Sys2Proof.Machine.execAtomicResp t port p s
  | .ack t port p => Sys2Proof.Machine.execAck t port p s
  | .nak t port p => Sys2Proof.Machine.execNak t port p s
  | .close t port p => Sys2Proof.Machine.execClose t port p s
  | .closeAck t port p => Sys2Proof.Machine.execCloseAck t port p s
  | .orderedCloseSend t qpn => Sys2Proof.Machine.execOrderedCloseSend t qpn s
  | .closeAckTimeout t qpn => Sys2Proof.Machine.execCloseAckTimeout t qpn s
  | .ackDelayTimeout t qpn => Sys2Proof.Machine.execAckDelayTimeout t qpn s
  | .courierRto t qpn psn => Sys2Proof.Machine.execCourierRto t qpn psn s
  | .rnrRetry t qpn psn => Sys2Proof.Machine.execRnrRetry t qpn psn s
  | .courierPace t qpn => Sys2Proof.Machine.execCourierPace t qpn s
  | .pathResume t qpn path => Sys2Proof.Machine.execPathResume t qpn path s
  | .contextFetched t qpn => Sys2Proof.Machine.execContextFetched t qpn s
  | .contextUe t qpn => Sys2Proof.Machine.execContextUe t qpn s
  | .nodeQpIdle t qpn => Sys2Proof.Machine.execNodeQpIdle t qpn s
  | .keyRegister t box c => Sys2Proof.Machine.execKeyRegister t box c s
  | .keyRevoke t box c => Sys2Proof.Machine.execKeyRevoke t box c s
  | .crQpFreedWrite t qpn value => Sys2Proof.Machine.execCrQpFreedWrite t qpn value s
  | .ucieLinkUp t modules rate => Sys2Proof.Machine.execUcieLinkUp t modules rate s
  | .ucieModuleDown t ucie kind => Sys2Proof.Machine.execUcieModuleDown t ucie kind s
  | .ucieLinkDown t => Sys2Proof.Machine.execUcieLinkDown t s
  | .ideFailure t => Sys2Proof.Machine.execIdeFailure t s
  | .hdmRead t addr exclusive => Sys2Proof.Machine.execHdmRead t addr exclusive s
  | .hdmWrite t addr mask data poison held => Sys2Proof.Machine.execHdmWrite t addr mask data poison held s
  | .bisnpResponse t line data keeps => Sys2Proof.Machine.execBisnpResponse t line data keeps s
  | .recallTimeout t line => Sys2Proof.Machine.execRecallTimeout t line s
  | .registerWrite t addr width value => Sys2Proof.Machine.execRegisterWrite t addr width value s
  | .doorbell t box tail slots => Sys2Proof.Machine.execDoorbell t box tail slots s
  | .cplFreeWrite t box value => Sys2Proof.Machine.execCplFreeWrite t box value s
  | .rrFreeWrite t box value => Sys2Proof.Machine.execRrFreeWrite t box value s
  | .pbEnable t box => Sys2Proof.Machine.execPbEnable t box s
  | .pbDisable t box => Sys2Proof.Machine.execPbDisable t box s
  | .pbReset t box => Sys2Proof.Machine.execPbReset t box s
  | .nop t box c => Sys2Proof.Machine.execNop t box c s
  | .hostAppend t box c => Sys2Proof.Machine.execHostAppend t box c s
  | .hostAttend t box c => Sys2Proof.Machine.execHostAttend t box c s
  | .irqHoldoffEnd t box => Sys2Proof.Machine.execIrqHoldoffEnd t box s
  | .hpHeartbeat t value => Sys2Proof.Machine.execHpHeartbeat t value s
  | .heartbeatCheck t => Sys2Proof.Machine.execHeartbeatCheck t s
  | .adopt t => Sys2Proof.Machine.execAdopt t s
  | .t3WindowEnable t value => Sys2Proof.Machine.execT3WindowEnable t value s
  | .extentGrant t box c => Sys2Proof.Machine.execExtentGrant t box c s
  | .extentRenew t box c => Sys2Proof.Machine.execExtentRenew t box c s
  | .extentWithdraw t box c => Sys2Proof.Machine.execExtentWithdraw t box c s
  | .renew t port p => Sys2Proof.Machine.execRenew t port p s
  | .renewed t port p => Sys2Proof.Machine.execRenewed t port p s
  | .refusedAnswer t port p => Sys2Proof.Machine.execRefusedAnswer t port p s
  | .renewTimeout t reqId => Sys2Proof.Machine.execRenewTimeout t reqId s
  | .leaseExpiry t ext => Sys2Proof.Machine.execLeaseExpiry t ext s
  | .extentDrained t ext => Sys2Proof.Machine.execExtentDrained t ext s
  | .chartLoad t image => Sys2Proof.Machine.execChartLoad t image s
  | .chartVerifyDone t => Sys2Proof.Machine.execChartVerifyDone t s
  | .overlayApply t box c => Sys2Proof.Machine.execOverlayApply t box c s
  | .overlayStaged t index => Sys2Proof.Machine.execOverlayStaged t index s
  | .overlaySwitch t => Sys2Proof.Machine.execOverlaySwitch t s
  | .redirectRetirement t => Sys2Proof.Machine.execRedirectRetirement t s
  | .partitionCreate t box c => Sys2Proof.Machine.execPartitionCreate t box c s
  | .partitionDestroy t box c => Sys2Proof.Machine.execPartitionDestroy t box c s
  | .partitionScrub t box c => Sys2Proof.Machine.execPartitionScrub t box c s
  | .quadClearDone t quad => Sys2Proof.Machine.execQuadClearDone t quad s
  | .own t object => Sys2Proof.Machine.execOwn t object s
  | .secReturn t object => Sys2Proof.Machine.execSecReturn t object s
  | .reprovision t object => Sys2Proof.Machine.execReprovision t object s
  | .debugToken t object => Sys2Proof.Machine.execDebugToken t object s
  | .debugLower t arg => Sys2Proof.Machine.execDebugLower t arg s
  | .advance t arg => Sys2Proof.Machine.execAdvance t arg s
  | .tokenExpiry t => Sys2Proof.Machine.execTokenExpiry t s
  | .getVersion t conn => Sys2Proof.Machine.execGetVersion t conn s
  | .getCapabilities t conn m => Sys2Proof.Machine.execGetCapabilities t conn m s
  | .negotiateAlgorithms t conn m => Sys2Proof.Machine.execNegotiateAlgorithms t conn m s
  | .getDigests t conn m => Sys2Proof.Machine.execGetDigests t conn m s
  | .getCertificate t conn slot offset length m => Sys2Proof.Machine.execGetCertificate t conn slot offset length m s
  | .challenge t conn slot measType m => Sys2Proof.Machine.execChallenge t conn slot measType m s
  | .getMeasurements t conn index slot signed m => Sys2Proof.Machine.execGetMeasurements t conn index slot signed m s
  | .keyExchange t conn slot measType m => Sys2Proof.Machine.execKeyExchange t conn slot measType m s
  | .spdmFinish t conn session hmacOk m => Sys2Proof.Machine.execSpdmFinish t conn session hmacOk m s
  | .spdmHeartbeat t conn session m => Sys2Proof.Machine.execSpdmHeartbeat t conn session m s
  | .keyUpdate t conn session op tag m => Sys2Proof.Machine.execKeyUpdate t conn session op tag m s
  | .endSession t conn session m => Sys2Proof.Machine.execEndSession t conn session m s
  | .vendorDefinedRequest t conn session vendor code m => Sys2Proof.Machine.execVendorDefinedRequest t conn session vendor code m s
  | .park t mask => Sys2Proof.Machine.execPark t mask s
  | .standby t on => Sys2Proof.Machine.execStandby t on s
  | .opLimit t point => Sys2Proof.Machine.execOpLimit t point s
  | .sheetDoze t sheet => Sys2Proof.Machine.execSheetDoze t sheet s
  | .sheetWakeDone t sheet inTime => Sys2Proof.Machine.execSheetWakeDone t sheet inTime s
  | .railSettled t => Sys2Proof.Machine.execRailSettled t s
  | .railSettleTimeout t rail => Sys2Proof.Machine.execRailSettleTimeout t rail s
  | .powerSample t watts => Sys2Proof.Machine.execPowerSample t watts s
  | .extest t => Sys2Proof.Machine.execExtest t s
  | .samplePreload t => Sys2Proof.Machine.execSamplePreload t s
  | .idcode t => Sys2Proof.Machine.execIdcode t s
  | .clamp t => Sys2Proof.Machine.execClamp t s
  | .highz t => Sys2Proof.Machine.execHighz t s
  | .dbgAccess t => Sys2Proof.Machine.execDbgAccess t s
  | .bypass t => Sys2Proof.Machine.execBypass t s
  | .dbgRead t space addr => Sys2Proof.Machine.execDbgRead t space addr s
  | .dbgWrite t space addr data => Sys2Proof.Machine.execDbgWrite t space addr data s
  | .readInc t space => Sys2Proof.Machine.execReadInc t space s
  | .writeInc t space data => Sys2Proof.Machine.execWriteInc t space data s
  | .halt t => Sys2Proof.Machine.execHalt t s
  | .resume t => Sys2Proof.Machine.execResume t s
  | .stepTick t => Sys2Proof.Machine.execStepTick t s
  | .hold t port p => Sys2Proof.Machine.execHold t port p s
  | .release t port p => Sys2Proof.Machine.execRelease t port p s
  | .holdStep t port p => Sys2Proof.Machine.execHoldStep t port p s
  | .holdTick t => Sys2Proof.Machine.execHoldTick t s
  | .breakpointTime t => Sys2Proof.Machine.execBreakpointTime t s
  | .resetLevel1 t box c => Sys2Proof.Machine.execResetLevel1 t box c s
  | .resetLevel2 t box c => Sys2Proof.Machine.execResetLevel2 t box c s
  | .resetLevel3 t box c => Sys2Proof.Machine.execResetLevel3 t box c s
  | .resetLevel4 t box c => Sys2Proof.Machine.execResetLevel4 t box c s
  | .resetLevel5 t box c => Sys2Proof.Machine.execResetLevel5 t box c s
  | .rstCtlGo t level => Sys2Proof.Machine.execRstCtlGo t level s
  | .nodeReset t low => Sys2Proof.Machine.execNodeReset t low s
  | .fatalError t source sheet link => Sys2Proof.Machine.execFatalError t source sheet link s
  | .fatalResetDelay t => Sys2Proof.Machine.execFatalResetDelay t s
  | .sheetHang t sheet => Sys2Proof.Machine.execSheetHang t sheet s
  | .hubWatchdog t => Sys2Proof.Machine.execHubWatchdog t s
  | .resetEscalation t => Sys2Proof.Machine.execResetEscalation t s
  | .warmRestartDone t quads => Sys2Proof.Machine.execWarmRestartDone t quads s
  | .abortSend t => Sys2Proof.Machine.execAbortSend t s
  | .abort t port p => Sys2Proof.Machine.execAbort t port p s
  | .abortWindowEnd t => Sys2Proof.Machine.execAbortWindowEnd t s
  | .releaseAll t => Sys2Proof.Machine.execReleaseAll t s
  | .releaseOne t => Sys2Proof.Machine.execReleaseOne t s
  | .eyeMonitorSample t port lane height width => Sys2Proof.Machine.execEyeMonitorSample t port lane height width s
  | .ucieMarginSample t ucie lane margin => Sys2Proof.Machine.execUcieMarginSample t ucie lane margin s
  | .guardBandSample t quad lowest => Sys2Proof.Machine.execGuardBandSample t quad lowest s
  | .surveyRecord t => Sys2Proof.Machine.execSurveyRecord t s
  | .bucketRefill t => Sys2Proof.Machine.execBucketRefill t s
  | .alarmFrame t port p => Sys2Proof.Machine.execAlarmFrame t port p s
  | .alertClear t => Sys2Proof.Machine.execAlertClear t s
  | .ringReadAdvance t value => Sys2Proof.Machine.execRingReadAdvance t value s
  | .katDue t core => Sys2Proof.Machine.execKatDue t core s
  | .katComplete t core digest => Sys2Proof.Machine.execKatComplete t core digest s
  | .histogramFlush t => Sys2Proof.Machine.execHistogramFlush t s
  | .flush t => Sys2Proof.Machine.execFlush t s
  | .surveyRead t box c => Sys2Proof.Machine.execSurveyRead t box c s
  | .surveyReadDone t => Sys2Proof.Machine.execSurveyReadDone t s
  | .getTid t => Sys2Proof.Machine.execGetTid t s
  | .getPldmVersion t pldmType => Sys2Proof.Machine.execGetPldmVersion t pldmType s
  | .getPldmTypes t => Sys2Proof.Machine.execGetPldmTypes t s
  | .getPldmCommands t pldmType => Sys2Proof.Machine.execGetPldmCommands t pldmType s
  | .getPdr t handle => Sys2Proof.Machine.execGetPdr t handle s
  | .getSensorReading t sensor => Sys2Proof.Machine.execGetSensorReading t sensor s
  | .getStateSensorReadings t sensor => Sys2Proof.Machine.execGetStateSensorReadings t sensor s
  | .setEventReceiver t eid => Sys2Proof.Machine.execSetEventReceiver t eid s
  | .setNumericEffecterValue t effecter value => Sys2Proof.Machine.execSetNumericEffecterValue t effecter value s
  | .setStateEffecterStates t effecter value => Sys2Proof.Machine.execSetStateEffecterStates t effecter value s
  | .powerGoodRise t => Sys2Proof.Machine.execPowerGoodRise t s
  | .firmwareVerified t ms image => Sys2Proof.Machine.execFirmwareVerified t ms image s
  | .unsealDone t ms pufOk ownerOk stateOk => Sys2Proof.Machine.execUnsealDone t ms pufOk ownerOk stateOk s
  | .sheetPowerUp t ms sheet railsOk linksOk => Sys2Proof.Machine.execSheetPowerUp t ms sheet railsOk linksOk s
  | .hbmTrained t x => Sys2Proof.Machine.execHbmTrained t x s
  | .hbmInitDone t ms failed => Sys2Proof.Machine.execHbmInitDone t ms failed s
  | .systemLayoutDone t ms => Sys2Proof.Machine.execSystemLayoutDone t ms s
  | .readyTimeout t => Sys2Proof.Machine.execReadyTimeout t s
  | .powerOff t => Sys2Proof.Machine.execPowerOff t s
  | .thermtrip t sensor celsius => Sys2Proof.Machine.execThermtrip t sensor celsius s
  | .coreFence t core => Sys2Proof.Machine.execCoreFence t core s
  | .unfence t core => Sys2Proof.Machine.execUnfence t core s
  | .coreClearCnt t core => Sys2Proof.Machine.execCoreClearCnt t core s
  | .soClearCnt t sheet => Sys2Proof.Machine.execSoClearCnt t sheet s
  | .demoteAll t sheet => Sys2Proof.Machine.execDemoteAll t sheet s
  | .xlClearCnt t sheet => Sys2Proof.Machine.execXlClearCnt t sheet s
  | .flushRc t sheet => Sys2Proof.Machine.execFlushRc t sheet s
  | .migClearCnt t quad => Sys2Proof.Machine.execMigClearCnt t quad s
  | .pause t quad on => Sys2Proof.Machine.execPause t quad on s
  | .hbmClearCnt t quad => Sys2Proof.Machine.execHbmClearCnt t quad s
  | .patrolNow t quad => Sys2Proof.Machine.execPatrolNow t quad s
  | .nmeClearCnt t quad => Sys2Proof.Machine.execNmeClearCnt t quad s
  | .gzClearCnt t sheet => Sys2Proof.Machine.execGzClearCnt t sheet s
  | .portClearCnt t port => Sys2Proof.Machine.execPortClearCnt t port s
  | .retrain t port => Sys2Proof.Machine.execRetrain t port s
  | .rekey t port => Sys2Proof.Machine.execRekey t port s
  | .crClearCnt t sheet => Sys2Proof.Machine.execCrClearCnt t sheet s
  | .poolClearCnt t => Sys2Proof.Machine.execPoolClearCnt t s
  | .svyClearCnt t => Sys2Proof.Machine.execSvyClearCnt t s
  | .keyExchangeRetry t port peer => Sys2Proof.Machine.execKeyExchangeRetry t port peer s
  | .delayRequestSend t port => Sys2Proof.Machine.execDelayRequestSend t port s
  | .thermtripRelease t => Sys2Proof.Machine.execThermtripRelease t s
  | .lowerTreeGenerated t => Sys2Proof.Machine.execLowerTreeGenerated t s
  | .corePathScrubDone t op => Sys2Proof.Machine.execCorePathScrubDone t op s
  | .lowHalfRead t addr => Sys2Proof.Machine.execLowHalfRead t addr s

end Sys2Proof.Machine
end

