-- ==== Sys2Proof/Safety.lean ====
section
/-!
DEFINITION. What counts as a safe run, in the terms the claims use: the canonical form of memory, a node inside which nothing
waits, and commands that name units the part has.
-/

namespace Sys2Proof.Machine

/-! ## Memory -/

/-- The canonical form of a memory: addresses strictly rising, no byte listed that reads as an unlisted one does. -/
def Memory.wf (m : Map Byte) : Bool := mapWf 0 m

/-- Both memories of the node, its HBM and the host's as the node last wrote it, are in canonical form. -/
def Node.MemWf (n : Node) : Prop := Memory.wf n.hbm = true ∧ Memory.wf n.host.mem = true

/-- Poisoned bursts are listed in ascending order without repeats. -/
def poisonWf (l : List Nat) : Prop := l.Pairwise (· < ·)

/-! ## Rest -/

/-- The milestones an event would record are recorded (R450). -/
def Node.milestonesSet (n : Node) : Bool :=
  !n.awake || ((!n.host.link || bitAt n.boot.done 2) && (n.chart.st != .inForce || bitAt n.boot.done 3) &&
    (!n.time.everLocked || bitAt n.boot.done 6))

/-- Nothing waits inside the package that the next event would set off: no packet the node has sent itself, no message or
completion of its own queue pairs, no posted command, no reset or flush under way, no page to be asked of its store. -/
structure Node.Quiet (n : Node) : Prop where
  loop : n.loop = []
  inbox : n.courier.inbox = []
  done : n.courier.done = []
  boxes : ∀ b, (n.box b).posted = [] ∧ (n.box b).fence = none
  level1 : n.err.level1 = []
  level2 : n.err.level2 = []
  level3 : n.err.level3 = []
  flush : n.survey.flushUntil = none
  milestones : n.milestonesSet = true
  reads : n.unread = none

/-! ## Power -/

/-- The node is Off (R390): no power, no start-up under way, no host link, nothing waiting, no debug authorisation. -/
structure Node.Off (n : Node) : Prop where
  power : n.pins.pwrGood = false
  boot : n.boot = default
  link : n.host.link = false
  warm : n.err.warmAt = none
  token : n.sec.token = none ∧ n.sec.pendingTok = none ∧ n.sec.level = 0
  quiet : n.Quiet

/-! ## Runs -/

/-- The state after an event at time `t` whose effect on the node is `f`, with what it sets off. -/
def State.ran (s : State) (t : Nat) (f : Node → Node) : State := { s with node := s.node.change fun n => n.event t f }

/-- The same when it sets nothing off. -/
def State.did (s : State) (t : Nat) (f : Node → Node) : State := { s with node := s.node.change fun n => f (n.at t) }

/-- Commands executed one after another, stopping at the first that does not answer a next state. -/
def runAll : List Instr → State → Host.Outcome State Fault Refusal
  | [], s => .next s
  | c :: cs, s =>
    match exec c s with
    | .next s' => runAll cs s'
    | .fault r => .fault r
    | .refused r => .refused r

/-! ## Post boxes -/

/-- A post box that fetches the next command at once: enabled, nothing posted or fenced, not halted, with room for the
completion and a slot that can be read. -/
structure Node.BoxIdle (n : Node) (b : Nat) : Prop where
  enabled : (n.box b).st = .enabled
  empty : (n.box b).posted = []
  fence : (n.box b).fence = none
  level : ((n.box b).tail + 1 + 2 ^ 32 - (n.box b).head) % 2 ^ 32 = 1
  frozen : n.boxFrozen b = false
  room : (n.box b).inflight + ((n.box b).done + 2 ^ 32 - (n.box b).cplFree) % 2 ^ 32 <
    2 ^ n.rd R.PB_CFG_CPL_LOG2 (boxBase b)
  slot : n.slotReads b = true

/-- What the host posts for a command: 64 bytes and the data they name. -/
def posted (c : HostCmd) : Posted := ⟨padTo 64 c.bytes, c.data⟩

/-- The node once such a box has fetched a command. -/
def Node.fetched (n : Node) (b : Nat) (p : Posted) : Node :=
  ((n.modBox b fun x => { x with tail := (x.tail + 1) % 2 ^ 32 }).modBox b fun x => { x with posted := [p] }).modBox b fun x =>
    { x with head := (x.head + 1) % 2 ^ 32, inflight := x.inflight + 1, posted := x.posted.drop 1 }

/-- The reference the node keeps of the command it fetches next. -/
def Node.nextRef (n : Node) (b : Nat) (p : Posted) : CmdRef := ⟨b, cmdTag p.bytes, (n.box b).head⟩

/-- A command without FENCE that meets an idle box and passes the checks at fetch. -/
structure State.Accepts (s : State) (b : Nat) (c : HostCmd) : Prop where
  idle : s.node.BoxIdle b
  checks : s.node.fetchCheck b (posted c).bytes = none
  plain : cmdFence (posted c).bytes = false

/-- Row `i`, carrying command `c`, queues it for its boundary, unless the tick it names is past. -/
def State.Queues (s : State) (t b : Nat) (i : Instr) (c : HostCmd) : Prop :=
  s.Accepts b c → s.node.tickPast (posted c).bytes = false →
    exec i s = .next (s.ran t fun n => (n.fetched b (posted c)).awaitBoundary (n.nextRef b (posted c)) (posted c))

/-- Row `i`, carrying command `c`, runs it at once. -/
def State.RunsAtOnce (s : State) (t b : Nat) (i : Instr) (c : HostCmd) : Prop :=
  s.Accepts b c →
    exec i s = .next (s.ran t fun n => Node.pump 3
      (Node.ended (n.nextRef b (posted c))
        ((n.fetched b (posted c)).runNow (n.boxOwner b) (n.nextRef b (posted c)) (posted c).bytes (posted c).data)) b)

/-! ## Commands and units -/

/-- Does the part have every unit a command names? (A register write that names an absent unit does fit: it completes with
Unsupported Request, R4.) -/
def commandFits (n : Node) : Instr → Bool
  | .tickBoundary => true
  | .collectionCutoff _ => true
  | .timeExchangeSend _ => true
  | .timeExchange _ port _ => n.hasPort port
  | .exchangeMissed _ port => n.hasPort port
  | .ptpMessage _ port _ => n.hasPort port
  | .ptpSyncSend _ port => n.hasPort port
  | .ppsInEdge _ => true
  | .ppsMissing _ => true
  | .ppsOutPulse _ => true
  | .upstreamAttemptTimeout _ => true
  | .holdoverLimitExceeded _ => true
  | .d2dReplayTimeout _ sheet link _ => n.hasLink sheet link
  | .attend _ port _ => n.hasPort port
  | .append _ port _ => n.hasPort port
  | .attendFwd _ port _ => n.hasPort port
  | .letterShare _ _ sheet => n.hasSheet sheet
  | .routeCacheWalk _ sheet _ _ => n.hasSheet sheet
  | .partialFrame _ port _ => n.hasPort port
  | .replyFrame _ port _ => n.hasPort port
  | .mergeCutoff _ => true
  | .tombstoneExpiry _ => true
  | .refusalEntryExpiry _ => true
  | .runAheadFetch _ sheet => n.hasSheet sheet
  | .pageStaged _ sheet _ => n.hasSheet sheet
  | .stageFromLowerTier _ sheet _ _ _ => n.hasSheet sheet
  | .passStart _ core => n.hasCore core
  | .passComplete _ core _ => n.hasCore core
  | .spadError _ core _ _ _ => n.hasCore core
  | .stagingError _ sheet _ _ _ => n.hasSheet sheet
  | .sealHashDone _ _ _ => true
  | .coreHang _ core => n.hasCore core
  | .coreResetTimeout _ core => n.hasCore core
  | .seqOpen _ box _ => hasBox box
  | .seqClose _ box _ => hasBox box
  | .pageAlloc _ box _ => hasBox box
  | .pageFree _ box _ => hasBox box
  | .pin _ box _ => hasBox box
  | .unpin _ box _ => hasBox box
  | .hintHot _ box _ => hasBox box
  | .hintCold _ box _ => hasBox box
  | .hintShare _ box _ => hasBox box
  | .migrate _ box _ => hasBox box
  | .offer _ port _ => n.hasPort port
  | .accept _ port _ => n.hasPort port
  | .migrationTile _ _ _ => true
  | .moveHashVerified _ _ => true
  | .verified _ port _ => n.hasPort port
  | .commit _ port _ => n.hasPort port
  | .committed _ port _ => n.hasPort port
  | .cancel _ port _ => n.hasPort port
  | .reject _ port _ => n.hasPort port
  | .moveSwitch _ _ => true
  | .migTimeout _ _ => true
  | .swapOutComplete _ _ => true
  | .swapInComplete _ _ => true
  | .heatDecay _ => true
  | .t0IdleDrop _ => true
  | .hbmTrainFail _ quad _ => n.hasQuad quad
  | .hbmRecentre _ quad _ _ => n.hasQuad quad
  | .hbmCorrected _ burst _ => n.hasQuad (addrQuad (burst * 32))
  | .hbmUncorrected _ burst _ _ _ => n.hasQuad (addrQuad (burst * 32))
  | .patrolStart _ quad => n.hasQuad quad
  | .hbmRefresh _ quad _ _ => n.hasQuad quad
  | .hbmRfm _ quad _ _ => n.hasQuad quad
  | .thermalSample _ _ _ _ => true
  | .stackSelfRefreshIdle _ quad => n.hasQuad quad
  | .nmeFill _ box _ => hasBox box
  | .nmeCopy _ box _ => hasBox box
  | .nmeCompare _ box _ => hasBox box
  | .nmeReduce _ box _ => hasBox box
  | .nmeOpStart _ quad => n.hasQuad quad
  | .nmeOpComplete _ _ => true
  | .gzRuleInsert _ _ => true
  | .gzRuleRemove _ _ => true
  | .gzRespread _ sheet => n.hasSheet sheet
  | .respreadNow _ _ => true
  | .gzEntryError _ sheet _ _ _ => n.hasSheet sheet
  | .frameReceived _ port _ => n.hasPort port
  | .egressFrameSend _ port => n.hasPort port
  | .linkFrameSend _ port => n.hasPort port
  | .linkFrame _ port _ => n.hasPort port
  | .retryTimeout _ port => n.hasPort port
  | .linkIdleTimeout _ port => n.hasPort port
  | .laneFault _ port _ => n.hasPort port
  | .portTrained _ port _ _ _ => n.hasPort port
  | .lockGapTimeout _ _ => true
  | .hello _ port _ _ => n.hasPort port
  | .finish _ port _ _ => n.hasPort port
  | .keyExchangeTimeout _ port _ => n.hasPort port
  | .rekeyTrigger _ port _ => n.hasPort port
  | .keyAgeLimit _ port _ => n.hasPort port
  | .oldKeyErase _ port _ => n.hasPort port
  | .neighborSolicitation _ port _ _ => n.hasPort port
  | .deadLetter _ port _ => n.hasPort port
  | .qpCreate _ box _ => hasBox box
  | .qpConnect _ box _ => hasBox box
  | .qpReset _ box _ => hasBox box
  | .qpDestroy _ box _ => hasBox box
  | .qpLifetimeWaitEnd _ _ => true
  | .crWrite _ box _ => hasBox box
  | .crRead _ box _ => hasBox box
  | .crSend _ box _ => hasBox box
  | .crFetchAdd _ box _ => hasBox box
  | .crCompareSwap _ box _ => hasBox box
  | .crWait _ box _ => hasBox box
  | .waitTimeout _ _ => true
  | .write _ port _ => n.hasPort port
  | .readReq _ port _ => n.hasPort port
  | .readResp _ port _ => n.hasPort port
  | .send _ port _ => n.hasPort port
  | .fetchAdd _ port _ => n.hasPort port
  | .compareSwap _ port _ => n.hasPort port
  | .atomicResp _ port _ => n.hasPort port
  | .ack _ port _ => n.hasPort port
  | .nak _ port _ => n.hasPort port
  | .close _ port _ => n.hasPort port
  | .closeAck _ port _ => n.hasPort port
  | .orderedCloseSend _ _ => true
  | .closeAckTimeout _ _ => true
  | .ackDelayTimeout _ _ => true
  | .courierRto _ _ _ => true
  | .rnrRetry _ _ _ => true
  | .courierPace _ _ => true
  | .pathResume _ _ _ => true
  | .contextFetched _ _ => true
  | .contextUe _ _ => true
  | .nodeQpIdle _ _ => true
  | .keyRegister _ box _ => hasBox box
  | .keyRevoke _ box _ => hasBox box
  | .crQpFreedWrite _ _ _ => true
  | .ucieLinkUp _ _ _ => true
  | .ucieModuleDown _ _ _ => true
  | .ucieLinkDown _ => true
  | .ideFailure _ => true
  | .hdmRead _ _ _ => true
  | .hdmWrite _ _ _ _ _ _ => true
  | .bisnpResponse _ _ _ _ => true
  | .recallTimeout _ _ => true
  | .registerWrite _ _ _ _ => true
  | .doorbell _ box _ _ => hasBox box
  | .cplFreeWrite _ box _ => hasBox box
  | .rrFreeWrite _ box _ => hasBox box
  | .pbEnable _ box => hasBox box
  | .pbDisable _ box => hasBox box
  | .pbReset _ box => hasBox box
  | .nop _ box _ => hasBox box
  | .hostAppend _ box _ => hasBox box
  | .hostAttend _ box _ => hasBox box
  | .irqHoldoffEnd _ box => hasBox box
  | .hpHeartbeat _ _ => true
  | .heartbeatCheck _ => true
  | .adopt _ => true
  | .t3WindowEnable _ _ => true
  | .extentGrant _ box _ => hasBox box
  | .extentRenew _ box _ => hasBox box
  | .extentWithdraw _ box _ => hasBox box
  | .renew _ port _ => n.hasPort port
  | .renewed _ port _ => n.hasPort port
  | .refusedAnswer _ port _ => n.hasPort port
  | .renewTimeout _ _ => true
  | .leaseExpiry _ _ => true
  | .extentDrained _ _ => true
  | .chartLoad _ _ => true
  | .chartVerifyDone _ => true
  | .overlayApply _ box _ => hasBox box
  | .overlayStaged _ _ => true
  | .overlaySwitch _ => true
  | .redirectRetirement _ => true
  | .partitionCreate _ box _ => hasBox box
  | .partitionDestroy _ box _ => hasBox box
  | .partitionScrub _ box _ => hasBox box
  | .quadClearDone _ quad => n.hasQuad quad
  | .own _ _ => true
  | .secReturn _ _ => true
  | .reprovision _ _ => true
  | .debugToken _ _ => true
  | .debugLower _ _ => true
  | .advance _ _ => true
  | .tokenExpiry _ => true
  | .getVersion _ _ => true
  | .getCapabilities _ _ _ => true
  | .negotiateAlgorithms _ _ _ => true
  | .getDigests _ _ _ => true
  | .getCertificate _ _ _ _ _ _ => true
  | .challenge _ _ _ _ _ => true
  | .getMeasurements _ _ _ _ _ _ => true
  | .keyExchange _ _ _ _ _ => true
  | .spdmFinish _ _ _ _ _ => true
  | .spdmHeartbeat _ _ _ _ => true
  | .keyUpdate _ _ _ _ _ _ => true
  | .endSession _ _ _ _ => true
  | .vendorDefinedRequest _ _ _ _ _ _ => true
  | .park _ _ => true
  | .standby _ _ => true
  | .opLimit _ _ => true
  | .sheetDoze _ sheet => n.hasSheet sheet
  | .sheetWakeDone _ sheet _ => n.hasSheet sheet
  | .railSettled _ => true
  | .railSettleTimeout _ _ => true
  | .powerSample _ _ => true
  | .extest _ => true
  | .samplePreload _ => true
  | .idcode _ => true
  | .clamp _ => true
  | .highz _ => true
  | .dbgAccess _ => true
  | .bypass _ => true
  | .dbgRead _ _ _ => true
  | .dbgWrite _ _ _ _ => true
  | .readInc _ _ => true
  | .writeInc _ _ _ => true
  | .halt _ => true
  | .resume _ => true
  | .stepTick _ => true
  | .hold _ port _ => n.hasPort port
  | .release _ port _ => n.hasPort port
  | .holdStep _ port _ => n.hasPort port
  | .holdTick _ => true
  | .breakpointTime _ => true
  | .resetLevel1 _ box _ => hasBox box
  | .resetLevel2 _ box _ => hasBox box
  | .resetLevel3 _ box _ => hasBox box
  | .resetLevel4 _ box _ => hasBox box
  | .resetLevel5 _ box _ => hasBox box
  | .rstCtlGo _ _ => true
  | .nodeReset _ _ => true
  | .fatalError _ source sheet link => n.fatalUnit source sheet link
  | .fatalResetDelay _ => true
  | .sheetHang _ sheet => n.hasSheet sheet
  | .hubWatchdog _ => true
  | .resetEscalation _ => true
  | .warmRestartDone _ _ => true
  | .abortSend _ => true
  | .abort _ port _ => n.hasPort port
  | .abortWindowEnd _ => true
  | .releaseAll _ => true
  | .releaseOne _ => true
  | .eyeMonitorSample _ port _ _ _ => n.hasPort port
  | .ucieMarginSample _ _ _ _ => true
  | .guardBandSample _ quad _ => n.hasQuad quad
  | .surveyRecord _ => true
  | .bucketRefill _ => true
  | .alarmFrame _ port _ => n.hasPort port
  | .alertClear _ => true
  | .ringReadAdvance _ _ => true
  | .katDue _ core => n.hasCore core
  | .katComplete _ core _ => n.hasCore core
  | .histogramFlush _ => true
  | .flush _ => true
  | .surveyRead _ box _ => hasBox box
  | .surveyReadDone _ => true
  | .getTid _ => true
  | .getPldmVersion _ _ => true
  | .getPldmTypes _ => true
  | .getPldmCommands _ _ => true
  | .getPdr _ _ => true
  | .getSensorReading _ _ => true
  | .getStateSensorReadings _ _ => true
  | .setEventReceiver _ _ => true
  | .setNumericEffecterValue _ _ _ => true
  | .setStateEffecterStates _ _ _ => true
  | .powerGoodRise _ => true
  | .firmwareVerified _ _ _ => true
  | .unsealDone _ _ _ _ _ => true
  | .sheetPowerUp _ _ sheet _ _ => n.hasSheet sheet
  | .hbmTrained _ _ => true
  | .hbmInitDone _ _ _ => true
  | .systemLayoutDone _ _ => true
  | .readyTimeout _ => true
  | .powerOff _ => true
  | .thermtrip _ _ _ => true
  | .coreFence _ _ => true
  | .unfence _ _ => true
  | .coreClearCnt _ _ => true
  | .soClearCnt _ _ => true
  | .demoteAll _ _ => true
  | .xlClearCnt _ _ => true
  | .flushRc _ _ => true
  | .migClearCnt _ _ => true
  | .pause _ _ _ => true
  | .hbmClearCnt _ _ => true
  | .patrolNow _ _ => true
  | .nmeClearCnt _ _ => true
  | .gzClearCnt _ _ => true
  | .portClearCnt _ _ => true
  | .retrain _ _ => true
  | .rekey _ _ => true
  | .crClearCnt _ _ => true
  | .poolClearCnt _ => true
  | .svyClearCnt _ => true
  | .keyExchangeRetry _ port _ => n.hasPort port
  | .delayRequestSend _ port => n.hasPort port
  | .thermtripRelease _ => true
  | .lowerTreeGenerated _ => true
  | .corePathScrubDone _ _ => true
  | .lowHalfRead _ _ => true

/-- Every waiting command names units the part has. -/
def State.Fits (s : State) : Prop := ∀ c ∈ s.pending, commandFits s.node c = true

end Sys2Proof.Machine
end

