-- ==== Sys2Proof/Certificates/Slice0/Obligations.lean ====
section
/-!
DEFINITION. The statements for the provers.
-/

open Sys2Proof Sys2Proof.Machine

/-! ## The queue, the package, the stops -/

/-- A step takes the command at the front of the queue and runs it with the queue's rest. -/
def Obligations.StepRunsTheFrontCommand : Prop :=
  ∀ (c : Instr) (rest : List Instr) (n : Node), step ⟨n, c :: rest⟩ = exec c ⟨n, rest⟩

/-- With nothing waiting the block idles (the model's choice, log entry 2). -/
def Obligations.EmptyQueueIdles : Prop := ∀ n : Node, step ⟨n, []⟩ = .next ⟨n, []⟩

/-- What a command does neither looks at the commands waiting behind it nor changes them. -/
def Obligations.ExecIgnoresTheQueue : Prop :=
  ∀ (c : Instr) (n : Node) (q q' : List Instr),
    exec c ⟨n, q'⟩ = match exec c ⟨n, q⟩ with
      | .next s => .next ⟨s.node, q'⟩
      | .fault r => .fault r
      | .refused r => .refused r

/-- No command changes the part, its stepping or its serial number, nor the queue. -/
def Obligations.ExecKeepsThePackage : Prop :=
  ∀ (c : Instr) (s s' : State), exec c s = .next s' → s'.node.ident = s.node.ident ∧ s'.pending = s.pending

/-- A command answers a next state when the part has every unit it names, and stops by name when it does not: the one
way a command of this model stops (the model's choice for events that the part cannot see, log entry 4). -/
def Obligations.StopsExactlyOnAbsentUnits : Prop :=
  ∀ (c : Instr) (s : State),
    (commandFits s.node c = true → ∃ n : Node, exec c s = .next ⟨n, s.pending⟩) ∧
    (commandFits s.node c = false → exec c s = .fault .absentUnit)

/-- Waiting commands that name units the part has: an invariant of every step, under which no run of any length stops,
the package stays as it was built and the queue loses one command a step. -/
def Obligations.FittingQueueNeverStops : Prop :=
  ∀ (k : Nat) (s : State), s.Fits →
    ∃ s' : State, Sys2Proof.core.run k s = .next s' ∧ s'.Fits ∧ s'.node.ident = s.node.ident ∧ s'.pending = s.pending.drop k

/-- That invariant, and the canonical form of both memories, hold right after reset. -/
def Obligations.ResetMeetsTheInvariants : Prop :=
  State.reset.Fits ∧ State.reset.node.MemWf ∧ poisonWf State.reset.node.poison ∧ State.reset.node.Quiet

/-- Commands take effect in the order in which they arrived: steps over a queue are the commands of its front executed
one after another, whatever waits behind them. -/
def Obligations.CommandsRunInArrivalOrder : Prop :=
  ∀ (cs rest : List Instr) (n : Node), Sys2Proof.core.run cs.length ⟨n, cs ++ rest⟩ = runAll cs ⟨n, rest⟩

/-! ## Reset and power -/

/-- Right after reset every register field reads its reset value, the ROM runs, and the state is the one that power
coming on leaves in a node that holds nothing but its identity (the part and the stepping are log entry 48's). -/
def Obligations.ResetIsPowerComingOn : Prop :=
  (∀ (f : Fld) (b : Nat), State.reset.node.rd f b = f.reset) ∧ State.reset.pending = [] ∧
  State.reset.node = ({ (default : Node) with ident := State.reset.node.ident } : Node).powerGoodRise ∧ State.reset.node.boot.rom = true ∧ State.reset.node.awake = false

/-- R390: PWR_GOOD falling leaves the node Off with its MRAM, its security state and its counters kept and every debug
authorisation lost; and an Off node stays Off, its MRAM untouched, under every command but POWER_GOOD_RISE. -/
def Obligations.OffIsLeftOnlyByStartUp : Prop :=
  (∀ (s : State) (t : Nat), ∃ n : Node, exec (.powerOff t) s = .next ⟨n, s.pending⟩ ∧ n.Off ∧ n.mram = s.node.mram ∧
    n.sec.st = s.node.sec.st ∧ n.sec.ownerEcdsa = s.node.sec.ownerEcdsa ∧ n.sec.ownerLms = s.node.sec.ownerLms ∧
    n.sec.ctrFw = s.node.sec.ctrFw ∧ n.sec.ctrChart = s.node.sec.ctrChart ∧ n.sec.ctrDebug = s.node.sec.ctrDebug) ∧
  (∀ (c : Instr) (s s' : State), (∀ t, c ≠ .powerGoodRise t) → s.node.Off → exec c s = .next s' →
    s'.node.Off ∧ s'.node.mram = s.node.mram)

/-- POWER_GOOD_RISE takes a node whose thermal trip is released out of Off: the ROM starts, and MRAM is as it was. -/
def Obligations.PowerGoodStartsTheRom : Prop :=
  ∀ (s : State) (t : Nat), s.node.Off → s.node.pins.thermLow = false → s.node.pins.resetLow = false →
    ∃ n : Node, exec (.powerGoodRise t) s = .next ⟨n, s.pending⟩ ∧ n.pins.pwrGood = true ∧ n.boot.rom = true ∧
      n.boot.startNs = n.now ∧ n.mram = s.node.mram ∧ n.hbm = [] ∧ n.regs = [] ∧ n.Quiet

/-- NODE_RESET_N going low: HBM, the key table, the crash dump and the extents are gone, power stays. -/
def Obligations.NodeResetLosesVolatileState : Prop :=
  ∀ (s : State) (t : Nat), s.node.pins.resetLow = false →
    ∃ n : Node, exec (.nodeReset t true) s = .next ⟨n, s.pending⟩ ∧ n.pins.resetLow = true ∧
      n.pins.pwrGood = s.node.pins.pwrGood ∧ n.hbm = [] ∧ n.poison = [] ∧ n.granules = [] ∧ n.courier.keys = [] ∧
      n.pool.exts = [] ∧ n.cores = [] ∧ n.regs = [] ∧ n.time.now = max s.node.time.now t

/-- THERMTRIP: a quad or the hub at 115 °C or more, or a stack at 105 °C or more, drives THERMTRIP_N low and holds the
sensor and the temperature; a lower temperature, or a sensor the part does not have, changes nothing. -/
def Obligations.ThermtripHoldsTheSensor : Prop :=
  ∀ (s : State) (t sensor celsius : Nat), s.node.Quiet → s.node.pins.thermLow = false →
    exec (.thermtrip t sensor celsius) s = .next (s.did t fun n =>
      if (sensor < 32 ∧ n.hasQuad sensor = true ∨ sensor = 32) ∧ 115 ≤ celsius ∨
          64 ≤ sensor ∧ n.hasQuad (sensor - 64) = true ∧ 105 ≤ celsius then
        { n with pins := { n.pins with thermLow := true, tripHeld := some (sensor, celsius) } }
      else n)

/-! ## Memory -/

/-- A store into HBM: the bytes stored read back, every other byte reads as before, bursts written whole lose their
poison and no other poison changes, the canonical forms are kept, nothing else changes. -/
def Obligations.HbmStoreReadsBack : Prop :=
  ∀ (n : Node) (a : Nat) (bs : Bytes), Memory.wf n.hbm = true → poisonWf n.poison →
    (∀ (i : Nat) (h : i < bs.length), (n.hbmStore a bs).hbmByte (a + i) = bs[i]) ∧
    (∀ x, x < a ∨ a + bs.length ≤ x → (n.hbmStore a bs).hbmByte x = n.hbmByte x) ∧
    (∀ b, b ∈ (n.hbmStore a bs).poison ↔ b ∈ n.poison ∧ ¬(a ≤ b * 32 ∧ b * 32 + 32 ≤ a + bs.length)) ∧
    Memory.wf (n.hbmStore a bs).hbm = true ∧ poisonWf (n.hbmStore a bs).poison ∧
    n.hbmStore a bs = { n with hbm := (n.hbmStore a bs).hbm, poison := (n.hbmStore a bs).poison }

/-- Filling a range with zeros: its bytes read 0 and none of its bursts is poisoned, every other byte and burst is as it
was. -/
def Obligations.HbmZeroClearsARange : Prop :=
  ∀ (n : Node) (a len : Nat), Memory.wf n.hbm = true →
    (∀ x, (n.hbmZero a len).hbmByte x = if a ≤ x ∧ x < a + len then 0 else n.hbmByte x) ∧
    (∀ b, b ∈ (n.hbmZero a len).poison ↔ b ∈ n.poison ∧ (b * 32 + 32 ≤ a ∨ a + len ≤ b * 32)) ∧
    Memory.wf (n.hbmZero a len).hbm = true

/-- R180's first fit: over runs that rise and do not meet, the run found is free, lies below the reserved top, and no
lower run of its length is free. -/
def Obligations.FirstFitFindsTheLowestRun : Prop :=
  ∀ (runs : List (Nat × GRun)) (len : Nat), 0 < len →
    runs.Pairwise (fun a b => a.1 + a.2.len ≤ b.1) → (∀ r ∈ runs, 0 < r.2.len ∧ r.1 + r.2.len ≤ reservedGran) →
    (∀ g, firstFit len 0 runs = some g → g + len ≤ reservedGran ∧ (∀ r ∈ runs, r.1 + r.2.len ≤ g ∨ g + len ≤ r.1) ∧
      ∀ g' < g, ∃ r ∈ runs, ¬(r.1 + r.2.len ≤ g' ∨ g' + len ≤ r.1)) ∧
    (firstFit len 0 runs = none → ∀ g, g + len ≤ reservedGran → ∃ r ∈ runs, ¬(r.1 + r.2.len ≤ g ∨ g + len ≤ r.1))

/-- A host read of a hole of the device memory returns poison and is reported with its address. -/
def Obligations.HdmHoleReadsPoison : Prop :=
  ∀ (s : State) (t addr : Nat) (excl : Bool), s.node.Quiet → s.node.hostReach = true → hdmHole (addr / 64 * 64) = true →
    ∃ n : Node, exec (.hdmRead t addr excl) s = .next ⟨n, s.pending⟩ ∧
      n.host.lastRead = some (addr / 64 * 64, [], true) ∧ n.rd R.HP_ERR_STATUS_HDM_HOLE 0 = 1 ∧
      n.hbm = s.node.hbm ∧ n.poison = s.node.poison ∧ n.host.dir = s.node.host.dir ∧ n.host.boxes = s.node.host.boxes

/-! ## Time and ticks -/

/-- R44: two tick numbers compare as the signed 48-bit value of their difference modulo 2^48, and a named tick more than
2^47 ahead counts as past. -/
def Obligations.TickNumbersCompareSigned : Prop :=
  ∀ a b : Nat,
    (tickDiff a b - ((a : Int) - b)) % 2 ^ 48 = 0 ∧ -(2 ^ 47) ≤ tickDiff a b ∧ tickDiff a b < 2 ^ 47 ∧
    ∀ d, 2 ^ 47 < d → d < 2 ^ 48 → tickDiff (a + d) a < 0

/-- Tick k begins at TICK_ORIGIN + k × TICK_PERIOD: the tick in which a time falls is the one whose boundary is the
last at or before it, as long as MER_NS and the boundary do not wrap. -/
def Obligations.TicksBeginAtTheirBoundaries : Prop :=
  ∀ (n : Node) (t : Nat), 0 < n.time.period → n.time.origin ≤ t → t < 2 ^ 64 →
    n.time.origin + n.tickAt t * n.time.period ≤ t ∧ t < n.time.origin + (n.tickAt t + 1) * n.time.period

/-- The low half of MER_NOW read alone latches the high half and the fraction; the high half then reads as
latched, whatever the time is by then; and a 64-bit read is one value. -/
def Obligations.LowHalfReadLatchesMerNow : Prop :=
  ∀ (s : State) (t : Nat), s.node.Quiet → s.node.hostReach = true → max s.node.time.now t < 2 ^ 64 →
    (s.node.readReg 0x10100).1 = s.node.time.now % 2 ^ 64 ∧
    ∃ n : Node, exec (.lowHalfRead t 0x10100) s = .next ⟨n, s.pending⟩ ∧ n.host.regData = max s.node.time.now t % 2 ^ 32 ∧
      n.time.latch = max s.node.time.now t / 2 ^ 32 ∧ n.time.latchFrac = s.node.time.frac ∧
      ∀ t', ∃ m : Node, exec (.lowHalfRead t' 0x10104) ⟨n, s.pending⟩ = .next ⟨m, s.pending⟩ ∧
        m.host.regData = max s.node.time.now t / 2 ^ 32 ∧ m.time.latch = n.time.latch

/-- The holdover limit: a node in HOLDOVER without a source, whose estimate may by now have grown past the limit at 10 ns in
a second, becomes UNLOCKED with its estimate past the limit, sets MER_STATUS.UNLOCKED_ENTERED and raises an ALARM; at any
earlier time, and in any other state of the servo, nothing changes. -/
def Obligations.HoldoverLimitUnlocks : Prop :=
  ∀ (s : State) (t : Nat), s.node.Quiet → s.node.awake = true →
    exec (.holdoverLimitExceeded t) s = .next (s.did t fun n =>
      if n.time.st = .holdover ∧ n.time.source = false ∧
          n.holdLimit < n.time.lockedErr + (max s.node.time.now t - n.time.growAt) / 100000000 then
        ((n.modTime fun x => { x with errEst := max x.errEst (n.holdLimit + 1), st := .unlocked }).wr
          R.MER_STATUS_UNLOCKED_ENTERED 0 1).alarm .hub 0 0x0F 1
      else n)

/-- TIME exchanges: a missed exchange on a port that is not the upstream is counted there, ends its run of good
exchanges and changes nothing else. -/
def Obligations.MissedExchangeIsCounted : Prop :=
  ∀ (s : State) (t port : Nat), s.node.Quiet → s.node.awake = true → s.node.hasPort port = true → s.node.follows = false →
    exec (.exchangeMissed t port) s = .next (s.did t fun n => { n with time := { n.time with
      ports := mapMod n.time.ports port fun x => { x with missed := x.missed + 1, good := 0 } } })

/-! ## Letters, pages, cores -/

/-- Context tombstones, and what the node keeps of its own letters of tickets, leave at their DEADLINE, and only they. -/
def Obligations.TombstonesLeaveAtTheirDeadline : Prop :=
  ∀ (s : State) (t : Nat), s.node.Quiet → s.node.awake = true →
    exec (.tombstoneExpiry t) s = .next (s.did t fun n => { n with office := { n.office with
      merges := n.office.merges.filter fun m => m.live || decide (max s.node.time.now t < m.deadline)
      tickets := n.office.tickets.filter fun x => decide (max s.node.time.now t < x.deadline) } })

/-- Refusal-table entries leave at their DEADLINE, and only they. -/
def Obligations.RefusalsLeaveAtTheirDeadline : Prop :=
  ∀ (s : State) (t : Nat), s.node.Quiet → s.node.awake = true →
    exec (.refusalEntryExpiry t) s = .next (s.did t fun n => { n with office := { n.office with
      refusals := n.office.refusals.filter fun r => decide (max s.node.time.now t < r.deadline) } })

/-- A core that is not ready 10 µs after its reset began reads HUNG and is fenced; before that nothing changes. -/
def Obligations.CoreResetTimesOut : Prop :=
  ∀ (s : State) (t core : Nat), s.node.Quiet → s.node.awake = true → s.node.hasCore core = true →
    exec (.coreResetTimeout t core) s = .next (s.did t fun n =>
      if (n.core core).mode = .resetting ∧ (n.core core).resetAt + 10000 ≤ max s.node.time.now t then
        { n with cores := mapMod n.cores core fun x => { x with mode := .hung, fenceKat := true } }
      else n)

/-- The combine of R76: the identity on either side leaves m, l, o and the NaN mark of the other operand as they are, to the
last bit; an operand whose m is NaN or +∞ makes the result the canonical NaN partial with the merged score lists. -/
def Obligations.CombineWithTheIdentity : Prop :=
  ∀ (k d : Nat) (p q : Partial),
    (isNaN p.m = false → p.m ≠ f32PosInf →
      (combine k p (identP d)).m = p.m ∧ (combine k p (identP d)).l = p.l ∧ (combine k p (identP d)).o = p.o ∧
      (combine k p (identP d)).nan = p.nan) ∧
    (isNaN p.m = false → p.m ≠ f32PosInf → p.m ≠ f32NegInf →
      (combine k (identP d) p).m = p.m ∧ (combine k (identP d) p).l = p.l ∧ (combine k (identP d) p).o = p.o ∧
      (combine k (identP d) p).nan = p.nan) ∧
    (isNaN p.m = true ∨ isNaN q.m = true ∨ p.m = f32PosInf ∨ q.m = f32PosInf →
      combine k p q = { nanP p.o.length with top := topMerge k p.top q.top })

/-! ## Control writes and counters -/

/-- Control writes of the sheets, quads and cores that act at a boundary are queued for it and change nothing else. -/
def Obligations.ControlWritesWaitForTheBoundary : Prop :=
  ∀ (s : State) (t : Nat), s.node.Quiet → s.node.hostReach = true →
    (∀ core, s.node.hasCore core = true →
      exec (.coreFence t core) s = .next (s.did t fun n => { n with waits := n.waits ++ [.coreFence core] }) ∧
      exec (.unfence t core) s = .next (s.did t fun n => { n with waits := n.waits ++ [.coreUnfence core] }) ∧
      exec (.coreClearCnt t core) s = .next (s.did t fun n => { n with waits := n.waits ++ [.coreClear core] })) ∧
    (∀ sheet, s.node.hasSheet sheet = true →
      exec (.soClearCnt t sheet) s = .next (s.did t fun n => { n with waits := n.waits ++ [.soClear sheet] }) ∧
      exec (.demoteAll t sheet) s = .next (s.did t fun n => { n with waits := n.waits ++ [.demote sheet] }) ∧
      exec (.xlClearCnt t sheet) s = .next (s.did t fun n => { n with waits := n.waits ++ [.xlClear sheet] }) ∧
      exec (.flushRc t sheet) s = .next (s.did t fun n => { n with waits := n.waits ++ [.flushRc sheet] })) ∧
    (∀ quad, s.node.hasQuad quad = true →
      exec (.migClearCnt t quad) s = .next (s.did t fun n => { n with waits := n.waits ++ [.migClear quad] }))

/-- CLEAR_CNT of an HBM controller, a near-memory engine and the pool: their counters read their reset values, every
other register field reads as before, nothing else changes. -/
def Obligations.CountersClearAtOnce : Prop :=
  ∀ (s : State) (t quad : Nat), s.node.Quiet → s.node.hostReach = true → s.node.hasQuad quad = true →
    (∃ n : Node, exec (.hbmClearCnt t quad) s = .next ⟨n, s.pending⟩ ∧ n = { s.node.at t with regs := n.regs } ∧
      (∀ f ∈ hbmCounters, n.rd f (quadBase quad) = f.reset) ∧
      ∀ f b, (∀ g ∈ hbmCounters, g.key (quadBase quad) ≠ f.key b) → n.rd f b = s.node.rd f b) ∧
    (∃ n : Node, exec (.nmeClearCnt t quad) s = .next ⟨n, s.pending⟩ ∧ n = { s.node.at t with regs := n.regs } ∧
      (∀ f ∈ nmeCounters, n.rd f (quadBase quad) = f.reset) ∧
      ∀ f b, (∀ g ∈ nmeCounters, g.key (quadBase quad) ≠ f.key b) → n.rd f b = s.node.rd f b) ∧
    (∃ n : Node, exec (.poolClearCnt t) s = .next ⟨n, s.pending⟩ ∧ n = { s.node.at t with regs := n.regs } ∧
      (∀ f ∈ poolCounters, n.rd f 0 = f.reset) ∧
      ∀ f b, (∀ g ∈ poolCounters, g.key 0 ≠ f.key b) → n.rd f b = s.node.rd f b)

/-- A register write in the window of an absent sheet completes with Unsupported Request: it sets BAD_ACCESS with the
address and has no other effect on the units. -/
def Obligations.AbsentSheetAnswersUnsupported : Prop :=
  ∀ (s : State) (t a width v : Nat), s.node.Quiet → s.node.hostReach = true → s.node.absentAddr a = true →
    ∃ n : Node, exec (.registerWrite t a width v) s = .next ⟨n, s.pending⟩ ∧ n.host.ur = s.node.host.ur + 1 ∧
      n.rd R.HP_ERR_STATUS_BAD_ACCESS 0 = 1 ∧ n.waits = s.node.waits ∧ n.hbm = s.node.hbm ∧ n.cores = s.node.cores ∧
      n.quads = s.node.quads ∧ n.ports = s.node.ports ∧ n.host.boxes = s.node.host.boxes

/-- HBM_RFM counts refresh-management commands in a counter that saturates. -/
def Obligations.RefreshManagementIsCounted : Prop :=
  ∀ (s : State) (t quad channel bank : Nat), s.node.Quiet → s.node.awake = true → s.node.hasQuad quad = true →
    ∃ n : Node, exec (.hbmRfm t quad channel bank) s = .next ⟨n, s.pending⟩ ∧ n = { s.node.at t with regs := n.regs } ∧
      n.rd R.HBM_RFM_CNT_RFM (quadBase quad) =
        min (s.node.rd R.HBM_RFM_CNT_RFM (quadBase quad) + 1) (2 ^ R.HBM_RFM_CNT_RFM.width - 1) ∧
      ∀ f b, f.key b ≠ R.HBM_RFM_CNT_RFM.key (quadBase quad) → n.rd f b = s.node.rd f b

/-! ## The host port -/

/-- The free-running indices the host writes, CPL_FREE and RR_FREE: a write never lowers the index nor passes what the
node has written; any other write is ignored. -/
def Obligations.FreeIndicesStayInBounds : Prop :=
  ∀ (s : State) (t box v : Nat), s.node.Quiet → s.node.hostReach = true → hasBox box = true →
    exec (.cplFreeWrite t box v) s = .next (s.did t fun n =>
      if (v + 2 ^ 32 - (n.box box).cplFree) % 2 ^ 32 ≤ ((n.box box).done + 2 ^ 32 - (n.box box).cplFree) % 2 ^ 32 then
        { n with host := { n.host with boxes := mapMod n.host.boxes box fun x => { x with cplFree := v % 2 ^ 32 } } }
      else n) ∧
    exec (.rrFreeWrite t box v) s = .next (s.did t fun n =>
      if (v + 2 ^ 32 - (n.box box).rrFree) % 2 ^ 32 ≤ ((n.box box).rrTail + 2 ^ 32 - (n.box box).rrFree) % 2 ^ 32 then
        { n with host := { n.host with boxes := mapMod n.host.boxes box fun x => { x with rrFree := v % 2 ^ 32 } } }
      else n)

/-- A doorbell that claims more commands than the ring holds moves an enabled post box to ERROR and fetches nothing. -/
def Obligations.FaultyDoorbellStopsTheBox : Prop :=
  ∀ (s : State) (t box tail : Nat) (slots : List HostCmd), s.node.Quiet → s.node.hostReach = true → hasBox box = true →
    (s.node.box box).st = .enabled →
    2 ^ s.node.rd R.PB_CFG_CMD_LOG2 (boxBase box) < (tail + 2 ^ 32 - (s.node.box box).head) % 2 ^ 32 →
    ∃ n : Node, exec (.doorbell t box tail slots) s = .next ⟨n, s.pending⟩ ∧ (n.box box).st = .error ∧
      (n.box box).head = (s.node.box box).head ∧ (n.box box).tail = tail % 2 ^ 32 ∧ (n.box box).posted = [] ∧
      ∀ b, b ≠ box → n.box b = s.node.box b

/-- A heartbeat while the node waits for its host makes the host ACTIVE and starts the monitoring; later ones mark the
present period. -/
def Obligations.HeartbeatMakesTheHostActive : Prop :=
  ∀ (s : State) (t v : Nat), s.node.Quiet → s.node.hostReach = true →
    ∃ n : Node, exec (.hpHeartbeat t v) s = .next ⟨n, s.pending⟩ ∧ n.host.beat = true ∧
      (s.node.host.st = .waiting → n.host.st = .active ∧ n.host.monitoring = true ∧ n.host.misses = 0) ∧
      (s.node.host.st ≠ .waiting → n.host = { s.node.host with beat := true }) ∧
      n.hbm = s.node.hbm ∧ n.host.boxes = s.node.host.boxes ∧ n.waits = s.node.waits

/-! ## Post boxes run commands -/

/-- A posted boundary command whose checks pass is fetched and queued for its boundary, unless its named tick is past. -/
def Obligations.BoundaryCommandsAreQueued : Prop :=
  ∀ (s : State) (t box : Nat) (c : HostCmd), s.node.hostReach = true → hasBox box = true →
    s.Queues t box (.seqOpen t box c) (withOp 0x10 c) ∧
    s.Queues t box (.seqClose t box c) (withOp 0x11 c) ∧
    s.Queues t box (.pageAlloc t box c) (withOp 0x12 c) ∧
    s.Queues t box (.pageFree t box c) (withOp 0x13 c) ∧
    s.Queues t box (.pin t box c) (withOp 0x18 c) ∧
    s.Queues t box (.unpin t box c) (withOp 0x19 c) ∧
    s.Queues t box (.hintHot t box c) (withByte 0x1F 1 (withOp 0x17 c)) ∧
    s.Queues t box (.hintCold t box c) (withByte 0x1F 2 (withOp 0x17 c)) ∧
    s.Queues t box (.hintShare t box c) (withByte 0x1F 3 (withOp 0x17 c)) ∧
    s.Queues t box (.migrate t box c) (withOp 0x16 c) ∧
    s.Queues t box (.keyRegister t box c) (withOp 0x20 c) ∧
    s.Queues t box (.keyRevoke t box c) (withOp 0x21 c) ∧
    s.Queues t box (.extentGrant t box c) (withOp 0x22 c) ∧
    s.Queues t box (.extentWithdraw t box c) (withOp 0x24 c) ∧
    s.Queues t box (.partitionCreate t box c) (withOp 0x51 c) ∧
    s.Queues t box (.partitionDestroy t box c) (withOp 0x52 c) ∧
    s.Queues t box (.partitionScrub t box c) (withOp 0x53 c)

/-- A posted command of the others whose checks pass is fetched and run at once. -/
def Obligations.ImmediateCommandsRun : Prop :=
  ∀ (s : State) (t box : Nat) (c : HostCmd), s.node.hostReach = true → hasBox box = true →
    s.RunsAtOnce t box (.nmeFill t box c) (withOp 0x40 c) ∧
    s.RunsAtOnce t box (.nmeCopy t box c) (withOp 0x41 c) ∧
    s.RunsAtOnce t box (.nmeCompare t box c) (withOp 0x42 c) ∧
    s.RunsAtOnce t box (.nmeReduce t box c) (withOp 0x43 c) ∧
    s.RunsAtOnce t box (.qpCreate t box c) (withOp 0x30 c) ∧
    s.RunsAtOnce t box (.qpConnect t box c) (withOp 0x31 c) ∧
    s.RunsAtOnce t box (.qpReset t box c) (withOp 0x32 c) ∧
    s.RunsAtOnce t box (.qpDestroy t box c) (withOp 0x33 c) ∧
    s.RunsAtOnce t box (.crWrite t box c) (withOp 0x34 c) ∧
    s.RunsAtOnce t box (.crRead t box c) (withOp 0x35 c) ∧
    s.RunsAtOnce t box (.crSend t box c) (withOp 0x36 c) ∧
    s.RunsAtOnce t box (.crFetchAdd t box c) (withOp 0x37 c) ∧
    s.RunsAtOnce t box (.crCompareSwap t box c) (withOp 0x38 c) ∧
    s.RunsAtOnce t box (.crWait t box c) (withOp 0x39 c) ∧
    s.RunsAtOnce t box (.nop t box c) (withOp 0x00 c) ∧
    s.RunsAtOnce t box (.hostAppend t box c) (withOp 0x14 c) ∧
    s.RunsAtOnce t box (.hostAttend t box c) (withOp 0x15 c) ∧
    s.RunsAtOnce t box (.extentRenew t box c) (withOp 0x23 c) ∧
    s.RunsAtOnce t box (.overlayApply t box c) (withOp 0x50 c) ∧
    s.RunsAtOnce t box (.resetLevel1 t box c) (withLevel 1 (withOp 0x61 c)) ∧
    s.RunsAtOnce t box (.resetLevel2 t box c) (withLevel 2 (withOp 0x61 c)) ∧
    s.RunsAtOnce t box (.resetLevel3 t box c) (withLevel 3 (withOp 0x61 c)) ∧
    s.RunsAtOnce t box (.resetLevel4 t box c) (withLevel 4 (withOp 0x61 c)) ∧
    s.RunsAtOnce t box (.resetLevel5 t box c) (withLevel 5 (withOp 0x61 c)) ∧
    s.RunsAtOnce t box (.surveyRead t box c) (withOp 0x60 c)

/-! ## Courier, Gazetteer, pool, fabric -/

/-- The host's count of consumed messages frees receive slots; a write that lowers it is ignored; one that stands makes the
pair's next acknowledgement due (log entry 106). -/
def Obligations.ConsumedCountFreesReceiveSlots : Prop :=
  ∀ (s : State) (t qpn v : Nat), s.node.Quiet → s.node.hostReach = true →
    exec (.crQpFreedWrite t qpn v) s = .next (s.did t fun n =>
      if (n.qp qpn).st = .free ∨ v % 2 ^ 64 < (n.qp qpn).freed then n
      else { n with courier := { n.courier with qps := mapMod n.courier.qps qpn fun q => { q with
        freed := v % 2 ^ 64, ackAt := some (q.ackAt.getD (max s.node.time.now t)) } } })

/-- A rule whose fields the Gazetteer does not take is refused with RESULT 3 and the rules stay as they are. -/
def Obligations.BadRuleIsRefused : Prop :=
  ∀ (s : State) (t sheet : Nat), s.node.Quiet → s.node.hostReach = true → s.node.hasSheet sheet = true →
    (s.node.cmdRule sheet).bad = true → (s.node.at t).ruleBusy sheet = false →
    exec (.gzRuleInsert t sheet) s = .next (s.did t fun n =>
      { n with gz := mapMod n.gz sheet fun x => { x with result := 3 } })

/-- A lease that runs past the boundary of the tick in force is not withdrawn. -/
def Obligations.LeaseLastsUntilItsExpiry : Prop :=
  ∀ (s : State) (t ext : Nat), s.node.Quiet → s.node.awake = true →
    ((s.node.ext ext).st ≠ .granted ∨ (s.node.at t).tickStart < (s.node.ext ext).expiry) →
    exec (.leaseExpiry t ext) s = .next (s.did t fun n => n)

/-- The old key of a link is erased at the end of its time and not before. -/
def Obligations.OldKeyIsErasedInTime : Prop :=
  ∀ (s : State) (t port peer : Nat), s.node.Quiet → s.node.awake = true → s.node.hasPort port = true →
    exec (.oldKeyErase t port peer) s = .next (s.did t fun n =>
      match (n.assoc port peer).oldUntil with
      | some e =>
        if e ≤ max s.node.time.now t then
          { n with ports := mapMod n.ports port fun p => { p with assocs := mapMod p.assocs peer fun a =>
            { a with oldLive := false, oldUntil := none, oldKey := [] } } }
        else n
      | none => n)

/-- R52: a packet whose DEADLINE is at or before now plus the guard in use is dropped and never consumed, whatever its
destination. -/
def Obligations.ExpiredPacketsAreDropped : Prop :=
  ∀ (n : Node) (port : Nat) (p : Packet),
    let m := n.traceRec 2 (.port port 0) none
    p.deadline ≤ m.now + m.guardNow → n.deliver port p = (m.freeCredits port p).dropAt port p 1

/-! ## Chart, security, power, debug, Survey, PLDM -/

/-- CHART_CTL.LOAD: a node that waits for a chart, or has rejected one, with a readable source and a sound owner area begins
verifying the bytes named, none where they hold an uncorrected error in HBM (the model's choice, log entry 111); otherwise
nothing changes. -/
def Obligations.ChartLoadBeginsVerifying : Prop :=
  ∀ (s : State) (t : Nat) (image : Bytes), s.node.Quiet → s.node.hostReach = true →
    exec (.chartLoad t image) s = .next (s.did t fun n =>
      if (n.chart.st = .waiting ∨ n.chart.st = .rejected) ∧
          (bitAt (n.rd R.CHART_SRC_ADDR 0) 63 = true ∨ n.boot.hbmReady = true) ∧ n.boot.ownerErr = false then
        { n with chart := { n.chart with st := .verifying
                                         loading := if bitAt (n.rd R.CHART_SRC_ADDR 0) 63 = false ∧
                                             n.poisoned (n.rd R.CHART_SRC_ADDR 0 % 2 ^ 41) (n.rd R.CHART_LEN_BYTES 0) = true then []
                                           else n.namedBytes (n.rd R.CHART_SRC_ADDR 0) (n.rd R.CHART_LEN_BYTES 0) image } }
      else n)

/-- A token lives until the first boundary at or after its NOT_AFTER; then it is gone, TOKEN_EXPIRED is set and the level in
force is the free level. -/
def Obligations.TokenEndsAtNotAfter : Prop :=
  ∀ (s : State) (t : Nat), s.node.Quiet → s.node.awake = true →
    (∀ k, s.node.sec.token = some k → (s.node.at t).tickStart < k.notAfter →
      exec (.tokenExpiry t) s = .next (s.did t fun n => n)) ∧
    (∀ k, s.node.sec.token = some k → k.notAfter ≤ (s.node.at t).tickStart →
      ∃ n : Node, exec (.tokenExpiry t) s = .next ⟨n, s.pending⟩ ∧ n.sec.token = none ∧
        n.sec.level = s.node.freeLevel ∧ n.rd R.SEC_ERR_STATUS_TOKEN_EXPIRED 0 = 1)

/-- PARK, STANDBY and OP_LIMIT: the field reads as written, PARK only for sheets the part has; no other field changes. -/
def Obligations.PowerRequestsReadBack : Prop :=
  ∀ (s : State) (t : Nat), s.node.Quiet → s.node.hostReach = true →
    (∀ mask, ∃ n : Node, exec (.park t mask) s = .next ⟨n, s.pending⟩ ∧ n = { s.node.at t with regs := n.regs } ∧
      n.rd R.PWR_CTL_PARK 0 = mask &&& s.node.sheetMask ∧ ∀ f b, f.key b ≠ R.PWR_CTL_PARK.key 0 → n.rd f b = s.node.rd f b) ∧
    (∀ on, ∃ n : Node, exec (.standby t on) s = .next ⟨n, s.pending⟩ ∧
      n = { s.node.at t with regs := n.regs, pldm := { s.node.pldm with hostWrote := s.node.pldm.hostWrote ||| 2 } } ∧
      n.rd R.PWR_CTL_STANDBY 0 = b2n on ∧ ∀ f b, f.key b ≠ R.PWR_CTL_STANDBY.key 0 → n.rd f b = s.node.rd f b) ∧
    (∀ point < 4, ∃ n : Node, exec (.opLimit t point) s = .next ⟨n, s.pending⟩ ∧
      n = { s.node.at t with regs := n.regs, pldm := { s.node.pldm with hostWrote := s.node.pldm.hostWrote ||| 1 } } ∧
      n.rd R.PWR_CFG_OP_LIMIT 0 = point ∧ ∀ f b, f.key b ≠ R.PWR_CFG_OP_LIMIT.key 0 → n.rd f b = s.node.rd f b)

/-- Rails that have settled let the raised operating point take effect; with no raise under way nothing changes. -/
def Obligations.SettledRailsAreNoted : Prop :=
  ∀ (s : State) (t : Nat), s.node.Quiet → s.node.awake = true →
    exec (.railSettled t) s = .next (s.did t fun n =>
      if n.power.raising.isSome = true then { n with power := { n.power with settled := true } } else n)

/-- R398: IDCODE puts the identification word into the data register: STEPPING, PART_CODE, the manufacturer code, 1. -/
def Obligations.IdcodeWordIsRight : Prop :=
  ∀ (s : State) (t : Nat), s.node.Quiet → s.node.pins.pwrGood = true →
    ∃ n : Node, exec (.idcode t) s = .next ⟨n, s.pending⟩ ∧ bits n.dbg.dr 28 4 = s.node.ident.stepping % 16 ∧
      bits n.dbg.dr 12 16 = s.node.ident.part.code ∧ bits n.dbg.dr 1 11 = 0x2E3 ∧ bits n.dbg.dr 0 1 = 1 ∧
      n.dbg.ir = irIdcode ∧ n = { s.node.at t with dbg := n.dbg }

/-- DBG_ACCESS needs debug level 1 and the node out of reset: without either the port falls back to BYPASS. -/
def Obligations.DebugAccessNeedsALevel : Prop :=
  ∀ (s : State) (t : Nat), s.node.Quiet → s.node.pins.pwrGood = true →
    exec (.dbgAccess t) s = .next (s.did t fun n => { n with dbg :=
      if 1 ≤ n.sec.level ∧ n.pins.resetLow = false then { n.dbg with ir := irAccess, refused := false, outputs := 0, dr := 0 }
      else { n.dbg with ir := irBypass, refused := true, outputs := 0, dr := 0 } })

/-- The host's READ index of the log ring moves only forward and never past WRITE; ALERT is cleared by its write. -/
def Obligations.SurveyRegistersFollowTheHost : Prop :=
  ∀ (s : State) (t : Nat), s.node.Quiet → s.node.hostReach = true →
    (∀ v, exec (.ringReadAdvance t v) s = .next (s.did t fun n =>
      if (v + 2 ^ 32 - n.rd R.SVY_RING_IDX_READ 0) % 2 ^ 32 ≤
          (n.rd R.SVY_RING_IDX_WRITE 0 + 2 ^ 32 - n.rd R.SVY_RING_IDX_READ 0) % 2 ^ 32 then
        n.wr R.SVY_RING_IDX_READ 0 (v % 2 ^ 32)
      else n)) ∧
    ∃ n : Node, exec (.alertClear t) s = .next ⟨n, s.pending⟩ ∧ n = { s.node.at t with regs := n.regs } ∧
      n.rd R.SVY_STATUS_ALERT 0 = 0 ∧ ∀ f b, f.key b ≠ R.SVY_STATUS_ALERT.key 0 → n.rd f b = s.node.rd f b

/-- GET_TID answers success (the code is log entry 41's) and the terminus identifier the controller has assigned. -/
def Obligations.GetTidAnswersTheTid : Prop :=
  ∀ (s : State) (t : Nat), s.node.Quiet → s.node.awake = true →
    exec (.getTid t) s = .next (s.did t fun n => { n with pldm := { n.pldm with answer := [pldmOk, n.pldm.tid] } })

/-- GET_VERSION begins an SPDM connection anew: whatever it had negotiated is dropped and the version answer stands (its code
is log entry 40's). -/
def Obligations.GetVersionBeginsAnew : Prop :=
  ∀ (s : State) (t conn : Nat), s.node.Quiet → s.node.spdmLink conn = true → s.node.spdmReady = true →
    ∃ n : Node, exec (.getVersion t conn) s = .next ⟨n, s.pending⟩ ∧ (n.conn conn).stage = 1 ∧
      (n.conn conn).sessions = [] ∧ (n.conn conn).last.code = 0x04 ∧ n = { s.node.at t with spdm := n.spdm } ∧
      ∀ c, c ≠ conn → n.conn c = s.node.conn c

/-! ## Every command completes

Each row, its hypotheses on the state and the operands alone, and the next state: the row's own effect on the node at the
time of the event, with what it sets off. -/

/-- Boundaries, exchanges, pulses and die-to-die links: in a node that runs firmware each event has the effect its rule gives. -/
def Obligations.TimeEventsRun : Prop :=
  ∀ (s : State) (t : Nat),
  (s.node.ticking = true → s.node.awake = true → s.node.err.warmAt = none → s.node.barred s.node.nextTick.1 = false →
    ((s.node.at s.node.nextTick.2).action1 s.node.nextTick.1).err.warmAt = none →
    ((s.node.at s.node.nextTick.2).action1 s.node.nextTick.1).pins.pwrcycLow = false →
    ((s.node.at s.node.nextTick.2).action1 s.node.nextTick.1).action2.barred
      ((s.node.at s.node.nextTick.2).action1 s.node.nextTick.1).action2.time.tick = false →
    exec .tickBoundary s = .next { s with node := s.node.change fun n =>
      (((n.at n.nextTick.2).action1 n.nextTick.1).action2.actions
        ((n.at n.nextTick.2).action1 n.nextTick.1).action2.now).settle }) ∧
  (s.node.awake = true → exec (.collectionCutoff t) s = .next (s.ran t id)) ∧
  (s.node.awake = true → exec (.timeExchangeSend t) s = .next (s.ran t fun n => n.sendExchanges)) ∧
  (∀ (port : Nat) (m : TimeMsg), s.node.awake = true → s.node.hasPort port = true →
    exec (.timeExchange t port m) s = .next (s.ran t fun n => n.timeExchange port m)) ∧
  (∀ (port : Nat), s.node.awake = true → s.node.hasPort port = true → exec (.exchangeMissed t port) s =
     .next (s.ran t fun n => n.exchangeMissed port)) ∧
  (∀ (port : Nat) (m : PtpMsg), s.node.awake = true → s.node.hasPort port = true →
    exec (.ptpMessage t port m) s = .next (s.ran t fun n => n.ptpMessage port m)) ∧
  (∀ (port : Nat), s.node.awake = true → s.node.hasPort port = true → exec (.ptpSyncSend t port) s =
     .next (s.ran t fun n => n.ptpSync port)) ∧
  (∀ (port : Nat), s.node.awake = true → s.node.hasPort port = true → exec (.delayRequestSend t port) s =
     .next (s.ran t fun n => n.delayRequest port)) ∧
  (s.node.awake = true → exec (.ppsInEdge t) s = .next (s.ran t fun n => n.ppsEdge)) ∧
  (s.node.awake = true → exec (.ppsMissing t) s = .next (s.ran t fun n => n.ppsMissing)) ∧
  (s.node.awake = true → exec (.ppsOutPulse t) s = .next (s.ran t fun n => n.ppsOut)) ∧
  (s.node.awake = true → exec (.upstreamAttemptTimeout t) s = .next (s.ran t fun n => n.attemptTimeout)) ∧
  (s.node.awake = true → exec (.holdoverLimitExceeded t) s = .next (s.ran t fun n => n.holdoverLimit)) ∧
  (∀ (sheet link : Nat) (trained : Bool), s.node.awake = true → s.node.hasLink sheet link = true →
    exec (.d2dReplayTimeout t sheet link trained) s = .next (s.ran t fun n => n.d2dReplayTimeout sheet link trained))

/-- Shares, walks, cut-offs, expiries, staging, passes and the faults of cores and staging have their effect in a node that runs firmware. -/
def Obligations.LetterAndPassEventsRun : Prop :=
  ∀ (s : State) (t : Nat),
  (∀ (ctx sheet : Nat), s.node.awake = true → s.node.hasSheet sheet = true → exec (.letterShare t ctx sheet) s =
     .next (s.ran t fun n => n.shareArrives ctx sheet)) ∧
  (∀ (sheet seq : Nat) (w : SlotWalk), s.node.awake = true → s.node.hasSheet sheet = true →
    exec (.routeCacheWalk t sheet seq w) s = .next (s.ran t fun n => n.routeWalk sheet seq w.slot w.parity)) ∧
  (s.node.awake = true → exec (.mergeCutoff t) s = .next (s.ran t fun n => n.mergeCutoffs)) ∧
  (s.node.awake = true → exec (.tombstoneExpiry t) s = .next (s.ran t fun n => n.expireTombs)) ∧
  (s.node.awake = true → exec (.refusalEntryExpiry t) s = .next (s.ran t fun n => n.expireRefusals)) ∧
  (∀ (sheet : Nat), s.node.awake = true → s.node.hasSheet sheet = true → exec (.runAheadFetch t sheet) s =
     .next (s.ran t fun n => n.pumpStaging sheet)) ∧
  (∀ (sheet : Nat) (part : StagedPart), s.node.awake = true → s.node.hasSheet sheet = true →
    exec (.pageStaged t sheet part) s =
     .next (s.ran t fun n => n.pageStaged sheet part.key part.granules)) ∧
  (∀ (sheet key : Nat) (data : Bytes) (bad : Bool), s.node.awake = true → s.node.hasSheet sheet = true →
    exec (.stageFromLowerTier t sheet key data bad) s = .next (s.ran t fun n => n.stagedLower sheet key data bad)) ∧
  (∀ (core : Nat), s.node.awake = true → s.node.hasCore core = true → exec (.passStart t core) s =
     .next (s.ran t fun n => n.passStart core)) ∧
  (∀ (core : Nat) (upsets : List Upset), s.node.awake = true → s.node.hasCore core = true →
    exec (.passComplete t core upsets) s = .next (s.ran t fun n => n.passComplete core upsets)) ∧
  (∀ (core offset bit : Nat) (uncorrected : Bool), s.node.awake = true → s.node.hasCore core = true →
    exec (.spadError t core offset bit uncorrected) s = .next (s.ran t fun n => n.spadError core offset uncorrected)) ∧
  (∀ (sheet kind which : Nat) (uncorrected : Bool), s.node.awake = true → s.node.hasSheet sheet = true →
    exec (.stagingError t sheet kind which uncorrected) s =
     .next (s.ran t fun n => n.stagingError sheet kind which uncorrected)) ∧
  (∀ (seq slot : Nat), s.node.awake = true → exec (.sealHashDone t seq slot) s =
     .next (s.ran t fun n => n.sealHashed (leafKey seq slot))) ∧
  (∀ (core : Nat), s.node.awake = true → s.node.hasCore core = true → (s.node.core core).mode = .normal →
    exec (.coreHang t core) s = .next (s.ran t fun n => n.hangCore core)) ∧
  (∀ (core : Nat), s.node.awake = true → s.node.hasCore core = true → exec (.coreResetTimeout t core) s =
     .next (s.ran t fun n => n.coreResetTimeout core))

/-- A packet that a port hands up (it is UP, in a node that runs and is in no warm restart) is delivered as its row's kind. -/
def Obligations.PacketsAreDelivered : Prop :=
  ∀ (s : State) (t : Nat),
  (∀ (port : Nat) (p : Packet), s.node.hasPort port = true → s.node.portHands port = true →
    exec (.attend t port p) s = .next (s.ran t fun n => n.deliver port (ofType ptLetter 1 p))) ∧
  (∀ (port : Nat) (p : Packet), s.node.hasPort port = true → s.node.portHands port = true →
    exec (.append t port p) s = .next (s.ran t fun n => n.deliver port (ofType ptLetter 2 p))) ∧
  (∀ (port : Nat) (p : Packet), s.node.hasPort port = true → s.node.portHands port = true →
    exec (.attendFwd t port p) s = .next (s.ran t fun n => n.deliver port (ofType ptLetter 3 p))) ∧
  (∀ (port : Nat) (p : Packet), s.node.hasPort port = true → s.node.portHands port = true →
    exec (.partialFrame t port p) s = .next (s.ran t fun n => n.deliver port (ofType ptReply 0x11 p))) ∧
  (∀ (port : Nat) (p : Packet), s.node.hasPort port = true → s.node.portHands port = true →
    exec (.replyFrame t port p) s = .next (s.ran t fun n => n.deliver port (ofType ptReply 0x10 p))) ∧
  (∀ (port : Nat) (p : Packet), s.node.hasPort port = true → s.node.portHands port = true →
    exec (.offer t port p) s = .next (s.ran t fun n => n.deliver port (ofMessage 0x40 p))) ∧
  (∀ (port : Nat) (p : Packet), s.node.hasPort port = true → s.node.portHands port = true →
    exec (.accept t port p) s = .next (s.ran t fun n => n.deliver port (ofMessage 0x41 p))) ∧
  (∀ (port : Nat) (p : Packet), s.node.hasPort port = true → s.node.portHands port = true →
    exec (.verified t port p) s = .next (s.ran t fun n => n.deliver port (ofMessage 0x42 p))) ∧
  (∀ (port : Nat) (p : Packet), s.node.hasPort port = true → s.node.portHands port = true →
    exec (.commit t port p) s = .next (s.ran t fun n => n.deliver port (ofMessage 0x43 p))) ∧
  (∀ (port : Nat) (p : Packet), s.node.hasPort port = true → s.node.portHands port = true →
    exec (.committed t port p) s = .next (s.ran t fun n => n.deliver port (ofMessage 0x44 p))) ∧
  (∀ (port : Nat) (p : Packet), s.node.hasPort port = true → s.node.portHands port = true →
    exec (.cancel t port p) s = .next (s.ran t fun n => n.deliver port (ofMessage 0x45 p))) ∧
  (∀ (port : Nat) (p : Packet), s.node.hasPort port = true → s.node.portHands port = true →
    exec (.reject t port p) s = .next (s.ran t fun n => n.deliver port (ofMessage 0x46 p))) ∧
  (∀ (port : Nat) (p : Packet), s.node.hasPort port = true → s.node.portHands port = true →
    exec (.deadLetter t port p) s = .next (s.ran t fun n => n.deliver port (ofPtype ptDeadLetter p))) ∧
  (∀ (port : Nat) (p : Packet), s.node.hasPort port = true → s.node.portHands port = true →
    exec (.write t port p) s = .next (s.ran t fun n => n.deliver port (ofType ptCourier opWrite p))) ∧
  (∀ (port : Nat) (p : Packet), s.node.hasPort port = true → s.node.portHands port = true →
    exec (.readReq t port p) s = .next (s.ran t fun n => n.deliver port (ofType ptCourier opReadReq p))) ∧
  (∀ (port : Nat) (p : Packet), s.node.hasPort port = true → s.node.portHands port = true →
    exec (.readResp t port p) s = .next (s.ran t fun n => n.deliver port (ofType ptCourier opReadResp p))) ∧
  (∀ (port : Nat) (p : Packet), s.node.hasPort port = true → s.node.portHands port = true →
    exec (.send t port p) s = .next (s.ran t fun n => n.deliver port (ofType ptCourier opSend p))) ∧
  (∀ (port : Nat) (p : Packet), s.node.hasPort port = true → s.node.portHands port = true →
    exec (.fetchAdd t port p) s = .next (s.ran t fun n => n.deliver port (ofType ptCourier opFetchAdd p))) ∧
  (∀ (port : Nat) (p : Packet), s.node.hasPort port = true → s.node.portHands port = true →
    exec (.compareSwap t port p) s = .next (s.ran t fun n => n.deliver port (ofType ptCourier opCompareSwap p))) ∧
  (∀ (port : Nat) (p : Packet), s.node.hasPort port = true → s.node.portHands port = true →
    exec (.atomicResp t port p) s = .next (s.ran t fun n => n.deliver port (ofType ptCourier opAtomicResp p))) ∧
  (∀ (port : Nat) (p : Packet), s.node.hasPort port = true → s.node.portHands port = true →
    exec (.ack t port p) s = .next (s.ran t fun n => n.deliver port (ofType ptCourier opAck p))) ∧
  (∀ (port : Nat) (p : Packet), s.node.hasPort port = true → s.node.portHands port = true →
    exec (.nak t port p) s = .next (s.ran t fun n => n.deliver port (ofType ptCourier opNak p))) ∧
  (∀ (port : Nat) (p : Packet), s.node.hasPort port = true → s.node.portHands port = true →
    exec (.close t port p) s = .next (s.ran t fun n => n.deliver port (ofType ptCourier opClose p))) ∧
  (∀ (port : Nat) (p : Packet), s.node.hasPort port = true → s.node.portHands port = true →
    exec (.closeAck t port p) s = .next (s.ran t fun n => n.deliver port (ofType ptCourier opCloseAck p))) ∧
  (∀ (port : Nat) (p : Packet), s.node.hasPort port = true → s.node.portHands port = true →
    exec (.renew t port p) s = .next (s.ran t fun n => n.deliver port (ofMessage 0x50 p))) ∧
  (∀ (port : Nat) (p : Packet), s.node.hasPort port = true → s.node.portHands port = true →
    exec (.renewed t port p) s = .next (s.ran t fun n => n.deliver port (ofMessage 0x51 p))) ∧
  (∀ (port : Nat) (p : Packet), s.node.hasPort port = true → s.node.portHands port = true →
    exec (.refusedAnswer t port p) s = .next (s.ran t fun n => n.deliver port (ofMessage 0x52 p))) ∧
  (∀ (port : Nat) (p : Packet), s.node.hasPort port = true → s.node.portHands port = true →
    exec (.hold t port p) s = .next (s.ran t fun n => n.deliver port (ofType ptHold 1 p))) ∧
  (∀ (port : Nat) (p : Packet), s.node.hasPort port = true → s.node.portHands port = true →
    exec (.release t port p) s = .next (s.ran t fun n => n.deliver port (ofType ptHold 2 p))) ∧
  (∀ (port : Nat) (p : Packet), s.node.hasPort port = true → s.node.portHands port = true →
    exec (.holdStep t port p) s = .next (s.ran t fun n => n.deliver port (ofType ptHold 3 p))) ∧
  (∀ (port : Nat) (p : Packet), s.node.hasPort port = true → s.node.portHands port = true →
    exec (.abort t port p) s = .next (s.ran t fun n => n.deliver port (ofPtype ptAbort p))) ∧
  (∀ (port : Nat) (p : Packet), s.node.hasPort port = true → s.node.portHands port = true →
    exec (.alarmFrame t port p) s = .next (s.ran t fun n => n.deliver port (ofPtype ptAlarm p)))

/-- The migration engine, the HBM controllers, the near-memory engines and the Gazetteer: each event and each register write has its effect. -/
def Obligations.MemoryEventsRun : Prop :=
  ∀ (s : State) (t : Nat),
  (∀ (move : Nat) (data : Bytes), s.node.awake = true → exec (.migrationTile t move data) s =
     .next (s.ran t fun n => n.moveTile move data)) ∧
  (∀ (move : Nat), s.node.awake = true → exec (.moveHashVerified t move) s =
     .next (s.ran t fun n => n.hashVerified move)) ∧
  (∀ (move : Nat), s.node.awake = true → exec (.moveSwitch t move) s = .next (s.ran t fun n => n.switchMove move)) ∧
  (∀ (move : Nat), s.node.awake = true → exec (.migTimeout t move) s = .next (s.ran t fun n => n.migTimedOut move)) ∧
  (∀ (move : Nat), s.node.awake = true → exec (.swapOutComplete t move) s =
     .next (s.ran t fun n => n.swapComplete move)) ∧
  (∀ (move : Nat), s.node.awake = true → exec (.swapInComplete t move) s =
     .next (s.ran t fun n => n.swapComplete move)) ∧
  (s.node.awake = true → exec (.heatDecay t) s = .next (s.ran t fun n => n.heatDecay)) ∧
  (s.node.awake = true → exec (.t0IdleDrop t) s = .next (s.ran t fun n => n.idleT0)) ∧
  (∀ (quad channel : Nat), s.node.awake = true → s.node.hasQuad quad = true →
    exec (.hbmTrainFail t quad channel) s = .next (s.ran t fun n => n.hbmTrainFail quad (channel % 16))) ∧
  (∀ (quad channel : Nat) (margins : List Nat), s.node.awake = true → s.node.hasQuad quad = true →
    exec (.hbmRecentre t quad channel margins) s =
     .next (s.ran t fun n => n.recordMargins quad (channel % 16) margins)) ∧
  (∀ (burst : Nat) (e : SymErr), s.node.awake = true → s.node.hasQuad (addrQuad (burst * 32)) = true →
    exec (.hbmCorrected t burst e) s = .next (s.ran t fun n => n.burstRead burst ⟨burst, [e]⟩ none)) ∧
  (∀ (burst : Nat) (read : BurstRead) (what record : Nat), s.node.awake = true →
    s.node.hasQuad (addrQuad (burst * 32)) = true → exec (.hbmUncorrected t burst read what record) s =
     .next (s.ran t fun n => n.burstRead burst read (if what = 2 then some record else none))) ∧
  (∀ (quad : Nat), s.node.awake = true → s.node.hasQuad quad = true → exec (.patrolStart t quad) s =
     .next (s.ran t fun n => n.patrolTimer quad)) ∧
  (∀ (quad channel bank : Nat), s.node.awake = true → s.node.hasQuad quad = true →
    exec (.hbmRefresh t quad channel bank) s = .next (s.ran t id)) ∧
  (∀ (quad channel bank : Nat), s.node.awake = true → s.node.hasQuad quad = true →
    exec (.hbmRfm t quad channel bank) s = .next (s.ran t fun n => n.rfm quad)) ∧
  (∀ (die stack : List Nat) (hub : Nat), s.node.awake = true → exec (.thermalSample t die stack hub) s =
     .next (s.ran t fun n => n.thermalSample die stack hub)) ∧
  (∀ (quad : Nat), s.node.awake = true → s.node.hasQuad quad = true → exec (.stackSelfRefreshIdle t quad) s =
     .next (s.ran t fun n => n.stackIdle quad)) ∧
  (∀ (quad : Nat), s.node.awake = true → s.node.hasQuad quad = true → exec (.nmeOpStart t quad) s =
     .next (s.ran t fun n => n.nmeStart quad)) ∧
  (∀ (op : Nat), s.node.awake = true → exec (.nmeOpComplete t op) s =
     .next (s.ran t fun n => (n.nmeOpEnds op).finishReturn)) ∧
  (∀ (op : Nat), s.node.awake = true → exec (.corePathScrubDone t op) s =
     .next (s.ran t fun n => (n.corePathScrubDone op).finishReturn)) ∧
  (∀ (sheet : Nat), s.node.hostReach = true → s.node.hasSheet sheet = true → exec (.gzRuleInsert t sheet) s =
     .next (s.ran t fun n => n.ruleGo sheet 1)) ∧
  (∀ (sheet : Nat), s.node.hostReach = true → s.node.hasSheet sheet = true → exec (.gzRuleRemove t sheet) s =
     .next (s.ran t fun n => n.ruleGo sheet 2)) ∧
  (∀ (sheet : Nat), s.node.awake = true → s.node.hasSheet sheet = true → exec (.gzRespread t sheet) s =
     .next (s.ran t fun n => n.respread sheet false)) ∧
  (∀ (sheet : Nat), s.node.hostReach = true → s.node.hasSheet sheet = true → exec (.respreadNow t sheet) s =
     .next (s.ran t fun n => n.respread sheet true)) ∧
  (∀ (sheet part index : Nat) (uncorrected : Bool), s.node.awake = true → s.node.hasSheet sheet = true →
    exec (.gzEntryError t sheet part index uncorrected) s =
     .next (s.ran t fun n => n.gzEntryError sheet part index uncorrected))

/-- Ports: frames, links, lanes, locks, keys. Each event on a port the part has takes its effect. -/
def Obligations.LinkEventsRun : Prop :=
  ∀ (s : State) (t : Nat),
  (∀ (port : Nat) (f : RxFrame), s.node.awake = true → s.node.hasPort port = true →
    exec (.frameReceived t port f) s =
     .next (s.ran t fun n => (let r := n.rxFrame port (ofLtype 1 f); r.2.deliverAll r.1))) ∧
  (∀ (port : Nat), s.node.awake = true → s.node.hasPort port = true → exec (.egressFrameSend t port) s =
     .next (s.ran t fun n => n.egressSend port)) ∧
  (∀ (port : Nat), s.node.awake = true → s.node.hasPort port = true → exec (.linkFrameSend t port) s =
     .next (s.ran t fun n => n.linkSend port)) ∧
  (∀ (port : Nat) (f : RxFrame), s.node.awake = true → s.node.hasPort port = true →
    exec (.linkFrame t port f) s = .next (s.ran t fun n => (n.rxFrame port (ofLtype 2 f)).2)) ∧
  (∀ (port : Nat), s.node.awake = true → s.node.hasPort port = true → exec (.retryTimeout t port) s =
     .next (s.ran t fun n => n.retryTimeout port)) ∧
  (∀ (port : Nat), s.node.awake = true → s.node.hasPort port = true → exec (.linkIdleTimeout t port) s =
     .next (s.ran t fun n => n.linkIdle port)) ∧
  (∀ (port : Nat) (e : LaneErr), s.node.awake = true → s.node.hasPort port = true → exec (.laneFault t port e) s =
     .next (s.ran t fun n => n.laneFault port e)) ∧
  (∀ (port mask peerMask : Nat) (ok : Bool), s.node.awake = true → s.node.hasPort port = true →
    exec (.portTrained t port mask peerMask ok) s = .next (s.ran t fun n => n.portTrained port mask peerMask ok)) ∧
  (∀ (lock : Nat), s.node.awake = true → exec (.lockGapTimeout t lock) s =
     .next (s.ran t fun n => (let r := n.lockGap lock; r.2.deliverAll r.1))) ∧
  (∀ (port peer : Nat) (m : HelloMsg), s.node.awake = true → s.node.hasPort port = true →
    exec (.hello t port peer m) s = .next (s.ran t fun n => n.helloIn port peer m)) ∧
  (∀ (port peer : Nat) (m : FinishMsg), s.node.awake = true → s.node.hasPort port = true →
    exec (.finish t port peer m) s = .next (s.ran t fun n => n.finishIn port peer m)) ∧
  (∀ (port peer : Nat), s.node.awake = true → s.node.hasPort port = true →
    exec (.keyExchangeTimeout t port peer) s = .next (s.ran t fun n => n.keyTimeout port peer)) ∧
  (∀ (port peer : Nat), s.node.awake = true → s.node.hasPort port = true →
    exec (.keyExchangeRetry t port peer) s = .next (s.ran t fun n => n.keyRetry port peer)) ∧
  (∀ (port peer : Nat), s.node.awake = true → s.node.hasPort port = true → exec (.rekeyTrigger t port peer) s =
     .next (s.ran t fun n => n.rekeyTrigger port peer)) ∧
  (∀ (port peer : Nat), s.node.awake = true → s.node.hasPort port = true → exec (.keyAgeLimit t port peer) s =
     .next (s.ran t fun n => n.keyLimitReached port peer)) ∧
  (∀ (port peer : Nat), s.node.awake = true → s.node.hasPort port = true → exec (.oldKeyErase t port peer) s =
     .next (s.ran t fun n => n.oldKeyErase port peer)) ∧
  (∀ (port : Nat) (target source : Bytes), s.node.awake = true → s.node.hasPort port = true →
    exec (.neighborSolicitation t port target source) s = .next (s.ran t fun n => n.solicited port target source))

/-- Queue-pair timers, windows, contexts, lease timers: each has its effect. -/
def Obligations.CourierAndPoolEventsRun : Prop :=
  ∀ (s : State) (t : Nat),
  (∀ (qpn : Nat), s.node.awake = true → exec (.qpLifetimeWaitEnd t qpn) s =
     .next (s.ran t fun n => n.qpLifetimeEnd qpn)) ∧
  (∀ (qpn : Nat), s.node.awake = true → exec (.waitTimeout t qpn) s = .next (s.ran t fun n => n.waitTimeout qpn)) ∧
  (∀ (qpn : Nat), s.node.awake = true → exec (.orderedCloseSend t qpn) s =
     .next (s.ran t fun n => n.orderedClose qpn)) ∧
  (∀ (qpn : Nat), s.node.awake = true → exec (.closeAckTimeout t qpn) s = .next (s.ran t fun n => n.closeTimeout qpn)) ∧
  (∀ (qpn : Nat), s.node.awake = true → exec (.ackDelayTimeout t qpn) s = .next (s.ran t fun n => n.ackDelay qpn)) ∧
  (∀ (qpn psn : Nat), s.node.awake = true → exec (.courierRto t qpn psn) s =
     .next (s.ran t fun n => n.courierRto qpn psn)) ∧
  (∀ (qpn psn : Nat), s.node.awake = true → exec (.rnrRetry t qpn psn) s =
     .next (s.ran t fun n => n.rnrRetry qpn psn)) ∧
  (∀ (qpn : Nat), s.node.awake = true → exec (.courierPace t qpn) s = .next (s.ran t fun n => n.crAdvance qpn)) ∧
  (∀ (qpn path : Nat), s.node.awake = true → exec (.pathResume t qpn path) s =
     .next (s.ran t fun n => n.pathResume qpn path)) ∧
  (∀ (qpn : Nat), s.node.awake = true → exec (.contextFetched t qpn) s =
     .next (s.ran t fun n => n.contextFetched qpn)) ∧
  (∀ (qpn : Nat), s.node.awake = true → exec (.contextUe t qpn) s = .next (s.ran t fun n => n.contextLost qpn)) ∧
  (∀ (qpn : Nat), s.node.awake = true → exec (.nodeQpIdle t qpn) s = .next (s.ran t fun n => n.nodeQpIdle qpn)) ∧
  (∀ (qpn value : Nat), s.node.hostReach = true → exec (.crQpFreedWrite t qpn value) s =
     .next (s.ran t fun n => n.qpFreed qpn value)) ∧
  (∀ (reqId : Nat), s.node.awake = true → exec (.renewTimeout t reqId) s =
     .next (s.ran t fun n => n.renewTimeout reqId)) ∧
  (∀ (ext : Nat), s.node.awake = true → exec (.leaseExpiry t ext) s = .next (s.ran t fun n => n.leaseExpiry ext)) ∧
  (∀ (ext : Nat), s.node.awake = true → exec (.extentDrained t ext) s = .next (s.ran t fun n => n.extentDrained ext))

/-- The host link, the device memory, the control window and the post boxes: each access has its effect when the host reaches the node. -/
def Obligations.HostPortEventsRun : Prop :=
  ∀ (s : State) (t : Nat),
  (∀ (modules rate : Nat), s.node.awake = true → exec (.ucieLinkUp t modules rate) s =
     .next (s.ran t fun n => n.linkUp modules rate)) ∧
  (∀ (ucie kind : Nat), s.node.awake = true → exec (.ucieModuleDown t ucie kind) s =
     .next (s.ran t fun n => n.moduleEvent (ucie % 4) kind)) ∧
  (s.node.awake = true → exec (.ucieLinkDown t) s = .next (s.ran t fun n => n.linkDown)) ∧
  (s.node.awake = true → s.node.host.ide = true → exec (.ideFailure t) s = .next (s.ran t fun n => n.linkDown)) ∧
  (∀ (addr : Nat) (exclusive : Bool), s.node.hostReach = true → exec (.hdmRead t addr exclusive) s =
     .next (s.ran t fun n => n.hdmRead addr exclusive)) ∧
  (∀ (addr mask : Nat) (data : Bytes) (poison : Bool) (held : Nat), s.node.hostReach = true →
    exec (.hdmWrite t addr mask data poison held) s = .next (s.ran t fun n => n.hdmWrite addr mask data poison held)) ∧
  (∀ (line : Nat) (data : Option Bytes) (keeps : Bool), s.node.hostReach = true →
    exec (.bisnpResponse t line data keeps) s = .next (s.ran t fun n => n.bisnpResponse line data keeps)) ∧
  (∀ (line : Nat), s.node.awake = true → exec (.recallTimeout t line) s =
     .next (s.ran t fun n => n.recallTimeout line)) ∧
  (∀ (addr width value : Nat), exec (.registerWrite t addr width value) s =
     .next (s.ran t fun n => n.registerWrite addr width value)) ∧
  (∀ (addr : Nat), exec (.lowHalfRead t addr) s = .next (s.ran t fun n => n.read32 addr)) ∧
  (∀ (box tail : Nat) (slots : List HostCmd), s.node.hostReach = true → hasBox box = true →
    exec (.doorbell t box tail slots) s =
     .next (s.ran t fun n => n.doorbell box tail (slots.map fun c => ⟨padTo 64 c.bytes, c.data⟩))) ∧
  (∀ (box value : Nat), s.node.hostReach = true → hasBox box = true → exec (.cplFreeWrite t box value) s =
     .next (s.ran t fun n => n.cplFree box value)) ∧
  (∀ (box value : Nat), s.node.hostReach = true → hasBox box = true → exec (.rrFreeWrite t box value) s =
     .next (s.ran t fun n => n.rrFree box value)) ∧
  (∀ (box : Nat), s.node.hostReach = true → hasBox box = true → exec (.pbEnable t box) s =
     .next (s.ran t fun n => n.boxEnable box)) ∧
  (∀ (box : Nat), s.node.hostReach = true → hasBox box = true → exec (.pbDisable t box) s =
     .next (s.ran t fun n => n.boxDisable box)) ∧
  (∀ (box : Nat), s.node.hostReach = true → hasBox box = true → exec (.pbReset t box) s =
     .next (s.ran t fun n => n.boxReset box)) ∧
  (∀ (box : Nat), s.node.awake = true → hasBox box = true → exec (.irqHoldoffEnd t box) s =
     .next (s.ran t fun n => n.irqHoldoffEnd box)) ∧
  (∀ (value : Nat), s.node.hostReach = true → exec (.hpHeartbeat t value) s = .next (s.ran t fun n => n.heartbeat)) ∧
  (s.node.awake = true → exec (.heartbeatCheck t) s = .next (s.ran t fun n => n.heartbeatCheck)) ∧
  (s.node.hostReach = true → exec (.adopt t) s = .next (s.ran t fun n => n.adopt)) ∧
  (∀ (value : Nat), s.node.hostReach = true → exec (.t3WindowEnable t value) s =
     .next (s.ran t fun n => n.t3WindowWrite value))

/-- Chart loading and overlays, tenant switches, the security commands and the SPDM requests have their effect. -/
def Obligations.ChartAndSecurityCommandsRun : Prop :=
  ∀ (s : State) (t : Nat),
  (∀ (image : Bytes), s.node.hostReach = true → exec (.chartLoad t image) s =
     .next (s.ran t fun n => n.chartLoad image)) ∧
  (s.node.awake = true → exec (.chartVerifyDone t) s = .next (s.ran t fun n => n.chartVerified)) ∧
  (∀ (index : Nat), s.node.awake = true → exec (.overlayStaged t index) s =
     .next (s.ran t fun n => n.overlayStaged index)) ∧
  (s.node.awake = true → exec (.overlaySwitch t) s = .next (s.ran t fun n => n.overlaySwitch)) ∧
  (s.node.awake = true → exec (.redirectRetirement t) s = .next (s.ran t fun n => n.redirectRetirement)) ∧
  (∀ (quad : Nat), s.node.awake = true → s.node.hasQuad quad = true → exec (.quadClearDone t quad) s =
     .next (s.ran t fun n => n.quadClearDone quad)) ∧
  (∀ (object : Bytes), s.node.hostReach = true → exec (.own t object) s =
     .next (s.ran t fun n => n.secAny 1 0 (n.secObject object))) ∧
  (∀ (object : Bytes), s.node.hostReach = true → exec (.secReturn t object) s =
     .next (s.ran t fun n => n.secAny 2 0 (n.secObject object))) ∧
  (∀ (object : Bytes), s.node.hostReach = true → exec (.reprovision t object) s =
     .next (s.ran t fun n => n.secAny 3 0 (n.secObject object))) ∧
  (∀ (object : Bytes), s.node.hostReach = true → exec (.debugToken t object) s =
     .next (s.ran t fun n => n.secAny 4 0 (n.secObject object))) ∧
  (∀ (arg : Nat), s.node.hostReach = true → exec (.debugLower t arg) s = .next (s.ran t fun n => n.secAny 5 arg [])) ∧
  (∀ (arg : Nat), s.node.hostReach = true → exec (.advance t arg) s = .next (s.ran t fun n => n.secAny 6 arg [])) ∧
  (s.node.awake = true → exec (.tokenExpiry t) s = .next (s.ran t fun n => n.tokenExpiry)) ∧
  (∀ (conn : Nat), s.node.spdmLink conn = true → s.node.spdmReady = true → exec (.getVersion t conn) s =
     .next (s.ran t fun n => n.getVersion conn)) ∧
  (∀ (conn : Nat) (m : SpdmReq), s.node.spdmLink conn = true → s.node.spdmReady = true →
    exec (.getCapabilities t conn m) s = .next (s.ran t fun n => n.getCapabilities conn m)) ∧
  (∀ (conn : Nat) (m : SpdmReq), s.node.spdmLink conn = true → s.node.spdmReady = true →
    exec (.negotiateAlgorithms t conn m) s = .next (s.ran t fun n => n.negotiate conn m)) ∧
  (∀ (conn : Nat) (m : SpdmReq), s.node.spdmLink conn = true → s.node.spdmReady = true →
    exec (.getDigests t conn m) s = .next (s.ran t fun n => n.getDigests conn m)) ∧
  (∀ (conn slot offset length : Nat) (m : SpdmReq), s.node.spdmLink conn = true → s.node.spdmReady = true →
    exec (.getCertificate t conn slot offset length m) s =
     .next (s.ran t fun n => n.getCertificate conn slot offset length m)) ∧
  (∀ (conn slot measType : Nat) (m : SpdmReq), s.node.spdmLink conn = true → s.node.spdmReady = true →
    exec (.challenge t conn slot measType m) s = .next (s.ran t fun n => n.challenge conn slot measType m)) ∧
  (∀ (conn index slot : Nat) (signed : Bool) (m : SpdmReq), s.node.spdmLink conn = true → s.node.spdmReady = true →
    exec (.getMeasurements t conn index slot signed m) s =
     .next (s.ran t fun n => n.getMeasurements conn index slot signed m)) ∧
  (∀ (conn slot measType : Nat) (m : SpdmReq), s.node.spdmLink conn = true → s.node.spdmReady = true →
    exec (.keyExchange t conn slot measType m) s = .next (s.ran t fun n => n.spdmKeyExchange conn slot measType m)) ∧
  (∀ (conn session : Nat) (hmacOk : Bool) (m : SpdmReq), s.node.spdmLink conn = true → s.node.spdmReady = true →
    exec (.spdmFinish t conn session hmacOk m) s = .next (s.ran t fun n => n.spdmFinish conn session hmacOk m)) ∧
  (∀ (conn session : Nat) (m : SpdmReq), s.node.spdmLink conn = true → s.node.spdmReady = true →
    exec (.spdmHeartbeat t conn session m) s = .next (s.ran t fun n => n.heartbeatAck conn session m)) ∧
  (∀ (conn session op tag : Nat) (m : SpdmReq), s.node.spdmLink conn = true → s.node.spdmReady = true →
    exec (.keyUpdate t conn session op tag m) s = .next (s.ran t fun n => n.keyUpdate conn session op tag m)) ∧
  (∀ (conn session : Nat) (m : SpdmReq), s.node.spdmLink conn = true → s.node.spdmReady = true →
    exec (.endSession t conn session m) s = .next (s.ran t fun n => n.endSession conn session m)) ∧
  (∀ (conn session vendor code : Nat) (m : SpdmReq), s.node.spdmLink conn = true → s.node.spdmReady = true →
    exec (.vendorDefinedRequest t conn session vendor code m) s =
     .next (s.ran t fun n => n.vendorRequest conn session vendor code m)) ∧
  (s.node.awake = true → exec (.lowerTreeGenerated t) s = .next (s.ran t fun n => n.lowerTree))

/-- Power requests and samples, the PLDM requests, the steps of start-up. -/
def Obligations.PowerAndStartUpRun : Prop :=
  ∀ (s : State) (t : Nat),
  (∀ (mask : Nat), s.node.hostReach = true → exec (.park t mask) s = .next (s.ran t fun n => n.writePark mask)) ∧
  (∀ (on : Bool), s.node.hostReach = true → exec (.standby t on) s = .next (s.ran t fun n => n.writeStandby (b2n on))) ∧
  (∀ (point : Nat), s.node.hostReach = true → exec (.opLimit t point) s =
     .next (s.ran t fun n => n.writeOpLimit point)) ∧
  (∀ (sheet : Nat), s.node.awake = true → s.node.hasSheet sheet = true → exec (.sheetDoze t sheet) s =
     .next (s.ran t fun n => n.sheetDoze sheet)) ∧
  (∀ (sheet : Nat) (inTime : Bool), s.node.awake = true → s.node.hasSheet sheet = true →
    exec (.sheetWakeDone t sheet inTime) s = .next (s.ran t fun n => n.sheetWakeDone sheet inTime)) ∧
  (s.node.awake = true → exec (.railSettled t) s = .next (s.ran t fun n => n.railSettled)) ∧
  (∀ (rail : Nat), s.node.awake = true → exec (.railSettleTimeout t rail) s = .next (s.ran t fun n => n.railTimeout)) ∧
  (∀ (watts : Nat), s.node.awake = true → exec (.powerSample t watts) s =
     .next (s.ran t fun n => n.powerSample watts)) ∧
  (s.node.awake = true → exec (.getTid t) s = .next (s.ran t fun n => n.getTid)) ∧
  (∀ (pldmType : Nat), s.node.awake = true → exec (.getPldmVersion t pldmType) s =
     .next (s.ran t fun n => n.getPldmVersion pldmType)) ∧
  (s.node.awake = true → exec (.getPldmTypes t) s = .next (s.ran t fun n => n.getPldmTypes)) ∧
  (∀ (pldmType : Nat), s.node.awake = true → exec (.getPldmCommands t pldmType) s =
     .next (s.ran t fun n => n.getPldmCommands pldmType)) ∧
  (∀ (handle : Nat), s.node.awake = true → exec (.getPdr t handle) s = .next (s.ran t fun n => n.getPdr handle)) ∧
  (∀ (sensor : Nat), s.node.awake = true → exec (.getSensorReading t sensor) s =
     .next (s.ran t fun n => n.getSensorReading sensor)) ∧
  (∀ (sensor : Nat), s.node.awake = true → exec (.getStateSensorReadings t sensor) s =
     .next (s.ran t fun n => n.getStateSensorReadings sensor)) ∧
  (∀ (eid : Nat), s.node.awake = true → exec (.setEventReceiver t eid) s =
     .next (s.ran t fun n => n.setEventReceiver eid)) ∧
  (∀ (effecter value : Nat), s.node.awake = true → exec (.setNumericEffecterValue t effecter value) s =
     .next (s.ran t fun n => n.setNumericEffecterValue effecter value)) ∧
  (∀ (effecter value : Nat), s.node.awake = true → exec (.setStateEffecterStates t effecter value) s =
     .next (s.ran t fun n => n.setStateEffecterStates effecter value)) ∧
  (exec (.powerGoodRise t) s = .next (s.ran t fun n => n.powerGoodRise)) ∧
  (∀ (ms : Nat) (image : Option Bytes), exec (.firmwareVerified t ms image) s =
     .next (s.ran t fun n => (n.atMs ms).firmwareVerified image)) ∧
  (∀ (ms : Nat) (pufOk ownerOk stateOk : Bool), exec (.unsealDone t ms pufOk ownerOk stateOk) s =
     .next (s.ran t fun n => (n.atMs ms).unsealDone pufOk ownerOk stateOk)) ∧
  (∀ (ms sheet : Nat) (railsOk linksOk : Bool), s.node.hasSheet sheet = true →
    exec (.sheetPowerUp t ms sheet railsOk linksOk) s =
     .next (s.ran t fun n => (n.atMs ms).sheetPowerUp sheet railsOk linksOk)) ∧
  (∀ (x : Trained), exec (.hbmTrained t x) s = .next (s.ran t fun n => (n.atMs x.ms).hbmTrained x.channels)) ∧
  (∀ (ms : Nat) (failed : List Nat), exec (.hbmInitDone t ms failed) s =
     .next (s.ran t fun n => (n.atMs ms).hbmInitDone failed)) ∧
  (∀ (ms : Nat), exec (.systemLayoutDone t ms) s = .next (s.ran t fun n => (n.atMs ms).systemLayoutDone)) ∧
  (s.node.awake = true → exec (.readyTimeout t) s = .next (s.ran t fun n => n.readyTimeout)) ∧
  (exec (.powerOff t) s = .next (s.ran t fun n => n.powerOff)) ∧
  (∀ (sensor celsius : Nat), exec (.thermtrip t sensor celsius) s =
     .next (s.ran t fun n => n.thermtrip sensor celsius)) ∧
  (exec (.thermtripRelease t) s = .next (s.ran t fun n => n.thermtripRelease))

/-- The test access port, the debug bus, resets, aborts and watchdogs. -/
def Obligations.DebugAndResetRun : Prop :=
  ∀ (s : State) (t : Nat),
  (exec (.extest t) s = .next (s.ran t fun n => n.extest)) ∧
  (exec (.samplePreload t) s = .next (s.ran t fun n => n.samplePreload)) ∧
  (exec (.idcode t) s = .next (s.ran t fun n => n.idcode)) ∧
  (exec (.clamp t) s = .next (s.ran t fun n => n.clamp)) ∧
  (exec (.highz t) s = .next (s.ran t fun n => n.highz)) ∧
  (exec (.dbgAccess t) s = .next (s.ran t fun n => n.dbgAccess)) ∧
  (exec (.bypass t) s = .next (s.ran t fun n => n.bypass)) ∧
  (∀ (space addr : Nat), exec (.dbgRead t space addr) s = .next (s.ran t fun n => n.dbRead space addr)) ∧
  (∀ (space addr data : Nat), exec (.dbgWrite t space addr data) s =
     .next (s.ran t fun n => n.dbWrite space addr data)) ∧
  (∀ (space : Nat), exec (.readInc t space) s = .next (s.ran t fun n => n.dbReadInc space)) ∧
  (∀ (space data : Nat), exec (.writeInc t space data) s = .next (s.ran t fun n => n.dbWriteInc space data)) ∧
  (exec (.halt t) s = .next (s.ran t fun n => n.dbWrite 0 0x10 1)) ∧
  (exec (.resume t) s = .next (s.ran t fun n => n.dbWrite 0 0x10 2)) ∧
  (exec (.stepTick t) s = .next (s.ran t fun n => n.dbWrite 0 0x10 3)) ∧
  (s.node.awake = true → exec (.holdTick t) s = .next (s.ran t fun n => n.holdTick)) ∧
  (s.node.awake = true → exec (.breakpointTime t) s = .next (s.ran t fun n => n.breakpointTime)) ∧
  (∀ (level : Nat), s.node.hostReach = true → exec (.rstCtlGo t level) s = .next (s.ran t fun n => n.rstGo level)) ∧
  (∀ (low : Bool), exec (.nodeReset t low) s = .next (s.ran t fun n => n.nodeReset low)) ∧
  (∀ (source sheet link : Nat), s.node.awake = true → s.node.fatalUnit source sheet link = true →
    exec (.fatalError t source sheet link) s =
     .next (s.ran t fun n => n.fatalError source sheet link)) ∧
  (s.node.awake = true → exec (.fatalResetDelay t) s = .next (s.ran t fun n => n.fatalResetDelay)) ∧
  (∀ (sheet : Nat), s.node.awake = true → s.node.hasSheet sheet = true → exec (.sheetHang t sheet) s =
     .next (s.ran t fun n => n.sheetHang sheet)) ∧
  (s.node.awake = true → exec (.hubWatchdog t) s = .next (s.ran t fun n => n.hubWatchdog)) ∧
  (s.node.awake = true → exec (.resetEscalation t) s = .next (s.ran t fun n => n.resetEscalation)) ∧
  (∀ (quads : Nat), s.node.awake = true → exec (.warmRestartDone t quads) s =
     .next (s.ran t fun n => n.warmRestartDone quads)) ∧
  (s.node.hostReach = true → exec (.abortSend t) s = .next (s.ran t fun n => n.abortSend)) ∧
  (s.node.awake = true → exec (.abortWindowEnd t) s = .next (s.ran t fun n => n.abortWindowEnd)) ∧
  (s.node.hostReach = true → exec (.releaseAll t) s = .next (s.ran t fun n => n.releaseAll)) ∧
  (s.node.hostReach = true → exec (.releaseOne t) s = .next (s.ran t fun n => n.releaseOne))

/-- The Survey's samples, records and registers, and the control bits of the sheets, quads, cores and ports. -/
def Obligations.SurveyAndControlRun : Prop :=
  ∀ (s : State) (t : Nat),
  (∀ (port lane height width : Nat), s.node.awake = true → s.node.hasPort port = true →
    exec (.eyeMonitorSample t port lane height width) s =
     .next (s.ran t fun n => n.eyeMonitorSample port lane height width)) ∧
  (∀ (ucie lane margin : Nat), s.node.awake = true → exec (.ucieMarginSample t ucie lane margin) s =
     .next (s.ran t fun n => n.ucieMarginSample (ucie % 4) lane margin)) ∧
  (∀ (quad lowest : Nat), s.node.awake = true → s.node.hasQuad quad = true →
    exec (.guardBandSample t quad lowest) s = .next (s.ran t fun n => n.guardBandSample quad lowest)) ∧
  (s.node.awake = true → exec (.surveyRecord t) s = .next (s.ran t fun n => n.surveyRecord)) ∧
  (s.node.awake = true → exec (.bucketRefill t) s = .next (s.ran t fun n => n.bucketRefill)) ∧
  (s.node.hostReach = true → exec (.alertClear t) s = .next (s.ran t fun n => n.wr R.SVY_STATUS_ALERT 0 0)) ∧
  (∀ (value : Nat), s.node.hostReach = true → exec (.ringReadAdvance t value) s =
     .next (s.ran t fun n => n.ringReadAdvance value)) ∧
  (∀ (core : Nat), s.node.awake = true → s.node.hasCore core = true → exec (.katDue t core) s =
     .next (s.ran t fun n => n.katDue core)) ∧
  (∀ (core digest : Nat), s.node.awake = true → s.node.hasCore core = true →
    exec (.katComplete t core digest) s = .next (s.ran t fun n => n.katComplete core digest)) ∧
  (s.node.awake = true → exec (.histogramFlush t) s = .next (s.ran t fun n => n.histogramFlush)) ∧
  (s.node.hostReach = true → exec (.flush t) s = .next (s.ran t fun n => n.flush)) ∧
  (s.node.awake = true → exec (.surveyReadDone t) s = .next (s.ran t fun n => n.surveyReadDone)) ∧
  (∀ (core : Nat), s.node.hostReach = true → s.node.hasCore core = true → exec (.coreFence t core) s =
     .next (s.ran t fun n => n.wait (.coreFence core))) ∧
  (∀ (core : Nat), s.node.hostReach = true → s.node.hasCore core = true → exec (.unfence t core) s =
     .next (s.ran t fun n => n.wait (.coreUnfence core))) ∧
  (∀ (core : Nat), s.node.hostReach = true → s.node.hasCore core = true → exec (.coreClearCnt t core) s =
     .next (s.ran t fun n => n.wait (.coreClear core))) ∧
  (∀ (sheet : Nat), s.node.hostReach = true → s.node.hasSheet sheet = true → exec (.soClearCnt t sheet) s =
     .next (s.ran t fun n => n.wait (.soClear sheet))) ∧
  (∀ (sheet : Nat), s.node.hostReach = true → s.node.hasSheet sheet = true → exec (.demoteAll t sheet) s =
     .next (s.ran t fun n => n.wait (.demote sheet))) ∧
  (∀ (sheet : Nat), s.node.hostReach = true → s.node.hasSheet sheet = true → exec (.xlClearCnt t sheet) s =
     .next (s.ran t fun n => n.wait (.xlClear sheet))) ∧
  (∀ (sheet : Nat), s.node.hostReach = true → s.node.hasSheet sheet = true → exec (.flushRc t sheet) s =
     .next (s.ran t fun n => n.wait (.flushRc sheet))) ∧
  (∀ (quad : Nat), s.node.hostReach = true → s.node.hasQuad quad = true → exec (.migClearCnt t quad) s =
     .next (s.ran t fun n => n.wait (.migClear quad))) ∧
  (∀ (quad : Nat) (on : Bool), s.node.hostReach = true → s.node.hasQuad quad = true →
    exec (.pause t quad on) s = .next (s.ran t fun n => n.writePause quad on)) ∧
  (∀ (quad : Nat), s.node.hostReach = true → s.node.hasQuad quad = true → exec (.hbmClearCnt t quad) s =
     .next (s.ran t fun n => n.hbmClear quad)) ∧
  (∀ (quad : Nat), s.node.hostReach = true → s.node.hasQuad quad = true → exec (.patrolNow t quad) s =
     .next (s.ran t fun n => n.patrol quad)) ∧
  (∀ (quad : Nat), s.node.hostReach = true → s.node.hasQuad quad = true → exec (.nmeClearCnt t quad) s =
     .next (s.ran t fun n => n.nmeClear quad)) ∧
  (∀ (sheet : Nat), s.node.hostReach = true → s.node.hasSheet sheet = true → exec (.gzClearCnt t sheet) s =
     .next (s.ran t fun n => n.clearGz sheet)) ∧
  (∀ (port : Nat), s.node.hostReach = true → s.node.hasPort port = true → exec (.portClearCnt t port) s =
     .next (s.ran t fun n => n.portClear port)) ∧
  (∀ (port : Nat), s.node.hostReach = true → s.node.hasPort port = true → exec (.retrain t port) s =
     .next (s.ran t fun n => n.hostRetrain port)) ∧
  (∀ (port : Nat), s.node.hostReach = true → s.node.hasPort port = true → exec (.rekey t port) s =
     .next (s.ran t fun n => n.rekeyPort port)) ∧
  (∀ (sheet : Nat), s.node.hostReach = true → s.node.hasSheet sheet = true → exec (.crClearCnt t sheet) s =
     .next (s.ran t fun n => n.crClear sheet)) ∧
  (s.node.hostReach = true → exec (.poolClearCnt t) s = .next (s.ran t fun n => n.poolClear)) ∧
  (s.node.hostReach = true → exec (.svyClearCnt t) s = .next (s.ran t fun n => n.svyClear))
end

