-- ==== Sys2Proof/Laws/State.lean ====
section
/-!
SUPPORT. One lemma per field per update of the node's state: the field changed, and every field left as it was.
-/

namespace Sys2Proof.Machine

variable (n : Node)


@[simp] theorem Node.modQuad_ident (q : Nat) (f : QuadSt → QuadSt) : (n.modQuad q f).ident = n.ident := rfl
@[simp] theorem Node.modQuad_pins (q : Nat) (f : QuadSt → QuadSt) : (n.modQuad q f).pins = n.pins := rfl
@[simp] theorem Node.modQuad_boot (q : Nat) (f : QuadSt → QuadSt) : (n.modQuad q f).boot = n.boot := rfl
@[simp] theorem Node.modQuad_regs (q : Nat) (f : QuadSt → QuadSt) : (n.modQuad q f).regs = n.regs := rfl
@[simp] theorem Node.modQuad_mram (q : Nat) (f : QuadSt → QuadSt) : (n.modQuad q f).mram = n.mram := rfl
@[simp] theorem Node.modQuad_hbm (q : Nat) (f : QuadSt → QuadSt) : (n.modQuad q f).hbm = n.hbm := rfl
@[simp] theorem Node.modQuad_poison (q : Nat) (f : QuadSt → QuadSt) : (n.modQuad q f).poison = n.poison := rfl
@[simp] theorem Node.modQuad_time (q : Nat) (f : QuadSt → QuadSt) : (n.modQuad q f).time = n.time := rfl
@[simp] theorem Node.modQuad_chart (q : Nat) (f : QuadSt → QuadSt) : (n.modQuad q f).chart = n.chart := rfl
@[simp] theorem Node.modQuad_parts (q : Nat) (f : QuadSt → QuadSt) : (n.modQuad q f).parts = n.parts := rfl
@[simp] theorem Node.modQuad_quads (q : Nat) (f : QuadSt → QuadSt) : (n.modQuad q f).quads = mapMod n.quads q f := rfl
@[simp] theorem Node.modQuad_granules (q : Nat) (f : QuadSt → QuadSt) : (n.modQuad q f).granules = n.granules := rfl
@[simp] theorem Node.modQuad_seqs (q : Nat) (f : QuadSt → QuadSt) : (n.modQuad q f).seqs = n.seqs := rfl
@[simp] theorem Node.modQuad_leaves (q : Nat) (f : QuadSt → QuadSt) : (n.modQuad q f).leaves = n.leaves := rfl
@[simp] theorem Node.modQuad_rowsNow (q : Nat) (f : QuadSt → QuadSt) : (n.modQuad q f).rowsNow = n.rowsNow := rfl
@[simp] theorem Node.modQuad_rowsPrev (q : Nat) (f : QuadSt → QuadSt) : (n.modQuad q f).rowsPrev = n.rowsPrev := rfl
@[simp] theorem Node.modQuad_office (q : Nat) (f : QuadSt → QuadSt) : (n.modQuad q f).office = n.office := rfl
@[simp] theorem Node.modQuad_cores (q : Nat) (f : QuadSt → QuadSt) : (n.modQuad q f).cores = n.cores := rfl
@[simp] theorem Node.modQuad_ports (q : Nat) (f : QuadSt → QuadSt) : (n.modQuad q f).ports = n.ports := rfl
@[simp] theorem Node.modQuad_locks (q : Nat) (f : QuadSt → QuadSt) : (n.modQuad q f).locks = n.locks := rfl
@[simp] theorem Node.modQuad_courier (q : Nat) (f : QuadSt → QuadSt) : (n.modQuad q f).courier = n.courier := rfl
@[simp] theorem Node.modQuad_mig (q : Nat) (f : QuadSt → QuadSt) : (n.modQuad q f).mig = n.mig := rfl
@[simp] theorem Node.modQuad_nme (q : Nat) (f : QuadSt → QuadSt) : (n.modQuad q f).nme = n.nme := rfl
@[simp] theorem Node.modQuad_gz (q : Nat) (f : QuadSt → QuadSt) : (n.modQuad q f).gz = n.gz := rfl
@[simp] theorem Node.modQuad_host (q : Nat) (f : QuadSt → QuadSt) : (n.modQuad q f).host = n.host := rfl
@[simp] theorem Node.modQuad_pool (q : Nat) (f : QuadSt → QuadSt) : (n.modQuad q f).pool = n.pool := rfl
@[simp] theorem Node.modQuad_sec (q : Nat) (f : QuadSt → QuadSt) : (n.modQuad q f).sec = n.sec := rfl
@[simp] theorem Node.modQuad_spdm (q : Nat) (f : QuadSt → QuadSt) : (n.modQuad q f).spdm = n.spdm := rfl
@[simp] theorem Node.modQuad_power (q : Nat) (f : QuadSt → QuadSt) : (n.modQuad q f).power = n.power := rfl
@[simp] theorem Node.modQuad_dbg (q : Nat) (f : QuadSt → QuadSt) : (n.modQuad q f).dbg = n.dbg := rfl
@[simp] theorem Node.modQuad_err (q : Nat) (f : QuadSt → QuadSt) : (n.modQuad q f).err = n.err := rfl
@[simp] theorem Node.modQuad_survey (q : Nat) (f : QuadSt → QuadSt) : (n.modQuad q f).survey = n.survey := rfl
@[simp] theorem Node.modQuad_pldm (q : Nat) (f : QuadSt → QuadSt) : (n.modQuad q f).pldm = n.pldm := rfl
@[simp] theorem Node.modQuad_portMode (q : Nat) (f : QuadSt → QuadSt) : (n.modQuad q f).portMode = n.portMode := rfl
@[simp] theorem Node.modQuad_waits (q : Nat) (f : QuadSt → QuadSt) : (n.modQuad q f).waits = n.waits := rfl
@[simp] theorem Node.modQuad_loop (q : Nat) (f : QuadSt → QuadSt) : (n.modQuad q f).loop = n.loop := rfl
@[simp] theorem Node.modQuad_freeCtr (q : Nat) (f : QuadSt → QuadSt) : (n.modQuad q f).freeCtr = n.freeCtr := rfl

@[simp] theorem Node.modCore_ident (c : Nat) (f : CoreSt → CoreSt) : (n.modCore c f).ident = n.ident := rfl
@[simp] theorem Node.modCore_pins (c : Nat) (f : CoreSt → CoreSt) : (n.modCore c f).pins = n.pins := rfl
@[simp] theorem Node.modCore_boot (c : Nat) (f : CoreSt → CoreSt) : (n.modCore c f).boot = n.boot := rfl
@[simp] theorem Node.modCore_regs (c : Nat) (f : CoreSt → CoreSt) : (n.modCore c f).regs = n.regs := rfl
@[simp] theorem Node.modCore_mram (c : Nat) (f : CoreSt → CoreSt) : (n.modCore c f).mram = n.mram := rfl
@[simp] theorem Node.modCore_hbm (c : Nat) (f : CoreSt → CoreSt) : (n.modCore c f).hbm = n.hbm := rfl
@[simp] theorem Node.modCore_poison (c : Nat) (f : CoreSt → CoreSt) : (n.modCore c f).poison = n.poison := rfl
@[simp] theorem Node.modCore_time (c : Nat) (f : CoreSt → CoreSt) : (n.modCore c f).time = n.time := rfl
@[simp] theorem Node.modCore_chart (c : Nat) (f : CoreSt → CoreSt) : (n.modCore c f).chart = n.chart := rfl
@[simp] theorem Node.modCore_parts (c : Nat) (f : CoreSt → CoreSt) : (n.modCore c f).parts = n.parts := rfl
@[simp] theorem Node.modCore_quads (c : Nat) (f : CoreSt → CoreSt) : (n.modCore c f).quads = n.quads := rfl
@[simp] theorem Node.modCore_granules (c : Nat) (f : CoreSt → CoreSt) : (n.modCore c f).granules = n.granules := rfl
@[simp] theorem Node.modCore_seqs (c : Nat) (f : CoreSt → CoreSt) : (n.modCore c f).seqs = n.seqs := rfl
@[simp] theorem Node.modCore_leaves (c : Nat) (f : CoreSt → CoreSt) : (n.modCore c f).leaves = n.leaves := rfl
@[simp] theorem Node.modCore_rowsNow (c : Nat) (f : CoreSt → CoreSt) : (n.modCore c f).rowsNow = n.rowsNow := rfl
@[simp] theorem Node.modCore_rowsPrev (c : Nat) (f : CoreSt → CoreSt) : (n.modCore c f).rowsPrev = n.rowsPrev := rfl
@[simp] theorem Node.modCore_office (c : Nat) (f : CoreSt → CoreSt) : (n.modCore c f).office = n.office := rfl
@[simp] theorem Node.modCore_cores (c : Nat) (f : CoreSt → CoreSt) : (n.modCore c f).cores = mapMod n.cores c f := rfl
@[simp] theorem Node.modCore_ports (c : Nat) (f : CoreSt → CoreSt) : (n.modCore c f).ports = n.ports := rfl
@[simp] theorem Node.modCore_locks (c : Nat) (f : CoreSt → CoreSt) : (n.modCore c f).locks = n.locks := rfl
@[simp] theorem Node.modCore_courier (c : Nat) (f : CoreSt → CoreSt) : (n.modCore c f).courier = n.courier := rfl
@[simp] theorem Node.modCore_mig (c : Nat) (f : CoreSt → CoreSt) : (n.modCore c f).mig = n.mig := rfl
@[simp] theorem Node.modCore_nme (c : Nat) (f : CoreSt → CoreSt) : (n.modCore c f).nme = n.nme := rfl
@[simp] theorem Node.modCore_gz (c : Nat) (f : CoreSt → CoreSt) : (n.modCore c f).gz = n.gz := rfl
@[simp] theorem Node.modCore_host (c : Nat) (f : CoreSt → CoreSt) : (n.modCore c f).host = n.host := rfl
@[simp] theorem Node.modCore_pool (c : Nat) (f : CoreSt → CoreSt) : (n.modCore c f).pool = n.pool := rfl
@[simp] theorem Node.modCore_sec (c : Nat) (f : CoreSt → CoreSt) : (n.modCore c f).sec = n.sec := rfl
@[simp] theorem Node.modCore_spdm (c : Nat) (f : CoreSt → CoreSt) : (n.modCore c f).spdm = n.spdm := rfl
@[simp] theorem Node.modCore_power (c : Nat) (f : CoreSt → CoreSt) : (n.modCore c f).power = n.power := rfl
@[simp] theorem Node.modCore_dbg (c : Nat) (f : CoreSt → CoreSt) : (n.modCore c f).dbg = n.dbg := rfl
@[simp] theorem Node.modCore_err (c : Nat) (f : CoreSt → CoreSt) : (n.modCore c f).err = n.err := rfl
@[simp] theorem Node.modCore_survey (c : Nat) (f : CoreSt → CoreSt) : (n.modCore c f).survey = n.survey := rfl
@[simp] theorem Node.modCore_pldm (c : Nat) (f : CoreSt → CoreSt) : (n.modCore c f).pldm = n.pldm := rfl
@[simp] theorem Node.modCore_portMode (c : Nat) (f : CoreSt → CoreSt) : (n.modCore c f).portMode = n.portMode := rfl
@[simp] theorem Node.modCore_waits (c : Nat) (f : CoreSt → CoreSt) : (n.modCore c f).waits = n.waits := rfl
@[simp] theorem Node.modCore_loop (c : Nat) (f : CoreSt → CoreSt) : (n.modCore c f).loop = n.loop := rfl
@[simp] theorem Node.modCore_freeCtr (c : Nat) (f : CoreSt → CoreSt) : (n.modCore c f).freeCtr = n.freeCtr := rfl

@[simp] theorem Node.modPort_ident (p : Nat) (f : PortSt → PortSt) : (n.modPort p f).ident = n.ident := rfl
@[simp] theorem Node.modPort_pins (p : Nat) (f : PortSt → PortSt) : (n.modPort p f).pins = n.pins := rfl
@[simp] theorem Node.modPort_boot (p : Nat) (f : PortSt → PortSt) : (n.modPort p f).boot = n.boot := rfl
@[simp] theorem Node.modPort_regs (p : Nat) (f : PortSt → PortSt) : (n.modPort p f).regs = n.regs := rfl
@[simp] theorem Node.modPort_mram (p : Nat) (f : PortSt → PortSt) : (n.modPort p f).mram = n.mram := rfl
@[simp] theorem Node.modPort_hbm (p : Nat) (f : PortSt → PortSt) : (n.modPort p f).hbm = n.hbm := rfl
@[simp] theorem Node.modPort_poison (p : Nat) (f : PortSt → PortSt) : (n.modPort p f).poison = n.poison := rfl
@[simp] theorem Node.modPort_time (p : Nat) (f : PortSt → PortSt) : (n.modPort p f).time = n.time := rfl
@[simp] theorem Node.modPort_chart (p : Nat) (f : PortSt → PortSt) : (n.modPort p f).chart = n.chart := rfl
@[simp] theorem Node.modPort_parts (p : Nat) (f : PortSt → PortSt) : (n.modPort p f).parts = n.parts := rfl
@[simp] theorem Node.modPort_quads (p : Nat) (f : PortSt → PortSt) : (n.modPort p f).quads = n.quads := rfl
@[simp] theorem Node.modPort_granules (p : Nat) (f : PortSt → PortSt) : (n.modPort p f).granules = n.granules := rfl
@[simp] theorem Node.modPort_seqs (p : Nat) (f : PortSt → PortSt) : (n.modPort p f).seqs = n.seqs := rfl
@[simp] theorem Node.modPort_leaves (p : Nat) (f : PortSt → PortSt) : (n.modPort p f).leaves = n.leaves := rfl
@[simp] theorem Node.modPort_rowsNow (p : Nat) (f : PortSt → PortSt) : (n.modPort p f).rowsNow = n.rowsNow := rfl
@[simp] theorem Node.modPort_rowsPrev (p : Nat) (f : PortSt → PortSt) : (n.modPort p f).rowsPrev = n.rowsPrev := rfl
@[simp] theorem Node.modPort_office (p : Nat) (f : PortSt → PortSt) : (n.modPort p f).office = n.office := rfl
@[simp] theorem Node.modPort_cores (p : Nat) (f : PortSt → PortSt) : (n.modPort p f).cores = n.cores := rfl
@[simp] theorem Node.modPort_ports (p : Nat) (f : PortSt → PortSt) : (n.modPort p f).ports = mapMod n.ports p f := rfl
@[simp] theorem Node.modPort_locks (p : Nat) (f : PortSt → PortSt) : (n.modPort p f).locks = n.locks := rfl
@[simp] theorem Node.modPort_courier (p : Nat) (f : PortSt → PortSt) : (n.modPort p f).courier = n.courier := rfl
@[simp] theorem Node.modPort_mig (p : Nat) (f : PortSt → PortSt) : (n.modPort p f).mig = n.mig := rfl
@[simp] theorem Node.modPort_nme (p : Nat) (f : PortSt → PortSt) : (n.modPort p f).nme = n.nme := rfl
@[simp] theorem Node.modPort_gz (p : Nat) (f : PortSt → PortSt) : (n.modPort p f).gz = n.gz := rfl
@[simp] theorem Node.modPort_host (p : Nat) (f : PortSt → PortSt) : (n.modPort p f).host = n.host := rfl
@[simp] theorem Node.modPort_pool (p : Nat) (f : PortSt → PortSt) : (n.modPort p f).pool = n.pool := rfl
@[simp] theorem Node.modPort_sec (p : Nat) (f : PortSt → PortSt) : (n.modPort p f).sec = n.sec := rfl
@[simp] theorem Node.modPort_spdm (p : Nat) (f : PortSt → PortSt) : (n.modPort p f).spdm = n.spdm := rfl
@[simp] theorem Node.modPort_power (p : Nat) (f : PortSt → PortSt) : (n.modPort p f).power = n.power := rfl
@[simp] theorem Node.modPort_dbg (p : Nat) (f : PortSt → PortSt) : (n.modPort p f).dbg = n.dbg := rfl
@[simp] theorem Node.modPort_err (p : Nat) (f : PortSt → PortSt) : (n.modPort p f).err = n.err := rfl
@[simp] theorem Node.modPort_survey (p : Nat) (f : PortSt → PortSt) : (n.modPort p f).survey = n.survey := rfl
@[simp] theorem Node.modPort_pldm (p : Nat) (f : PortSt → PortSt) : (n.modPort p f).pldm = n.pldm := rfl
@[simp] theorem Node.modPort_portMode (p : Nat) (f : PortSt → PortSt) : (n.modPort p f).portMode = n.portMode := rfl
@[simp] theorem Node.modPort_waits (p : Nat) (f : PortSt → PortSt) : (n.modPort p f).waits = n.waits := rfl
@[simp] theorem Node.modPort_loop (p : Nat) (f : PortSt → PortSt) : (n.modPort p f).loop = n.loop := rfl
@[simp] theorem Node.modPort_freeCtr (p : Nat) (f : PortSt → PortSt) : (n.modPort p f).freeCtr = n.freeCtr := rfl

@[simp] theorem Node.modPart_ident (p : Nat) (f : PartSt → PartSt) : (n.modPart p f).ident = n.ident := rfl
@[simp] theorem Node.modPart_pins (p : Nat) (f : PartSt → PartSt) : (n.modPart p f).pins = n.pins := rfl
@[simp] theorem Node.modPart_boot (p : Nat) (f : PartSt → PartSt) : (n.modPart p f).boot = n.boot := rfl
@[simp] theorem Node.modPart_regs (p : Nat) (f : PartSt → PartSt) : (n.modPart p f).regs = n.regs := rfl
@[simp] theorem Node.modPart_mram (p : Nat) (f : PartSt → PartSt) : (n.modPart p f).mram = n.mram := rfl
@[simp] theorem Node.modPart_hbm (p : Nat) (f : PartSt → PartSt) : (n.modPart p f).hbm = n.hbm := rfl
@[simp] theorem Node.modPart_poison (p : Nat) (f : PartSt → PartSt) : (n.modPart p f).poison = n.poison := rfl
@[simp] theorem Node.modPart_time (p : Nat) (f : PartSt → PartSt) : (n.modPart p f).time = n.time := rfl
@[simp] theorem Node.modPart_chart (p : Nat) (f : PartSt → PartSt) : (n.modPart p f).chart = n.chart := rfl
@[simp] theorem Node.modPart_parts (p : Nat) (f : PartSt → PartSt) : (n.modPart p f).parts = mapMod n.parts p f := rfl
@[simp] theorem Node.modPart_quads (p : Nat) (f : PartSt → PartSt) : (n.modPart p f).quads = n.quads := rfl
@[simp] theorem Node.modPart_granules (p : Nat) (f : PartSt → PartSt) : (n.modPart p f).granules = n.granules := rfl
@[simp] theorem Node.modPart_seqs (p : Nat) (f : PartSt → PartSt) : (n.modPart p f).seqs = n.seqs := rfl
@[simp] theorem Node.modPart_leaves (p : Nat) (f : PartSt → PartSt) : (n.modPart p f).leaves = n.leaves := rfl
@[simp] theorem Node.modPart_rowsNow (p : Nat) (f : PartSt → PartSt) : (n.modPart p f).rowsNow = n.rowsNow := rfl
@[simp] theorem Node.modPart_rowsPrev (p : Nat) (f : PartSt → PartSt) : (n.modPart p f).rowsPrev = n.rowsPrev := rfl
@[simp] theorem Node.modPart_office (p : Nat) (f : PartSt → PartSt) : (n.modPart p f).office = n.office := rfl
@[simp] theorem Node.modPart_cores (p : Nat) (f : PartSt → PartSt) : (n.modPart p f).cores = n.cores := rfl
@[simp] theorem Node.modPart_ports (p : Nat) (f : PartSt → PartSt) : (n.modPart p f).ports = n.ports := rfl
@[simp] theorem Node.modPart_locks (p : Nat) (f : PartSt → PartSt) : (n.modPart p f).locks = n.locks := rfl
@[simp] theorem Node.modPart_courier (p : Nat) (f : PartSt → PartSt) : (n.modPart p f).courier = n.courier := rfl
@[simp] theorem Node.modPart_mig (p : Nat) (f : PartSt → PartSt) : (n.modPart p f).mig = n.mig := rfl
@[simp] theorem Node.modPart_nme (p : Nat) (f : PartSt → PartSt) : (n.modPart p f).nme = n.nme := rfl
@[simp] theorem Node.modPart_gz (p : Nat) (f : PartSt → PartSt) : (n.modPart p f).gz = n.gz := rfl
@[simp] theorem Node.modPart_host (p : Nat) (f : PartSt → PartSt) : (n.modPart p f).host = n.host := rfl
@[simp] theorem Node.modPart_pool (p : Nat) (f : PartSt → PartSt) : (n.modPart p f).pool = n.pool := rfl
@[simp] theorem Node.modPart_sec (p : Nat) (f : PartSt → PartSt) : (n.modPart p f).sec = n.sec := rfl
@[simp] theorem Node.modPart_spdm (p : Nat) (f : PartSt → PartSt) : (n.modPart p f).spdm = n.spdm := rfl
@[simp] theorem Node.modPart_power (p : Nat) (f : PartSt → PartSt) : (n.modPart p f).power = n.power := rfl
@[simp] theorem Node.modPart_dbg (p : Nat) (f : PartSt → PartSt) : (n.modPart p f).dbg = n.dbg := rfl
@[simp] theorem Node.modPart_err (p : Nat) (f : PartSt → PartSt) : (n.modPart p f).err = n.err := rfl
@[simp] theorem Node.modPart_survey (p : Nat) (f : PartSt → PartSt) : (n.modPart p f).survey = n.survey := rfl
@[simp] theorem Node.modPart_pldm (p : Nat) (f : PartSt → PartSt) : (n.modPart p f).pldm = n.pldm := rfl
@[simp] theorem Node.modPart_portMode (p : Nat) (f : PartSt → PartSt) : (n.modPart p f).portMode = n.portMode := rfl
@[simp] theorem Node.modPart_waits (p : Nat) (f : PartSt → PartSt) : (n.modPart p f).waits = n.waits := rfl
@[simp] theorem Node.modPart_loop (p : Nat) (f : PartSt → PartSt) : (n.modPart p f).loop = n.loop := rfl
@[simp] theorem Node.modPart_freeCtr (p : Nat) (f : PartSt → PartSt) : (n.modPart p f).freeCtr = n.freeCtr := rfl

@[simp] theorem Node.modBox_ident (b : Nat) (f : BoxSt → BoxSt) : (n.modBox b f).ident = n.ident := rfl
@[simp] theorem Node.modBox_pins (b : Nat) (f : BoxSt → BoxSt) : (n.modBox b f).pins = n.pins := rfl
@[simp] theorem Node.modBox_boot (b : Nat) (f : BoxSt → BoxSt) : (n.modBox b f).boot = n.boot := rfl
@[simp] theorem Node.modBox_regs (b : Nat) (f : BoxSt → BoxSt) : (n.modBox b f).regs = n.regs := rfl
@[simp] theorem Node.modBox_mram (b : Nat) (f : BoxSt → BoxSt) : (n.modBox b f).mram = n.mram := rfl
@[simp] theorem Node.modBox_hbm (b : Nat) (f : BoxSt → BoxSt) : (n.modBox b f).hbm = n.hbm := rfl
@[simp] theorem Node.modBox_poison (b : Nat) (f : BoxSt → BoxSt) : (n.modBox b f).poison = n.poison := rfl
@[simp] theorem Node.modBox_time (b : Nat) (f : BoxSt → BoxSt) : (n.modBox b f).time = n.time := rfl
@[simp] theorem Node.modBox_chart (b : Nat) (f : BoxSt → BoxSt) : (n.modBox b f).chart = n.chart := rfl
@[simp] theorem Node.modBox_parts (b : Nat) (f : BoxSt → BoxSt) : (n.modBox b f).parts = n.parts := rfl
@[simp] theorem Node.modBox_quads (b : Nat) (f : BoxSt → BoxSt) : (n.modBox b f).quads = n.quads := rfl
@[simp] theorem Node.modBox_granules (b : Nat) (f : BoxSt → BoxSt) : (n.modBox b f).granules = n.granules := rfl
@[simp] theorem Node.modBox_seqs (b : Nat) (f : BoxSt → BoxSt) : (n.modBox b f).seqs = n.seqs := rfl
@[simp] theorem Node.modBox_leaves (b : Nat) (f : BoxSt → BoxSt) : (n.modBox b f).leaves = n.leaves := rfl
@[simp] theorem Node.modBox_rowsNow (b : Nat) (f : BoxSt → BoxSt) : (n.modBox b f).rowsNow = n.rowsNow := rfl
@[simp] theorem Node.modBox_rowsPrev (b : Nat) (f : BoxSt → BoxSt) : (n.modBox b f).rowsPrev = n.rowsPrev := rfl
@[simp] theorem Node.modBox_office (b : Nat) (f : BoxSt → BoxSt) : (n.modBox b f).office = n.office := rfl
@[simp] theorem Node.modBox_cores (b : Nat) (f : BoxSt → BoxSt) : (n.modBox b f).cores = n.cores := rfl
@[simp] theorem Node.modBox_ports (b : Nat) (f : BoxSt → BoxSt) : (n.modBox b f).ports = n.ports := rfl
@[simp] theorem Node.modBox_locks (b : Nat) (f : BoxSt → BoxSt) : (n.modBox b f).locks = n.locks := rfl
@[simp] theorem Node.modBox_courier (b : Nat) (f : BoxSt → BoxSt) : (n.modBox b f).courier = n.courier := rfl
@[simp] theorem Node.modBox_mig (b : Nat) (f : BoxSt → BoxSt) : (n.modBox b f).mig = n.mig := rfl
@[simp] theorem Node.modBox_nme (b : Nat) (f : BoxSt → BoxSt) : (n.modBox b f).nme = n.nme := rfl
@[simp] theorem Node.modBox_gz (b : Nat) (f : BoxSt → BoxSt) : (n.modBox b f).gz = n.gz := rfl
@[simp] theorem Node.modBox_host (b : Nat) (f : BoxSt → BoxSt) : (n.modBox b f).host = { n.host with boxes := mapMod n.host.boxes b f } := rfl
@[simp] theorem Node.modBox_pool (b : Nat) (f : BoxSt → BoxSt) : (n.modBox b f).pool = n.pool := rfl
@[simp] theorem Node.modBox_sec (b : Nat) (f : BoxSt → BoxSt) : (n.modBox b f).sec = n.sec := rfl
@[simp] theorem Node.modBox_spdm (b : Nat) (f : BoxSt → BoxSt) : (n.modBox b f).spdm = n.spdm := rfl
@[simp] theorem Node.modBox_power (b : Nat) (f : BoxSt → BoxSt) : (n.modBox b f).power = n.power := rfl
@[simp] theorem Node.modBox_dbg (b : Nat) (f : BoxSt → BoxSt) : (n.modBox b f).dbg = n.dbg := rfl
@[simp] theorem Node.modBox_err (b : Nat) (f : BoxSt → BoxSt) : (n.modBox b f).err = n.err := rfl
@[simp] theorem Node.modBox_survey (b : Nat) (f : BoxSt → BoxSt) : (n.modBox b f).survey = n.survey := rfl
@[simp] theorem Node.modBox_pldm (b : Nat) (f : BoxSt → BoxSt) : (n.modBox b f).pldm = n.pldm := rfl
@[simp] theorem Node.modBox_portMode (b : Nat) (f : BoxSt → BoxSt) : (n.modBox b f).portMode = n.portMode := rfl
@[simp] theorem Node.modBox_waits (b : Nat) (f : BoxSt → BoxSt) : (n.modBox b f).waits = n.waits := rfl
@[simp] theorem Node.modBox_loop (b : Nat) (f : BoxSt → BoxSt) : (n.modBox b f).loop = n.loop := rfl
@[simp] theorem Node.modBox_freeCtr (b : Nat) (f : BoxSt → BoxSt) : (n.modBox b f).freeCtr = n.freeCtr := rfl

@[simp] theorem Node.modQp_ident (q : Nat) (f : QpSt → QpSt) : (n.modQp q f).ident = n.ident := rfl
@[simp] theorem Node.modQp_pins (q : Nat) (f : QpSt → QpSt) : (n.modQp q f).pins = n.pins := rfl
@[simp] theorem Node.modQp_boot (q : Nat) (f : QpSt → QpSt) : (n.modQp q f).boot = n.boot := rfl
@[simp] theorem Node.modQp_regs (q : Nat) (f : QpSt → QpSt) : (n.modQp q f).regs = n.regs := rfl
@[simp] theorem Node.modQp_mram (q : Nat) (f : QpSt → QpSt) : (n.modQp q f).mram = n.mram := rfl
@[simp] theorem Node.modQp_hbm (q : Nat) (f : QpSt → QpSt) : (n.modQp q f).hbm = n.hbm := rfl
@[simp] theorem Node.modQp_poison (q : Nat) (f : QpSt → QpSt) : (n.modQp q f).poison = n.poison := rfl
@[simp] theorem Node.modQp_time (q : Nat) (f : QpSt → QpSt) : (n.modQp q f).time = n.time := rfl
@[simp] theorem Node.modQp_chart (q : Nat) (f : QpSt → QpSt) : (n.modQp q f).chart = n.chart := rfl
@[simp] theorem Node.modQp_parts (q : Nat) (f : QpSt → QpSt) : (n.modQp q f).parts = n.parts := rfl
@[simp] theorem Node.modQp_quads (q : Nat) (f : QpSt → QpSt) : (n.modQp q f).quads = n.quads := rfl
@[simp] theorem Node.modQp_granules (q : Nat) (f : QpSt → QpSt) : (n.modQp q f).granules = n.granules := rfl
@[simp] theorem Node.modQp_seqs (q : Nat) (f : QpSt → QpSt) : (n.modQp q f).seqs = n.seqs := rfl
@[simp] theorem Node.modQp_leaves (q : Nat) (f : QpSt → QpSt) : (n.modQp q f).leaves = n.leaves := rfl
@[simp] theorem Node.modQp_rowsNow (q : Nat) (f : QpSt → QpSt) : (n.modQp q f).rowsNow = n.rowsNow := rfl
@[simp] theorem Node.modQp_rowsPrev (q : Nat) (f : QpSt → QpSt) : (n.modQp q f).rowsPrev = n.rowsPrev := rfl
@[simp] theorem Node.modQp_office (q : Nat) (f : QpSt → QpSt) : (n.modQp q f).office = n.office := rfl
@[simp] theorem Node.modQp_cores (q : Nat) (f : QpSt → QpSt) : (n.modQp q f).cores = n.cores := rfl
@[simp] theorem Node.modQp_ports (q : Nat) (f : QpSt → QpSt) : (n.modQp q f).ports = n.ports := rfl
@[simp] theorem Node.modQp_locks (q : Nat) (f : QpSt → QpSt) : (n.modQp q f).locks = n.locks := rfl
@[simp] theorem Node.modQp_courier (q : Nat) (f : QpSt → QpSt) : (n.modQp q f).courier = { n.courier with qps := mapMod n.courier.qps q f } := rfl
@[simp] theorem Node.modQp_mig (q : Nat) (f : QpSt → QpSt) : (n.modQp q f).mig = n.mig := rfl
@[simp] theorem Node.modQp_nme (q : Nat) (f : QpSt → QpSt) : (n.modQp q f).nme = n.nme := rfl
@[simp] theorem Node.modQp_gz (q : Nat) (f : QpSt → QpSt) : (n.modQp q f).gz = n.gz := rfl
@[simp] theorem Node.modQp_host (q : Nat) (f : QpSt → QpSt) : (n.modQp q f).host = n.host := rfl
@[simp] theorem Node.modQp_pool (q : Nat) (f : QpSt → QpSt) : (n.modQp q f).pool = n.pool := rfl
@[simp] theorem Node.modQp_sec (q : Nat) (f : QpSt → QpSt) : (n.modQp q f).sec = n.sec := rfl
@[simp] theorem Node.modQp_spdm (q : Nat) (f : QpSt → QpSt) : (n.modQp q f).spdm = n.spdm := rfl
@[simp] theorem Node.modQp_power (q : Nat) (f : QpSt → QpSt) : (n.modQp q f).power = n.power := rfl
@[simp] theorem Node.modQp_dbg (q : Nat) (f : QpSt → QpSt) : (n.modQp q f).dbg = n.dbg := rfl
@[simp] theorem Node.modQp_err (q : Nat) (f : QpSt → QpSt) : (n.modQp q f).err = n.err := rfl
@[simp] theorem Node.modQp_survey (q : Nat) (f : QpSt → QpSt) : (n.modQp q f).survey = n.survey := rfl
@[simp] theorem Node.modQp_pldm (q : Nat) (f : QpSt → QpSt) : (n.modQp q f).pldm = n.pldm := rfl
@[simp] theorem Node.modQp_portMode (q : Nat) (f : QpSt → QpSt) : (n.modQp q f).portMode = n.portMode := rfl
@[simp] theorem Node.modQp_waits (q : Nat) (f : QpSt → QpSt) : (n.modQp q f).waits = n.waits := rfl
@[simp] theorem Node.modQp_loop (q : Nat) (f : QpSt → QpSt) : (n.modQp q f).loop = n.loop := rfl
@[simp] theorem Node.modQp_freeCtr (q : Nat) (f : QpSt → QpSt) : (n.modQp q f).freeCtr = n.freeCtr := rfl

@[simp] theorem Node.modSlice_ident (s : Nat) (f : SliceSt → SliceSt) : (n.modSlice s f).ident = n.ident := rfl
@[simp] theorem Node.modSlice_pins (s : Nat) (f : SliceSt → SliceSt) : (n.modSlice s f).pins = n.pins := rfl
@[simp] theorem Node.modSlice_boot (s : Nat) (f : SliceSt → SliceSt) : (n.modSlice s f).boot = n.boot := rfl
@[simp] theorem Node.modSlice_regs (s : Nat) (f : SliceSt → SliceSt) : (n.modSlice s f).regs = n.regs := rfl
@[simp] theorem Node.modSlice_mram (s : Nat) (f : SliceSt → SliceSt) : (n.modSlice s f).mram = n.mram := rfl
@[simp] theorem Node.modSlice_hbm (s : Nat) (f : SliceSt → SliceSt) : (n.modSlice s f).hbm = n.hbm := rfl
@[simp] theorem Node.modSlice_poison (s : Nat) (f : SliceSt → SliceSt) : (n.modSlice s f).poison = n.poison := rfl
@[simp] theorem Node.modSlice_time (s : Nat) (f : SliceSt → SliceSt) : (n.modSlice s f).time = n.time := rfl
@[simp] theorem Node.modSlice_chart (s : Nat) (f : SliceSt → SliceSt) : (n.modSlice s f).chart = n.chart := rfl
@[simp] theorem Node.modSlice_parts (s : Nat) (f : SliceSt → SliceSt) : (n.modSlice s f).parts = n.parts := rfl
@[simp] theorem Node.modSlice_quads (s : Nat) (f : SliceSt → SliceSt) : (n.modSlice s f).quads = n.quads := rfl
@[simp] theorem Node.modSlice_granules (s : Nat) (f : SliceSt → SliceSt) : (n.modSlice s f).granules = n.granules := rfl
@[simp] theorem Node.modSlice_seqs (s : Nat) (f : SliceSt → SliceSt) : (n.modSlice s f).seqs = n.seqs := rfl
@[simp] theorem Node.modSlice_leaves (s : Nat) (f : SliceSt → SliceSt) : (n.modSlice s f).leaves = n.leaves := rfl
@[simp] theorem Node.modSlice_rowsNow (s : Nat) (f : SliceSt → SliceSt) : (n.modSlice s f).rowsNow = n.rowsNow := rfl
@[simp] theorem Node.modSlice_rowsPrev (s : Nat) (f : SliceSt → SliceSt) : (n.modSlice s f).rowsPrev = n.rowsPrev := rfl
@[simp] theorem Node.modSlice_office (s : Nat) (f : SliceSt → SliceSt) : (n.modSlice s f).office = n.office := rfl
@[simp] theorem Node.modSlice_cores (s : Nat) (f : SliceSt → SliceSt) : (n.modSlice s f).cores = n.cores := rfl
@[simp] theorem Node.modSlice_ports (s : Nat) (f : SliceSt → SliceSt) : (n.modSlice s f).ports = n.ports := rfl
@[simp] theorem Node.modSlice_locks (s : Nat) (f : SliceSt → SliceSt) : (n.modSlice s f).locks = n.locks := rfl
@[simp] theorem Node.modSlice_courier (s : Nat) (f : SliceSt → SliceSt) : (n.modSlice s f).courier = n.courier := rfl
@[simp] theorem Node.modSlice_mig (s : Nat) (f : SliceSt → SliceSt) : (n.modSlice s f).mig = n.mig := rfl
@[simp] theorem Node.modSlice_nme (s : Nat) (f : SliceSt → SliceSt) : (n.modSlice s f).nme = n.nme := rfl
@[simp] theorem Node.modSlice_gz (s : Nat) (f : SliceSt → SliceSt) : (n.modSlice s f).gz = mapMod n.gz s f := rfl
@[simp] theorem Node.modSlice_host (s : Nat) (f : SliceSt → SliceSt) : (n.modSlice s f).host = n.host := rfl
@[simp] theorem Node.modSlice_pool (s : Nat) (f : SliceSt → SliceSt) : (n.modSlice s f).pool = n.pool := rfl
@[simp] theorem Node.modSlice_sec (s : Nat) (f : SliceSt → SliceSt) : (n.modSlice s f).sec = n.sec := rfl
@[simp] theorem Node.modSlice_spdm (s : Nat) (f : SliceSt → SliceSt) : (n.modSlice s f).spdm = n.spdm := rfl
@[simp] theorem Node.modSlice_power (s : Nat) (f : SliceSt → SliceSt) : (n.modSlice s f).power = n.power := rfl
@[simp] theorem Node.modSlice_dbg (s : Nat) (f : SliceSt → SliceSt) : (n.modSlice s f).dbg = n.dbg := rfl
@[simp] theorem Node.modSlice_err (s : Nat) (f : SliceSt → SliceSt) : (n.modSlice s f).err = n.err := rfl
@[simp] theorem Node.modSlice_survey (s : Nat) (f : SliceSt → SliceSt) : (n.modSlice s f).survey = n.survey := rfl
@[simp] theorem Node.modSlice_pldm (s : Nat) (f : SliceSt → SliceSt) : (n.modSlice s f).pldm = n.pldm := rfl
@[simp] theorem Node.modSlice_portMode (s : Nat) (f : SliceSt → SliceSt) : (n.modSlice s f).portMode = n.portMode := rfl
@[simp] theorem Node.modSlice_waits (s : Nat) (f : SliceSt → SliceSt) : (n.modSlice s f).waits = n.waits := rfl
@[simp] theorem Node.modSlice_loop (s : Nat) (f : SliceSt → SliceSt) : (n.modSlice s f).loop = n.loop := rfl
@[simp] theorem Node.modSlice_freeCtr (s : Nat) (f : SliceSt → SliceSt) : (n.modSlice s f).freeCtr = n.freeCtr := rfl

@[simp] theorem Node.modExt_ident (e : Nat) (f : ExtSt → ExtSt) : (n.modExt e f).ident = n.ident := rfl
@[simp] theorem Node.modExt_pins (e : Nat) (f : ExtSt → ExtSt) : (n.modExt e f).pins = n.pins := rfl
@[simp] theorem Node.modExt_boot (e : Nat) (f : ExtSt → ExtSt) : (n.modExt e f).boot = n.boot := rfl
@[simp] theorem Node.modExt_regs (e : Nat) (f : ExtSt → ExtSt) : (n.modExt e f).regs = n.regs := rfl
@[simp] theorem Node.modExt_mram (e : Nat) (f : ExtSt → ExtSt) : (n.modExt e f).mram = n.mram := rfl
@[simp] theorem Node.modExt_hbm (e : Nat) (f : ExtSt → ExtSt) : (n.modExt e f).hbm = n.hbm := rfl
@[simp] theorem Node.modExt_poison (e : Nat) (f : ExtSt → ExtSt) : (n.modExt e f).poison = n.poison := rfl
@[simp] theorem Node.modExt_time (e : Nat) (f : ExtSt → ExtSt) : (n.modExt e f).time = n.time := rfl
@[simp] theorem Node.modExt_chart (e : Nat) (f : ExtSt → ExtSt) : (n.modExt e f).chart = n.chart := rfl
@[simp] theorem Node.modExt_parts (e : Nat) (f : ExtSt → ExtSt) : (n.modExt e f).parts = n.parts := rfl
@[simp] theorem Node.modExt_quads (e : Nat) (f : ExtSt → ExtSt) : (n.modExt e f).quads = n.quads := rfl
@[simp] theorem Node.modExt_granules (e : Nat) (f : ExtSt → ExtSt) : (n.modExt e f).granules = n.granules := rfl
@[simp] theorem Node.modExt_seqs (e : Nat) (f : ExtSt → ExtSt) : (n.modExt e f).seqs = n.seqs := rfl
@[simp] theorem Node.modExt_leaves (e : Nat) (f : ExtSt → ExtSt) : (n.modExt e f).leaves = n.leaves := rfl
@[simp] theorem Node.modExt_rowsNow (e : Nat) (f : ExtSt → ExtSt) : (n.modExt e f).rowsNow = n.rowsNow := rfl
@[simp] theorem Node.modExt_rowsPrev (e : Nat) (f : ExtSt → ExtSt) : (n.modExt e f).rowsPrev = n.rowsPrev := rfl
@[simp] theorem Node.modExt_office (e : Nat) (f : ExtSt → ExtSt) : (n.modExt e f).office = n.office := rfl
@[simp] theorem Node.modExt_cores (e : Nat) (f : ExtSt → ExtSt) : (n.modExt e f).cores = n.cores := rfl
@[simp] theorem Node.modExt_ports (e : Nat) (f : ExtSt → ExtSt) : (n.modExt e f).ports = n.ports := rfl
@[simp] theorem Node.modExt_locks (e : Nat) (f : ExtSt → ExtSt) : (n.modExt e f).locks = n.locks := rfl
@[simp] theorem Node.modExt_courier (e : Nat) (f : ExtSt → ExtSt) : (n.modExt e f).courier = n.courier := rfl
@[simp] theorem Node.modExt_mig (e : Nat) (f : ExtSt → ExtSt) : (n.modExt e f).mig = n.mig := rfl
@[simp] theorem Node.modExt_nme (e : Nat) (f : ExtSt → ExtSt) : (n.modExt e f).nme = n.nme := rfl
@[simp] theorem Node.modExt_gz (e : Nat) (f : ExtSt → ExtSt) : (n.modExt e f).gz = n.gz := rfl
@[simp] theorem Node.modExt_host (e : Nat) (f : ExtSt → ExtSt) : (n.modExt e f).host = n.host := rfl
@[simp] theorem Node.modExt_pool (e : Nat) (f : ExtSt → ExtSt) : (n.modExt e f).pool = { n.pool with exts := mapMod n.pool.exts e f } := rfl
@[simp] theorem Node.modExt_sec (e : Nat) (f : ExtSt → ExtSt) : (n.modExt e f).sec = n.sec := rfl
@[simp] theorem Node.modExt_spdm (e : Nat) (f : ExtSt → ExtSt) : (n.modExt e f).spdm = n.spdm := rfl
@[simp] theorem Node.modExt_power (e : Nat) (f : ExtSt → ExtSt) : (n.modExt e f).power = n.power := rfl
@[simp] theorem Node.modExt_dbg (e : Nat) (f : ExtSt → ExtSt) : (n.modExt e f).dbg = n.dbg := rfl
@[simp] theorem Node.modExt_err (e : Nat) (f : ExtSt → ExtSt) : (n.modExt e f).err = n.err := rfl
@[simp] theorem Node.modExt_survey (e : Nat) (f : ExtSt → ExtSt) : (n.modExt e f).survey = n.survey := rfl
@[simp] theorem Node.modExt_pldm (e : Nat) (f : ExtSt → ExtSt) : (n.modExt e f).pldm = n.pldm := rfl
@[simp] theorem Node.modExt_portMode (e : Nat) (f : ExtSt → ExtSt) : (n.modExt e f).portMode = n.portMode := rfl
@[simp] theorem Node.modExt_waits (e : Nat) (f : ExtSt → ExtSt) : (n.modExt e f).waits = n.waits := rfl
@[simp] theorem Node.modExt_loop (e : Nat) (f : ExtSt → ExtSt) : (n.modExt e f).loop = n.loop := rfl
@[simp] theorem Node.modExt_freeCtr (e : Nat) (f : ExtSt → ExtSt) : (n.modExt e f).freeCtr = n.freeCtr := rfl

@[simp] theorem Node.modTime_ident (f : TimeSt → TimeSt) : (n.modTime f).ident = n.ident := rfl
@[simp] theorem Node.modTime_pins (f : TimeSt → TimeSt) : (n.modTime f).pins = n.pins := rfl
@[simp] theorem Node.modTime_boot (f : TimeSt → TimeSt) : (n.modTime f).boot = n.boot := rfl
@[simp] theorem Node.modTime_regs (f : TimeSt → TimeSt) : (n.modTime f).regs = n.regs := rfl
@[simp] theorem Node.modTime_mram (f : TimeSt → TimeSt) : (n.modTime f).mram = n.mram := rfl
@[simp] theorem Node.modTime_hbm (f : TimeSt → TimeSt) : (n.modTime f).hbm = n.hbm := rfl
@[simp] theorem Node.modTime_poison (f : TimeSt → TimeSt) : (n.modTime f).poison = n.poison := rfl
@[simp] theorem Node.modTime_time (f : TimeSt → TimeSt) : (n.modTime f).time = f n.time := rfl
@[simp] theorem Node.modTime_chart (f : TimeSt → TimeSt) : (n.modTime f).chart = n.chart := rfl
@[simp] theorem Node.modTime_parts (f : TimeSt → TimeSt) : (n.modTime f).parts = n.parts := rfl
@[simp] theorem Node.modTime_quads (f : TimeSt → TimeSt) : (n.modTime f).quads = n.quads := rfl
@[simp] theorem Node.modTime_granules (f : TimeSt → TimeSt) : (n.modTime f).granules = n.granules := rfl
@[simp] theorem Node.modTime_seqs (f : TimeSt → TimeSt) : (n.modTime f).seqs = n.seqs := rfl
@[simp] theorem Node.modTime_leaves (f : TimeSt → TimeSt) : (n.modTime f).leaves = n.leaves := rfl
@[simp] theorem Node.modTime_rowsNow (f : TimeSt → TimeSt) : (n.modTime f).rowsNow = n.rowsNow := rfl
@[simp] theorem Node.modTime_rowsPrev (f : TimeSt → TimeSt) : (n.modTime f).rowsPrev = n.rowsPrev := rfl
@[simp] theorem Node.modTime_office (f : TimeSt → TimeSt) : (n.modTime f).office = n.office := rfl
@[simp] theorem Node.modTime_cores (f : TimeSt → TimeSt) : (n.modTime f).cores = n.cores := rfl
@[simp] theorem Node.modTime_ports (f : TimeSt → TimeSt) : (n.modTime f).ports = n.ports := rfl
@[simp] theorem Node.modTime_locks (f : TimeSt → TimeSt) : (n.modTime f).locks = n.locks := rfl
@[simp] theorem Node.modTime_courier (f : TimeSt → TimeSt) : (n.modTime f).courier = n.courier := rfl
@[simp] theorem Node.modTime_mig (f : TimeSt → TimeSt) : (n.modTime f).mig = n.mig := rfl
@[simp] theorem Node.modTime_nme (f : TimeSt → TimeSt) : (n.modTime f).nme = n.nme := rfl
@[simp] theorem Node.modTime_gz (f : TimeSt → TimeSt) : (n.modTime f).gz = n.gz := rfl
@[simp] theorem Node.modTime_host (f : TimeSt → TimeSt) : (n.modTime f).host = n.host := rfl
@[simp] theorem Node.modTime_pool (f : TimeSt → TimeSt) : (n.modTime f).pool = n.pool := rfl
@[simp] theorem Node.modTime_sec (f : TimeSt → TimeSt) : (n.modTime f).sec = n.sec := rfl
@[simp] theorem Node.modTime_spdm (f : TimeSt → TimeSt) : (n.modTime f).spdm = n.spdm := rfl
@[simp] theorem Node.modTime_power (f : TimeSt → TimeSt) : (n.modTime f).power = n.power := rfl
@[simp] theorem Node.modTime_dbg (f : TimeSt → TimeSt) : (n.modTime f).dbg = n.dbg := rfl
@[simp] theorem Node.modTime_err (f : TimeSt → TimeSt) : (n.modTime f).err = n.err := rfl
@[simp] theorem Node.modTime_survey (f : TimeSt → TimeSt) : (n.modTime f).survey = n.survey := rfl
@[simp] theorem Node.modTime_pldm (f : TimeSt → TimeSt) : (n.modTime f).pldm = n.pldm := rfl
@[simp] theorem Node.modTime_portMode (f : TimeSt → TimeSt) : (n.modTime f).portMode = n.portMode := rfl
@[simp] theorem Node.modTime_waits (f : TimeSt → TimeSt) : (n.modTime f).waits = n.waits := rfl
@[simp] theorem Node.modTime_loop (f : TimeSt → TimeSt) : (n.modTime f).loop = n.loop := rfl
@[simp] theorem Node.modTime_freeCtr (f : TimeSt → TimeSt) : (n.modTime f).freeCtr = n.freeCtr := rfl

@[simp] theorem Node.modOffice_ident (f : OfficeSt → OfficeSt) : (n.modOffice f).ident = n.ident := rfl
@[simp] theorem Node.modOffice_pins (f : OfficeSt → OfficeSt) : (n.modOffice f).pins = n.pins := rfl
@[simp] theorem Node.modOffice_boot (f : OfficeSt → OfficeSt) : (n.modOffice f).boot = n.boot := rfl
@[simp] theorem Node.modOffice_regs (f : OfficeSt → OfficeSt) : (n.modOffice f).regs = n.regs := rfl
@[simp] theorem Node.modOffice_mram (f : OfficeSt → OfficeSt) : (n.modOffice f).mram = n.mram := rfl
@[simp] theorem Node.modOffice_hbm (f : OfficeSt → OfficeSt) : (n.modOffice f).hbm = n.hbm := rfl
@[simp] theorem Node.modOffice_poison (f : OfficeSt → OfficeSt) : (n.modOffice f).poison = n.poison := rfl
@[simp] theorem Node.modOffice_time (f : OfficeSt → OfficeSt) : (n.modOffice f).time = n.time := rfl
@[simp] theorem Node.modOffice_chart (f : OfficeSt → OfficeSt) : (n.modOffice f).chart = n.chart := rfl
@[simp] theorem Node.modOffice_parts (f : OfficeSt → OfficeSt) : (n.modOffice f).parts = n.parts := rfl
@[simp] theorem Node.modOffice_quads (f : OfficeSt → OfficeSt) : (n.modOffice f).quads = n.quads := rfl
@[simp] theorem Node.modOffice_granules (f : OfficeSt → OfficeSt) : (n.modOffice f).granules = n.granules := rfl
@[simp] theorem Node.modOffice_seqs (f : OfficeSt → OfficeSt) : (n.modOffice f).seqs = n.seqs := rfl
@[simp] theorem Node.modOffice_leaves (f : OfficeSt → OfficeSt) : (n.modOffice f).leaves = n.leaves := rfl
@[simp] theorem Node.modOffice_rowsNow (f : OfficeSt → OfficeSt) : (n.modOffice f).rowsNow = n.rowsNow := rfl
@[simp] theorem Node.modOffice_rowsPrev (f : OfficeSt → OfficeSt) : (n.modOffice f).rowsPrev = n.rowsPrev := rfl
@[simp] theorem Node.modOffice_office (f : OfficeSt → OfficeSt) : (n.modOffice f).office = f n.office := rfl
@[simp] theorem Node.modOffice_cores (f : OfficeSt → OfficeSt) : (n.modOffice f).cores = n.cores := rfl
@[simp] theorem Node.modOffice_ports (f : OfficeSt → OfficeSt) : (n.modOffice f).ports = n.ports := rfl
@[simp] theorem Node.modOffice_locks (f : OfficeSt → OfficeSt) : (n.modOffice f).locks = n.locks := rfl
@[simp] theorem Node.modOffice_courier (f : OfficeSt → OfficeSt) : (n.modOffice f).courier = n.courier := rfl
@[simp] theorem Node.modOffice_mig (f : OfficeSt → OfficeSt) : (n.modOffice f).mig = n.mig := rfl
@[simp] theorem Node.modOffice_nme (f : OfficeSt → OfficeSt) : (n.modOffice f).nme = n.nme := rfl
@[simp] theorem Node.modOffice_gz (f : OfficeSt → OfficeSt) : (n.modOffice f).gz = n.gz := rfl
@[simp] theorem Node.modOffice_host (f : OfficeSt → OfficeSt) : (n.modOffice f).host = n.host := rfl
@[simp] theorem Node.modOffice_pool (f : OfficeSt → OfficeSt) : (n.modOffice f).pool = n.pool := rfl
@[simp] theorem Node.modOffice_sec (f : OfficeSt → OfficeSt) : (n.modOffice f).sec = n.sec := rfl
@[simp] theorem Node.modOffice_spdm (f : OfficeSt → OfficeSt) : (n.modOffice f).spdm = n.spdm := rfl
@[simp] theorem Node.modOffice_power (f : OfficeSt → OfficeSt) : (n.modOffice f).power = n.power := rfl
@[simp] theorem Node.modOffice_dbg (f : OfficeSt → OfficeSt) : (n.modOffice f).dbg = n.dbg := rfl
@[simp] theorem Node.modOffice_err (f : OfficeSt → OfficeSt) : (n.modOffice f).err = n.err := rfl
@[simp] theorem Node.modOffice_survey (f : OfficeSt → OfficeSt) : (n.modOffice f).survey = n.survey := rfl
@[simp] theorem Node.modOffice_pldm (f : OfficeSt → OfficeSt) : (n.modOffice f).pldm = n.pldm := rfl
@[simp] theorem Node.modOffice_portMode (f : OfficeSt → OfficeSt) : (n.modOffice f).portMode = n.portMode := rfl
@[simp] theorem Node.modOffice_waits (f : OfficeSt → OfficeSt) : (n.modOffice f).waits = n.waits := rfl
@[simp] theorem Node.modOffice_loop (f : OfficeSt → OfficeSt) : (n.modOffice f).loop = n.loop := rfl
@[simp] theorem Node.modOffice_freeCtr (f : OfficeSt → OfficeSt) : (n.modOffice f).freeCtr = n.freeCtr := rfl

@[simp] theorem Node.modMig_ident (f : MigSt → MigSt) : (n.modMig f).ident = n.ident := rfl
@[simp] theorem Node.modMig_pins (f : MigSt → MigSt) : (n.modMig f).pins = n.pins := rfl
@[simp] theorem Node.modMig_boot (f : MigSt → MigSt) : (n.modMig f).boot = n.boot := rfl
@[simp] theorem Node.modMig_regs (f : MigSt → MigSt) : (n.modMig f).regs = n.regs := rfl
@[simp] theorem Node.modMig_mram (f : MigSt → MigSt) : (n.modMig f).mram = n.mram := rfl
@[simp] theorem Node.modMig_hbm (f : MigSt → MigSt) : (n.modMig f).hbm = n.hbm := rfl
@[simp] theorem Node.modMig_poison (f : MigSt → MigSt) : (n.modMig f).poison = n.poison := rfl
@[simp] theorem Node.modMig_time (f : MigSt → MigSt) : (n.modMig f).time = n.time := rfl
@[simp] theorem Node.modMig_chart (f : MigSt → MigSt) : (n.modMig f).chart = n.chart := rfl
@[simp] theorem Node.modMig_parts (f : MigSt → MigSt) : (n.modMig f).parts = n.parts := rfl
@[simp] theorem Node.modMig_quads (f : MigSt → MigSt) : (n.modMig f).quads = n.quads := rfl
@[simp] theorem Node.modMig_granules (f : MigSt → MigSt) : (n.modMig f).granules = n.granules := rfl
@[simp] theorem Node.modMig_seqs (f : MigSt → MigSt) : (n.modMig f).seqs = n.seqs := rfl
@[simp] theorem Node.modMig_leaves (f : MigSt → MigSt) : (n.modMig f).leaves = n.leaves := rfl
@[simp] theorem Node.modMig_rowsNow (f : MigSt → MigSt) : (n.modMig f).rowsNow = n.rowsNow := rfl
@[simp] theorem Node.modMig_rowsPrev (f : MigSt → MigSt) : (n.modMig f).rowsPrev = n.rowsPrev := rfl
@[simp] theorem Node.modMig_office (f : MigSt → MigSt) : (n.modMig f).office = n.office := rfl
@[simp] theorem Node.modMig_cores (f : MigSt → MigSt) : (n.modMig f).cores = n.cores := rfl
@[simp] theorem Node.modMig_ports (f : MigSt → MigSt) : (n.modMig f).ports = n.ports := rfl
@[simp] theorem Node.modMig_locks (f : MigSt → MigSt) : (n.modMig f).locks = n.locks := rfl
@[simp] theorem Node.modMig_courier (f : MigSt → MigSt) : (n.modMig f).courier = n.courier := rfl
@[simp] theorem Node.modMig_mig (f : MigSt → MigSt) : (n.modMig f).mig = f n.mig := rfl
@[simp] theorem Node.modMig_nme (f : MigSt → MigSt) : (n.modMig f).nme = n.nme := rfl
@[simp] theorem Node.modMig_gz (f : MigSt → MigSt) : (n.modMig f).gz = n.gz := rfl
@[simp] theorem Node.modMig_host (f : MigSt → MigSt) : (n.modMig f).host = n.host := rfl
@[simp] theorem Node.modMig_pool (f : MigSt → MigSt) : (n.modMig f).pool = n.pool := rfl
@[simp] theorem Node.modMig_sec (f : MigSt → MigSt) : (n.modMig f).sec = n.sec := rfl
@[simp] theorem Node.modMig_spdm (f : MigSt → MigSt) : (n.modMig f).spdm = n.spdm := rfl
@[simp] theorem Node.modMig_power (f : MigSt → MigSt) : (n.modMig f).power = n.power := rfl
@[simp] theorem Node.modMig_dbg (f : MigSt → MigSt) : (n.modMig f).dbg = n.dbg := rfl
@[simp] theorem Node.modMig_err (f : MigSt → MigSt) : (n.modMig f).err = n.err := rfl
@[simp] theorem Node.modMig_survey (f : MigSt → MigSt) : (n.modMig f).survey = n.survey := rfl
@[simp] theorem Node.modMig_pldm (f : MigSt → MigSt) : (n.modMig f).pldm = n.pldm := rfl
@[simp] theorem Node.modMig_portMode (f : MigSt → MigSt) : (n.modMig f).portMode = n.portMode := rfl
@[simp] theorem Node.modMig_waits (f : MigSt → MigSt) : (n.modMig f).waits = n.waits := rfl
@[simp] theorem Node.modMig_loop (f : MigSt → MigSt) : (n.modMig f).loop = n.loop := rfl
@[simp] theorem Node.modMig_freeCtr (f : MigSt → MigSt) : (n.modMig f).freeCtr = n.freeCtr := rfl

@[simp] theorem Node.modHost_ident (f : HostSt → HostSt) : (n.modHost f).ident = n.ident := rfl
@[simp] theorem Node.modHost_pins (f : HostSt → HostSt) : (n.modHost f).pins = n.pins := rfl
@[simp] theorem Node.modHost_boot (f : HostSt → HostSt) : (n.modHost f).boot = n.boot := rfl
@[simp] theorem Node.modHost_regs (f : HostSt → HostSt) : (n.modHost f).regs = n.regs := rfl
@[simp] theorem Node.modHost_mram (f : HostSt → HostSt) : (n.modHost f).mram = n.mram := rfl
@[simp] theorem Node.modHost_hbm (f : HostSt → HostSt) : (n.modHost f).hbm = n.hbm := rfl
@[simp] theorem Node.modHost_poison (f : HostSt → HostSt) : (n.modHost f).poison = n.poison := rfl
@[simp] theorem Node.modHost_time (f : HostSt → HostSt) : (n.modHost f).time = n.time := rfl
@[simp] theorem Node.modHost_chart (f : HostSt → HostSt) : (n.modHost f).chart = n.chart := rfl
@[simp] theorem Node.modHost_parts (f : HostSt → HostSt) : (n.modHost f).parts = n.parts := rfl
@[simp] theorem Node.modHost_quads (f : HostSt → HostSt) : (n.modHost f).quads = n.quads := rfl
@[simp] theorem Node.modHost_granules (f : HostSt → HostSt) : (n.modHost f).granules = n.granules := rfl
@[simp] theorem Node.modHost_seqs (f : HostSt → HostSt) : (n.modHost f).seqs = n.seqs := rfl
@[simp] theorem Node.modHost_leaves (f : HostSt → HostSt) : (n.modHost f).leaves = n.leaves := rfl
@[simp] theorem Node.modHost_rowsNow (f : HostSt → HostSt) : (n.modHost f).rowsNow = n.rowsNow := rfl
@[simp] theorem Node.modHost_rowsPrev (f : HostSt → HostSt) : (n.modHost f).rowsPrev = n.rowsPrev := rfl
@[simp] theorem Node.modHost_office (f : HostSt → HostSt) : (n.modHost f).office = n.office := rfl
@[simp] theorem Node.modHost_cores (f : HostSt → HostSt) : (n.modHost f).cores = n.cores := rfl
@[simp] theorem Node.modHost_ports (f : HostSt → HostSt) : (n.modHost f).ports = n.ports := rfl
@[simp] theorem Node.modHost_locks (f : HostSt → HostSt) : (n.modHost f).locks = n.locks := rfl
@[simp] theorem Node.modHost_courier (f : HostSt → HostSt) : (n.modHost f).courier = n.courier := rfl
@[simp] theorem Node.modHost_mig (f : HostSt → HostSt) : (n.modHost f).mig = n.mig := rfl
@[simp] theorem Node.modHost_nme (f : HostSt → HostSt) : (n.modHost f).nme = n.nme := rfl
@[simp] theorem Node.modHost_gz (f : HostSt → HostSt) : (n.modHost f).gz = n.gz := rfl
@[simp] theorem Node.modHost_host (f : HostSt → HostSt) : (n.modHost f).host = f n.host := rfl
@[simp] theorem Node.modHost_pool (f : HostSt → HostSt) : (n.modHost f).pool = n.pool := rfl
@[simp] theorem Node.modHost_sec (f : HostSt → HostSt) : (n.modHost f).sec = n.sec := rfl
@[simp] theorem Node.modHost_spdm (f : HostSt → HostSt) : (n.modHost f).spdm = n.spdm := rfl
@[simp] theorem Node.modHost_power (f : HostSt → HostSt) : (n.modHost f).power = n.power := rfl
@[simp] theorem Node.modHost_dbg (f : HostSt → HostSt) : (n.modHost f).dbg = n.dbg := rfl
@[simp] theorem Node.modHost_err (f : HostSt → HostSt) : (n.modHost f).err = n.err := rfl
@[simp] theorem Node.modHost_survey (f : HostSt → HostSt) : (n.modHost f).survey = n.survey := rfl
@[simp] theorem Node.modHost_pldm (f : HostSt → HostSt) : (n.modHost f).pldm = n.pldm := rfl
@[simp] theorem Node.modHost_portMode (f : HostSt → HostSt) : (n.modHost f).portMode = n.portMode := rfl
@[simp] theorem Node.modHost_waits (f : HostSt → HostSt) : (n.modHost f).waits = n.waits := rfl
@[simp] theorem Node.modHost_loop (f : HostSt → HostSt) : (n.modHost f).loop = n.loop := rfl
@[simp] theorem Node.modHost_freeCtr (f : HostSt → HostSt) : (n.modHost f).freeCtr = n.freeCtr := rfl

@[simp] theorem Node.modSec_ident (f : SecSt → SecSt) : (n.modSec f).ident = n.ident := rfl
@[simp] theorem Node.modSec_pins (f : SecSt → SecSt) : (n.modSec f).pins = n.pins := rfl
@[simp] theorem Node.modSec_boot (f : SecSt → SecSt) : (n.modSec f).boot = n.boot := rfl
@[simp] theorem Node.modSec_regs (f : SecSt → SecSt) : (n.modSec f).regs = n.regs := rfl
@[simp] theorem Node.modSec_mram (f : SecSt → SecSt) : (n.modSec f).mram = n.mram := rfl
@[simp] theorem Node.modSec_hbm (f : SecSt → SecSt) : (n.modSec f).hbm = n.hbm := rfl
@[simp] theorem Node.modSec_poison (f : SecSt → SecSt) : (n.modSec f).poison = n.poison := rfl
@[simp] theorem Node.modSec_time (f : SecSt → SecSt) : (n.modSec f).time = n.time := rfl
@[simp] theorem Node.modSec_chart (f : SecSt → SecSt) : (n.modSec f).chart = n.chart := rfl
@[simp] theorem Node.modSec_parts (f : SecSt → SecSt) : (n.modSec f).parts = n.parts := rfl
@[simp] theorem Node.modSec_quads (f : SecSt → SecSt) : (n.modSec f).quads = n.quads := rfl
@[simp] theorem Node.modSec_granules (f : SecSt → SecSt) : (n.modSec f).granules = n.granules := rfl
@[simp] theorem Node.modSec_seqs (f : SecSt → SecSt) : (n.modSec f).seqs = n.seqs := rfl
@[simp] theorem Node.modSec_leaves (f : SecSt → SecSt) : (n.modSec f).leaves = n.leaves := rfl
@[simp] theorem Node.modSec_rowsNow (f : SecSt → SecSt) : (n.modSec f).rowsNow = n.rowsNow := rfl
@[simp] theorem Node.modSec_rowsPrev (f : SecSt → SecSt) : (n.modSec f).rowsPrev = n.rowsPrev := rfl
@[simp] theorem Node.modSec_office (f : SecSt → SecSt) : (n.modSec f).office = n.office := rfl
@[simp] theorem Node.modSec_cores (f : SecSt → SecSt) : (n.modSec f).cores = n.cores := rfl
@[simp] theorem Node.modSec_ports (f : SecSt → SecSt) : (n.modSec f).ports = n.ports := rfl
@[simp] theorem Node.modSec_locks (f : SecSt → SecSt) : (n.modSec f).locks = n.locks := rfl
@[simp] theorem Node.modSec_courier (f : SecSt → SecSt) : (n.modSec f).courier = n.courier := rfl
@[simp] theorem Node.modSec_mig (f : SecSt → SecSt) : (n.modSec f).mig = n.mig := rfl
@[simp] theorem Node.modSec_nme (f : SecSt → SecSt) : (n.modSec f).nme = n.nme := rfl
@[simp] theorem Node.modSec_gz (f : SecSt → SecSt) : (n.modSec f).gz = n.gz := rfl
@[simp] theorem Node.modSec_host (f : SecSt → SecSt) : (n.modSec f).host = n.host := rfl
@[simp] theorem Node.modSec_pool (f : SecSt → SecSt) : (n.modSec f).pool = n.pool := rfl
@[simp] theorem Node.modSec_sec (f : SecSt → SecSt) : (n.modSec f).sec = f n.sec := rfl
@[simp] theorem Node.modSec_spdm (f : SecSt → SecSt) : (n.modSec f).spdm = n.spdm := rfl
@[simp] theorem Node.modSec_power (f : SecSt → SecSt) : (n.modSec f).power = n.power := rfl
@[simp] theorem Node.modSec_dbg (f : SecSt → SecSt) : (n.modSec f).dbg = n.dbg := rfl
@[simp] theorem Node.modSec_err (f : SecSt → SecSt) : (n.modSec f).err = n.err := rfl
@[simp] theorem Node.modSec_survey (f : SecSt → SecSt) : (n.modSec f).survey = n.survey := rfl
@[simp] theorem Node.modSec_pldm (f : SecSt → SecSt) : (n.modSec f).pldm = n.pldm := rfl
@[simp] theorem Node.modSec_portMode (f : SecSt → SecSt) : (n.modSec f).portMode = n.portMode := rfl
@[simp] theorem Node.modSec_waits (f : SecSt → SecSt) : (n.modSec f).waits = n.waits := rfl
@[simp] theorem Node.modSec_loop (f : SecSt → SecSt) : (n.modSec f).loop = n.loop := rfl
@[simp] theorem Node.modSec_freeCtr (f : SecSt → SecSt) : (n.modSec f).freeCtr = n.freeCtr := rfl

@[simp] theorem Node.modPower_ident (f : PowerSt → PowerSt) : (n.modPower f).ident = n.ident := rfl
@[simp] theorem Node.modPower_pins (f : PowerSt → PowerSt) : (n.modPower f).pins = n.pins := rfl
@[simp] theorem Node.modPower_boot (f : PowerSt → PowerSt) : (n.modPower f).boot = n.boot := rfl
@[simp] theorem Node.modPower_regs (f : PowerSt → PowerSt) : (n.modPower f).regs = n.regs := rfl
@[simp] theorem Node.modPower_mram (f : PowerSt → PowerSt) : (n.modPower f).mram = n.mram := rfl
@[simp] theorem Node.modPower_hbm (f : PowerSt → PowerSt) : (n.modPower f).hbm = n.hbm := rfl
@[simp] theorem Node.modPower_poison (f : PowerSt → PowerSt) : (n.modPower f).poison = n.poison := rfl
@[simp] theorem Node.modPower_time (f : PowerSt → PowerSt) : (n.modPower f).time = n.time := rfl
@[simp] theorem Node.modPower_chart (f : PowerSt → PowerSt) : (n.modPower f).chart = n.chart := rfl
@[simp] theorem Node.modPower_parts (f : PowerSt → PowerSt) : (n.modPower f).parts = n.parts := rfl
@[simp] theorem Node.modPower_quads (f : PowerSt → PowerSt) : (n.modPower f).quads = n.quads := rfl
@[simp] theorem Node.modPower_granules (f : PowerSt → PowerSt) : (n.modPower f).granules = n.granules := rfl
@[simp] theorem Node.modPower_seqs (f : PowerSt → PowerSt) : (n.modPower f).seqs = n.seqs := rfl
@[simp] theorem Node.modPower_leaves (f : PowerSt → PowerSt) : (n.modPower f).leaves = n.leaves := rfl
@[simp] theorem Node.modPower_rowsNow (f : PowerSt → PowerSt) : (n.modPower f).rowsNow = n.rowsNow := rfl
@[simp] theorem Node.modPower_rowsPrev (f : PowerSt → PowerSt) : (n.modPower f).rowsPrev = n.rowsPrev := rfl
@[simp] theorem Node.modPower_office (f : PowerSt → PowerSt) : (n.modPower f).office = n.office := rfl
@[simp] theorem Node.modPower_cores (f : PowerSt → PowerSt) : (n.modPower f).cores = n.cores := rfl
@[simp] theorem Node.modPower_ports (f : PowerSt → PowerSt) : (n.modPower f).ports = n.ports := rfl
@[simp] theorem Node.modPower_locks (f : PowerSt → PowerSt) : (n.modPower f).locks = n.locks := rfl
@[simp] theorem Node.modPower_courier (f : PowerSt → PowerSt) : (n.modPower f).courier = n.courier := rfl
@[simp] theorem Node.modPower_mig (f : PowerSt → PowerSt) : (n.modPower f).mig = n.mig := rfl
@[simp] theorem Node.modPower_nme (f : PowerSt → PowerSt) : (n.modPower f).nme = n.nme := rfl
@[simp] theorem Node.modPower_gz (f : PowerSt → PowerSt) : (n.modPower f).gz = n.gz := rfl
@[simp] theorem Node.modPower_host (f : PowerSt → PowerSt) : (n.modPower f).host = n.host := rfl
@[simp] theorem Node.modPower_pool (f : PowerSt → PowerSt) : (n.modPower f).pool = n.pool := rfl
@[simp] theorem Node.modPower_sec (f : PowerSt → PowerSt) : (n.modPower f).sec = n.sec := rfl
@[simp] theorem Node.modPower_spdm (f : PowerSt → PowerSt) : (n.modPower f).spdm = n.spdm := rfl
@[simp] theorem Node.modPower_power (f : PowerSt → PowerSt) : (n.modPower f).power = f n.power := rfl
@[simp] theorem Node.modPower_dbg (f : PowerSt → PowerSt) : (n.modPower f).dbg = n.dbg := rfl
@[simp] theorem Node.modPower_err (f : PowerSt → PowerSt) : (n.modPower f).err = n.err := rfl
@[simp] theorem Node.modPower_survey (f : PowerSt → PowerSt) : (n.modPower f).survey = n.survey := rfl
@[simp] theorem Node.modPower_pldm (f : PowerSt → PowerSt) : (n.modPower f).pldm = n.pldm := rfl
@[simp] theorem Node.modPower_portMode (f : PowerSt → PowerSt) : (n.modPower f).portMode = n.portMode := rfl
@[simp] theorem Node.modPower_waits (f : PowerSt → PowerSt) : (n.modPower f).waits = n.waits := rfl
@[simp] theorem Node.modPower_loop (f : PowerSt → PowerSt) : (n.modPower f).loop = n.loop := rfl
@[simp] theorem Node.modPower_freeCtr (f : PowerSt → PowerSt) : (n.modPower f).freeCtr = n.freeCtr := rfl

@[simp] theorem Node.modDebug_ident (f : DebugSt → DebugSt) : (n.modDebug f).ident = n.ident := rfl
@[simp] theorem Node.modDebug_pins (f : DebugSt → DebugSt) : (n.modDebug f).pins = n.pins := rfl
@[simp] theorem Node.modDebug_boot (f : DebugSt → DebugSt) : (n.modDebug f).boot = n.boot := rfl
@[simp] theorem Node.modDebug_regs (f : DebugSt → DebugSt) : (n.modDebug f).regs = n.regs := rfl
@[simp] theorem Node.modDebug_mram (f : DebugSt → DebugSt) : (n.modDebug f).mram = n.mram := rfl
@[simp] theorem Node.modDebug_hbm (f : DebugSt → DebugSt) : (n.modDebug f).hbm = n.hbm := rfl
@[simp] theorem Node.modDebug_poison (f : DebugSt → DebugSt) : (n.modDebug f).poison = n.poison := rfl
@[simp] theorem Node.modDebug_time (f : DebugSt → DebugSt) : (n.modDebug f).time = n.time := rfl
@[simp] theorem Node.modDebug_chart (f : DebugSt → DebugSt) : (n.modDebug f).chart = n.chart := rfl
@[simp] theorem Node.modDebug_parts (f : DebugSt → DebugSt) : (n.modDebug f).parts = n.parts := rfl
@[simp] theorem Node.modDebug_quads (f : DebugSt → DebugSt) : (n.modDebug f).quads = n.quads := rfl
@[simp] theorem Node.modDebug_granules (f : DebugSt → DebugSt) : (n.modDebug f).granules = n.granules := rfl
@[simp] theorem Node.modDebug_seqs (f : DebugSt → DebugSt) : (n.modDebug f).seqs = n.seqs := rfl
@[simp] theorem Node.modDebug_leaves (f : DebugSt → DebugSt) : (n.modDebug f).leaves = n.leaves := rfl
@[simp] theorem Node.modDebug_rowsNow (f : DebugSt → DebugSt) : (n.modDebug f).rowsNow = n.rowsNow := rfl
@[simp] theorem Node.modDebug_rowsPrev (f : DebugSt → DebugSt) : (n.modDebug f).rowsPrev = n.rowsPrev := rfl
@[simp] theorem Node.modDebug_office (f : DebugSt → DebugSt) : (n.modDebug f).office = n.office := rfl
@[simp] theorem Node.modDebug_cores (f : DebugSt → DebugSt) : (n.modDebug f).cores = n.cores := rfl
@[simp] theorem Node.modDebug_ports (f : DebugSt → DebugSt) : (n.modDebug f).ports = n.ports := rfl
@[simp] theorem Node.modDebug_locks (f : DebugSt → DebugSt) : (n.modDebug f).locks = n.locks := rfl
@[simp] theorem Node.modDebug_courier (f : DebugSt → DebugSt) : (n.modDebug f).courier = n.courier := rfl
@[simp] theorem Node.modDebug_mig (f : DebugSt → DebugSt) : (n.modDebug f).mig = n.mig := rfl
@[simp] theorem Node.modDebug_nme (f : DebugSt → DebugSt) : (n.modDebug f).nme = n.nme := rfl
@[simp] theorem Node.modDebug_gz (f : DebugSt → DebugSt) : (n.modDebug f).gz = n.gz := rfl
@[simp] theorem Node.modDebug_host (f : DebugSt → DebugSt) : (n.modDebug f).host = n.host := rfl
@[simp] theorem Node.modDebug_pool (f : DebugSt → DebugSt) : (n.modDebug f).pool = n.pool := rfl
@[simp] theorem Node.modDebug_sec (f : DebugSt → DebugSt) : (n.modDebug f).sec = n.sec := rfl
@[simp] theorem Node.modDebug_spdm (f : DebugSt → DebugSt) : (n.modDebug f).spdm = n.spdm := rfl
@[simp] theorem Node.modDebug_power (f : DebugSt → DebugSt) : (n.modDebug f).power = n.power := rfl
@[simp] theorem Node.modDebug_dbg (f : DebugSt → DebugSt) : (n.modDebug f).dbg = f n.dbg := rfl
@[simp] theorem Node.modDebug_err (f : DebugSt → DebugSt) : (n.modDebug f).err = n.err := rfl
@[simp] theorem Node.modDebug_survey (f : DebugSt → DebugSt) : (n.modDebug f).survey = n.survey := rfl
@[simp] theorem Node.modDebug_pldm (f : DebugSt → DebugSt) : (n.modDebug f).pldm = n.pldm := rfl
@[simp] theorem Node.modDebug_portMode (f : DebugSt → DebugSt) : (n.modDebug f).portMode = n.portMode := rfl
@[simp] theorem Node.modDebug_waits (f : DebugSt → DebugSt) : (n.modDebug f).waits = n.waits := rfl
@[simp] theorem Node.modDebug_loop (f : DebugSt → DebugSt) : (n.modDebug f).loop = n.loop := rfl
@[simp] theorem Node.modDebug_freeCtr (f : DebugSt → DebugSt) : (n.modDebug f).freeCtr = n.freeCtr := rfl

@[simp] theorem Node.modErr_ident (f : ErrSt → ErrSt) : (n.modErr f).ident = n.ident := rfl
@[simp] theorem Node.modErr_pins (f : ErrSt → ErrSt) : (n.modErr f).pins = n.pins := rfl
@[simp] theorem Node.modErr_boot (f : ErrSt → ErrSt) : (n.modErr f).boot = n.boot := rfl
@[simp] theorem Node.modErr_regs (f : ErrSt → ErrSt) : (n.modErr f).regs = n.regs := rfl
@[simp] theorem Node.modErr_mram (f : ErrSt → ErrSt) : (n.modErr f).mram = n.mram := rfl
@[simp] theorem Node.modErr_hbm (f : ErrSt → ErrSt) : (n.modErr f).hbm = n.hbm := rfl
@[simp] theorem Node.modErr_poison (f : ErrSt → ErrSt) : (n.modErr f).poison = n.poison := rfl
@[simp] theorem Node.modErr_time (f : ErrSt → ErrSt) : (n.modErr f).time = n.time := rfl
@[simp] theorem Node.modErr_chart (f : ErrSt → ErrSt) : (n.modErr f).chart = n.chart := rfl
@[simp] theorem Node.modErr_parts (f : ErrSt → ErrSt) : (n.modErr f).parts = n.parts := rfl
@[simp] theorem Node.modErr_quads (f : ErrSt → ErrSt) : (n.modErr f).quads = n.quads := rfl
@[simp] theorem Node.modErr_granules (f : ErrSt → ErrSt) : (n.modErr f).granules = n.granules := rfl
@[simp] theorem Node.modErr_seqs (f : ErrSt → ErrSt) : (n.modErr f).seqs = n.seqs := rfl
@[simp] theorem Node.modErr_leaves (f : ErrSt → ErrSt) : (n.modErr f).leaves = n.leaves := rfl
@[simp] theorem Node.modErr_rowsNow (f : ErrSt → ErrSt) : (n.modErr f).rowsNow = n.rowsNow := rfl
@[simp] theorem Node.modErr_rowsPrev (f : ErrSt → ErrSt) : (n.modErr f).rowsPrev = n.rowsPrev := rfl
@[simp] theorem Node.modErr_office (f : ErrSt → ErrSt) : (n.modErr f).office = n.office := rfl
@[simp] theorem Node.modErr_cores (f : ErrSt → ErrSt) : (n.modErr f).cores = n.cores := rfl
@[simp] theorem Node.modErr_ports (f : ErrSt → ErrSt) : (n.modErr f).ports = n.ports := rfl
@[simp] theorem Node.modErr_locks (f : ErrSt → ErrSt) : (n.modErr f).locks = n.locks := rfl
@[simp] theorem Node.modErr_courier (f : ErrSt → ErrSt) : (n.modErr f).courier = n.courier := rfl
@[simp] theorem Node.modErr_mig (f : ErrSt → ErrSt) : (n.modErr f).mig = n.mig := rfl
@[simp] theorem Node.modErr_nme (f : ErrSt → ErrSt) : (n.modErr f).nme = n.nme := rfl
@[simp] theorem Node.modErr_gz (f : ErrSt → ErrSt) : (n.modErr f).gz = n.gz := rfl
@[simp] theorem Node.modErr_host (f : ErrSt → ErrSt) : (n.modErr f).host = n.host := rfl
@[simp] theorem Node.modErr_pool (f : ErrSt → ErrSt) : (n.modErr f).pool = n.pool := rfl
@[simp] theorem Node.modErr_sec (f : ErrSt → ErrSt) : (n.modErr f).sec = n.sec := rfl
@[simp] theorem Node.modErr_spdm (f : ErrSt → ErrSt) : (n.modErr f).spdm = n.spdm := rfl
@[simp] theorem Node.modErr_power (f : ErrSt → ErrSt) : (n.modErr f).power = n.power := rfl
@[simp] theorem Node.modErr_dbg (f : ErrSt → ErrSt) : (n.modErr f).dbg = n.dbg := rfl
@[simp] theorem Node.modErr_err (f : ErrSt → ErrSt) : (n.modErr f).err = f n.err := rfl
@[simp] theorem Node.modErr_survey (f : ErrSt → ErrSt) : (n.modErr f).survey = n.survey := rfl
@[simp] theorem Node.modErr_pldm (f : ErrSt → ErrSt) : (n.modErr f).pldm = n.pldm := rfl
@[simp] theorem Node.modErr_portMode (f : ErrSt → ErrSt) : (n.modErr f).portMode = n.portMode := rfl
@[simp] theorem Node.modErr_waits (f : ErrSt → ErrSt) : (n.modErr f).waits = n.waits := rfl
@[simp] theorem Node.modErr_loop (f : ErrSt → ErrSt) : (n.modErr f).loop = n.loop := rfl
@[simp] theorem Node.modErr_freeCtr (f : ErrSt → ErrSt) : (n.modErr f).freeCtr = n.freeCtr := rfl

@[simp] theorem Node.modSurvey_ident (f : SurveySt → SurveySt) : (n.modSurvey f).ident = n.ident := rfl
@[simp] theorem Node.modSurvey_pins (f : SurveySt → SurveySt) : (n.modSurvey f).pins = n.pins := rfl
@[simp] theorem Node.modSurvey_boot (f : SurveySt → SurveySt) : (n.modSurvey f).boot = n.boot := rfl
@[simp] theorem Node.modSurvey_regs (f : SurveySt → SurveySt) : (n.modSurvey f).regs = n.regs := rfl
@[simp] theorem Node.modSurvey_mram (f : SurveySt → SurveySt) : (n.modSurvey f).mram = n.mram := rfl
@[simp] theorem Node.modSurvey_hbm (f : SurveySt → SurveySt) : (n.modSurvey f).hbm = n.hbm := rfl
@[simp] theorem Node.modSurvey_poison (f : SurveySt → SurveySt) : (n.modSurvey f).poison = n.poison := rfl
@[simp] theorem Node.modSurvey_time (f : SurveySt → SurveySt) : (n.modSurvey f).time = n.time := rfl
@[simp] theorem Node.modSurvey_chart (f : SurveySt → SurveySt) : (n.modSurvey f).chart = n.chart := rfl
@[simp] theorem Node.modSurvey_parts (f : SurveySt → SurveySt) : (n.modSurvey f).parts = n.parts := rfl
@[simp] theorem Node.modSurvey_quads (f : SurveySt → SurveySt) : (n.modSurvey f).quads = n.quads := rfl
@[simp] theorem Node.modSurvey_granules (f : SurveySt → SurveySt) : (n.modSurvey f).granules = n.granules := rfl
@[simp] theorem Node.modSurvey_seqs (f : SurveySt → SurveySt) : (n.modSurvey f).seqs = n.seqs := rfl
@[simp] theorem Node.modSurvey_leaves (f : SurveySt → SurveySt) : (n.modSurvey f).leaves = n.leaves := rfl
@[simp] theorem Node.modSurvey_rowsNow (f : SurveySt → SurveySt) : (n.modSurvey f).rowsNow = n.rowsNow := rfl
@[simp] theorem Node.modSurvey_rowsPrev (f : SurveySt → SurveySt) : (n.modSurvey f).rowsPrev = n.rowsPrev := rfl
@[simp] theorem Node.modSurvey_office (f : SurveySt → SurveySt) : (n.modSurvey f).office = n.office := rfl
@[simp] theorem Node.modSurvey_cores (f : SurveySt → SurveySt) : (n.modSurvey f).cores = n.cores := rfl
@[simp] theorem Node.modSurvey_ports (f : SurveySt → SurveySt) : (n.modSurvey f).ports = n.ports := rfl
@[simp] theorem Node.modSurvey_locks (f : SurveySt → SurveySt) : (n.modSurvey f).locks = n.locks := rfl
@[simp] theorem Node.modSurvey_courier (f : SurveySt → SurveySt) : (n.modSurvey f).courier = n.courier := rfl
@[simp] theorem Node.modSurvey_mig (f : SurveySt → SurveySt) : (n.modSurvey f).mig = n.mig := rfl
@[simp] theorem Node.modSurvey_nme (f : SurveySt → SurveySt) : (n.modSurvey f).nme = n.nme := rfl
@[simp] theorem Node.modSurvey_gz (f : SurveySt → SurveySt) : (n.modSurvey f).gz = n.gz := rfl
@[simp] theorem Node.modSurvey_host (f : SurveySt → SurveySt) : (n.modSurvey f).host = n.host := rfl
@[simp] theorem Node.modSurvey_pool (f : SurveySt → SurveySt) : (n.modSurvey f).pool = n.pool := rfl
@[simp] theorem Node.modSurvey_sec (f : SurveySt → SurveySt) : (n.modSurvey f).sec = n.sec := rfl
@[simp] theorem Node.modSurvey_spdm (f : SurveySt → SurveySt) : (n.modSurvey f).spdm = n.spdm := rfl
@[simp] theorem Node.modSurvey_power (f : SurveySt → SurveySt) : (n.modSurvey f).power = n.power := rfl
@[simp] theorem Node.modSurvey_dbg (f : SurveySt → SurveySt) : (n.modSurvey f).dbg = n.dbg := rfl
@[simp] theorem Node.modSurvey_err (f : SurveySt → SurveySt) : (n.modSurvey f).err = n.err := rfl
@[simp] theorem Node.modSurvey_survey (f : SurveySt → SurveySt) : (n.modSurvey f).survey = f n.survey := rfl
@[simp] theorem Node.modSurvey_pldm (f : SurveySt → SurveySt) : (n.modSurvey f).pldm = n.pldm := rfl
@[simp] theorem Node.modSurvey_portMode (f : SurveySt → SurveySt) : (n.modSurvey f).portMode = n.portMode := rfl
@[simp] theorem Node.modSurvey_waits (f : SurveySt → SurveySt) : (n.modSurvey f).waits = n.waits := rfl
@[simp] theorem Node.modSurvey_loop (f : SurveySt → SurveySt) : (n.modSurvey f).loop = n.loop := rfl
@[simp] theorem Node.modSurvey_freeCtr (f : SurveySt → SurveySt) : (n.modSurvey f).freeCtr = n.freeCtr := rfl

@[simp] theorem Node.modBoot_ident (f : BootSt → BootSt) : (n.modBoot f).ident = n.ident := rfl
@[simp] theorem Node.modBoot_pins (f : BootSt → BootSt) : (n.modBoot f).pins = n.pins := rfl
@[simp] theorem Node.modBoot_boot (f : BootSt → BootSt) : (n.modBoot f).boot = f n.boot := rfl
@[simp] theorem Node.modBoot_regs (f : BootSt → BootSt) : (n.modBoot f).regs = n.regs := rfl
@[simp] theorem Node.modBoot_mram (f : BootSt → BootSt) : (n.modBoot f).mram = n.mram := rfl
@[simp] theorem Node.modBoot_hbm (f : BootSt → BootSt) : (n.modBoot f).hbm = n.hbm := rfl
@[simp] theorem Node.modBoot_poison (f : BootSt → BootSt) : (n.modBoot f).poison = n.poison := rfl
@[simp] theorem Node.modBoot_time (f : BootSt → BootSt) : (n.modBoot f).time = n.time := rfl
@[simp] theorem Node.modBoot_chart (f : BootSt → BootSt) : (n.modBoot f).chart = n.chart := rfl
@[simp] theorem Node.modBoot_parts (f : BootSt → BootSt) : (n.modBoot f).parts = n.parts := rfl
@[simp] theorem Node.modBoot_quads (f : BootSt → BootSt) : (n.modBoot f).quads = n.quads := rfl
@[simp] theorem Node.modBoot_granules (f : BootSt → BootSt) : (n.modBoot f).granules = n.granules := rfl
@[simp] theorem Node.modBoot_seqs (f : BootSt → BootSt) : (n.modBoot f).seqs = n.seqs := rfl
@[simp] theorem Node.modBoot_leaves (f : BootSt → BootSt) : (n.modBoot f).leaves = n.leaves := rfl
@[simp] theorem Node.modBoot_rowsNow (f : BootSt → BootSt) : (n.modBoot f).rowsNow = n.rowsNow := rfl
@[simp] theorem Node.modBoot_rowsPrev (f : BootSt → BootSt) : (n.modBoot f).rowsPrev = n.rowsPrev := rfl
@[simp] theorem Node.modBoot_office (f : BootSt → BootSt) : (n.modBoot f).office = n.office := rfl
@[simp] theorem Node.modBoot_cores (f : BootSt → BootSt) : (n.modBoot f).cores = n.cores := rfl
@[simp] theorem Node.modBoot_ports (f : BootSt → BootSt) : (n.modBoot f).ports = n.ports := rfl
@[simp] theorem Node.modBoot_locks (f : BootSt → BootSt) : (n.modBoot f).locks = n.locks := rfl
@[simp] theorem Node.modBoot_courier (f : BootSt → BootSt) : (n.modBoot f).courier = n.courier := rfl
@[simp] theorem Node.modBoot_mig (f : BootSt → BootSt) : (n.modBoot f).mig = n.mig := rfl
@[simp] theorem Node.modBoot_nme (f : BootSt → BootSt) : (n.modBoot f).nme = n.nme := rfl
@[simp] theorem Node.modBoot_gz (f : BootSt → BootSt) : (n.modBoot f).gz = n.gz := rfl
@[simp] theorem Node.modBoot_host (f : BootSt → BootSt) : (n.modBoot f).host = n.host := rfl
@[simp] theorem Node.modBoot_pool (f : BootSt → BootSt) : (n.modBoot f).pool = n.pool := rfl
@[simp] theorem Node.modBoot_sec (f : BootSt → BootSt) : (n.modBoot f).sec = n.sec := rfl
@[simp] theorem Node.modBoot_spdm (f : BootSt → BootSt) : (n.modBoot f).spdm = n.spdm := rfl
@[simp] theorem Node.modBoot_power (f : BootSt → BootSt) : (n.modBoot f).power = n.power := rfl
@[simp] theorem Node.modBoot_dbg (f : BootSt → BootSt) : (n.modBoot f).dbg = n.dbg := rfl
@[simp] theorem Node.modBoot_err (f : BootSt → BootSt) : (n.modBoot f).err = n.err := rfl
@[simp] theorem Node.modBoot_survey (f : BootSt → BootSt) : (n.modBoot f).survey = n.survey := rfl
@[simp] theorem Node.modBoot_pldm (f : BootSt → BootSt) : (n.modBoot f).pldm = n.pldm := rfl
@[simp] theorem Node.modBoot_portMode (f : BootSt → BootSt) : (n.modBoot f).portMode = n.portMode := rfl
@[simp] theorem Node.modBoot_waits (f : BootSt → BootSt) : (n.modBoot f).waits = n.waits := rfl
@[simp] theorem Node.modBoot_loop (f : BootSt → BootSt) : (n.modBoot f).loop = n.loop := rfl
@[simp] theorem Node.modBoot_freeCtr (f : BootSt → BootSt) : (n.modBoot f).freeCtr = n.freeCtr := rfl

@[simp] theorem Node.modChart_ident (f : ChartSt → ChartSt) : (n.modChart f).ident = n.ident := rfl
@[simp] theorem Node.modChart_pins (f : ChartSt → ChartSt) : (n.modChart f).pins = n.pins := rfl
@[simp] theorem Node.modChart_boot (f : ChartSt → ChartSt) : (n.modChart f).boot = n.boot := rfl
@[simp] theorem Node.modChart_regs (f : ChartSt → ChartSt) : (n.modChart f).regs = n.regs := rfl
@[simp] theorem Node.modChart_mram (f : ChartSt → ChartSt) : (n.modChart f).mram = n.mram := rfl
@[simp] theorem Node.modChart_hbm (f : ChartSt → ChartSt) : (n.modChart f).hbm = n.hbm := rfl
@[simp] theorem Node.modChart_poison (f : ChartSt → ChartSt) : (n.modChart f).poison = n.poison := rfl
@[simp] theorem Node.modChart_time (f : ChartSt → ChartSt) : (n.modChart f).time = n.time := rfl
@[simp] theorem Node.modChart_chart (f : ChartSt → ChartSt) : (n.modChart f).chart = f n.chart := rfl
@[simp] theorem Node.modChart_parts (f : ChartSt → ChartSt) : (n.modChart f).parts = n.parts := rfl
@[simp] theorem Node.modChart_quads (f : ChartSt → ChartSt) : (n.modChart f).quads = n.quads := rfl
@[simp] theorem Node.modChart_granules (f : ChartSt → ChartSt) : (n.modChart f).granules = n.granules := rfl
@[simp] theorem Node.modChart_seqs (f : ChartSt → ChartSt) : (n.modChart f).seqs = n.seqs := rfl
@[simp] theorem Node.modChart_leaves (f : ChartSt → ChartSt) : (n.modChart f).leaves = n.leaves := rfl
@[simp] theorem Node.modChart_rowsNow (f : ChartSt → ChartSt) : (n.modChart f).rowsNow = n.rowsNow := rfl
@[simp] theorem Node.modChart_rowsPrev (f : ChartSt → ChartSt) : (n.modChart f).rowsPrev = n.rowsPrev := rfl
@[simp] theorem Node.modChart_office (f : ChartSt → ChartSt) : (n.modChart f).office = n.office := rfl
@[simp] theorem Node.modChart_cores (f : ChartSt → ChartSt) : (n.modChart f).cores = n.cores := rfl
@[simp] theorem Node.modChart_ports (f : ChartSt → ChartSt) : (n.modChart f).ports = n.ports := rfl
@[simp] theorem Node.modChart_locks (f : ChartSt → ChartSt) : (n.modChart f).locks = n.locks := rfl
@[simp] theorem Node.modChart_courier (f : ChartSt → ChartSt) : (n.modChart f).courier = n.courier := rfl
@[simp] theorem Node.modChart_mig (f : ChartSt → ChartSt) : (n.modChart f).mig = n.mig := rfl
@[simp] theorem Node.modChart_nme (f : ChartSt → ChartSt) : (n.modChart f).nme = n.nme := rfl
@[simp] theorem Node.modChart_gz (f : ChartSt → ChartSt) : (n.modChart f).gz = n.gz := rfl
@[simp] theorem Node.modChart_host (f : ChartSt → ChartSt) : (n.modChart f).host = n.host := rfl
@[simp] theorem Node.modChart_pool (f : ChartSt → ChartSt) : (n.modChart f).pool = n.pool := rfl
@[simp] theorem Node.modChart_sec (f : ChartSt → ChartSt) : (n.modChart f).sec = n.sec := rfl
@[simp] theorem Node.modChart_spdm (f : ChartSt → ChartSt) : (n.modChart f).spdm = n.spdm := rfl
@[simp] theorem Node.modChart_power (f : ChartSt → ChartSt) : (n.modChart f).power = n.power := rfl
@[simp] theorem Node.modChart_dbg (f : ChartSt → ChartSt) : (n.modChart f).dbg = n.dbg := rfl
@[simp] theorem Node.modChart_err (f : ChartSt → ChartSt) : (n.modChart f).err = n.err := rfl
@[simp] theorem Node.modChart_survey (f : ChartSt → ChartSt) : (n.modChart f).survey = n.survey := rfl
@[simp] theorem Node.modChart_pldm (f : ChartSt → ChartSt) : (n.modChart f).pldm = n.pldm := rfl
@[simp] theorem Node.modChart_portMode (f : ChartSt → ChartSt) : (n.modChart f).portMode = n.portMode := rfl
@[simp] theorem Node.modChart_waits (f : ChartSt → ChartSt) : (n.modChart f).waits = n.waits := rfl
@[simp] theorem Node.modChart_loop (f : ChartSt → ChartSt) : (n.modChart f).loop = n.loop := rfl
@[simp] theorem Node.modChart_freeCtr (f : ChartSt → ChartSt) : (n.modChart f).freeCtr = n.freeCtr := rfl

@[simp] theorem Node.modMram_ident (f : MramSt → MramSt) : (n.modMram f).ident = n.ident := rfl
@[simp] theorem Node.modMram_pins (f : MramSt → MramSt) : (n.modMram f).pins = n.pins := rfl
@[simp] theorem Node.modMram_boot (f : MramSt → MramSt) : (n.modMram f).boot = n.boot := rfl
@[simp] theorem Node.modMram_regs (f : MramSt → MramSt) : (n.modMram f).regs = n.regs := rfl
@[simp] theorem Node.modMram_mram (f : MramSt → MramSt) : (n.modMram f).mram = f n.mram := rfl
@[simp] theorem Node.modMram_hbm (f : MramSt → MramSt) : (n.modMram f).hbm = n.hbm := rfl
@[simp] theorem Node.modMram_poison (f : MramSt → MramSt) : (n.modMram f).poison = n.poison := rfl
@[simp] theorem Node.modMram_time (f : MramSt → MramSt) : (n.modMram f).time = n.time := rfl
@[simp] theorem Node.modMram_chart (f : MramSt → MramSt) : (n.modMram f).chart = n.chart := rfl
@[simp] theorem Node.modMram_parts (f : MramSt → MramSt) : (n.modMram f).parts = n.parts := rfl
@[simp] theorem Node.modMram_quads (f : MramSt → MramSt) : (n.modMram f).quads = n.quads := rfl
@[simp] theorem Node.modMram_granules (f : MramSt → MramSt) : (n.modMram f).granules = n.granules := rfl
@[simp] theorem Node.modMram_seqs (f : MramSt → MramSt) : (n.modMram f).seqs = n.seqs := rfl
@[simp] theorem Node.modMram_leaves (f : MramSt → MramSt) : (n.modMram f).leaves = n.leaves := rfl
@[simp] theorem Node.modMram_rowsNow (f : MramSt → MramSt) : (n.modMram f).rowsNow = n.rowsNow := rfl
@[simp] theorem Node.modMram_rowsPrev (f : MramSt → MramSt) : (n.modMram f).rowsPrev = n.rowsPrev := rfl
@[simp] theorem Node.modMram_office (f : MramSt → MramSt) : (n.modMram f).office = n.office := rfl
@[simp] theorem Node.modMram_cores (f : MramSt → MramSt) : (n.modMram f).cores = n.cores := rfl
@[simp] theorem Node.modMram_ports (f : MramSt → MramSt) : (n.modMram f).ports = n.ports := rfl
@[simp] theorem Node.modMram_locks (f : MramSt → MramSt) : (n.modMram f).locks = n.locks := rfl
@[simp] theorem Node.modMram_courier (f : MramSt → MramSt) : (n.modMram f).courier = n.courier := rfl
@[simp] theorem Node.modMram_mig (f : MramSt → MramSt) : (n.modMram f).mig = n.mig := rfl
@[simp] theorem Node.modMram_nme (f : MramSt → MramSt) : (n.modMram f).nme = n.nme := rfl
@[simp] theorem Node.modMram_gz (f : MramSt → MramSt) : (n.modMram f).gz = n.gz := rfl
@[simp] theorem Node.modMram_host (f : MramSt → MramSt) : (n.modMram f).host = n.host := rfl
@[simp] theorem Node.modMram_pool (f : MramSt → MramSt) : (n.modMram f).pool = n.pool := rfl
@[simp] theorem Node.modMram_sec (f : MramSt → MramSt) : (n.modMram f).sec = n.sec := rfl
@[simp] theorem Node.modMram_spdm (f : MramSt → MramSt) : (n.modMram f).spdm = n.spdm := rfl
@[simp] theorem Node.modMram_power (f : MramSt → MramSt) : (n.modMram f).power = n.power := rfl
@[simp] theorem Node.modMram_dbg (f : MramSt → MramSt) : (n.modMram f).dbg = n.dbg := rfl
@[simp] theorem Node.modMram_err (f : MramSt → MramSt) : (n.modMram f).err = n.err := rfl
@[simp] theorem Node.modMram_survey (f : MramSt → MramSt) : (n.modMram f).survey = n.survey := rfl
@[simp] theorem Node.modMram_pldm (f : MramSt → MramSt) : (n.modMram f).pldm = n.pldm := rfl
@[simp] theorem Node.modMram_portMode (f : MramSt → MramSt) : (n.modMram f).portMode = n.portMode := rfl
@[simp] theorem Node.modMram_waits (f : MramSt → MramSt) : (n.modMram f).waits = n.waits := rfl
@[simp] theorem Node.modMram_loop (f : MramSt → MramSt) : (n.modMram f).loop = n.loop := rfl
@[simp] theorem Node.modMram_freeCtr (f : MramSt → MramSt) : (n.modMram f).freeCtr = n.freeCtr := rfl

@[simp] theorem Node.modPins_ident (f : PinSt → PinSt) : (n.modPins f).ident = n.ident := rfl
@[simp] theorem Node.modPins_pins (f : PinSt → PinSt) : (n.modPins f).pins = f n.pins := rfl
@[simp] theorem Node.modPins_boot (f : PinSt → PinSt) : (n.modPins f).boot = n.boot := rfl
@[simp] theorem Node.modPins_regs (f : PinSt → PinSt) : (n.modPins f).regs = n.regs := rfl
@[simp] theorem Node.modPins_mram (f : PinSt → PinSt) : (n.modPins f).mram = n.mram := rfl
@[simp] theorem Node.modPins_hbm (f : PinSt → PinSt) : (n.modPins f).hbm = n.hbm := rfl
@[simp] theorem Node.modPins_poison (f : PinSt → PinSt) : (n.modPins f).poison = n.poison := rfl
@[simp] theorem Node.modPins_time (f : PinSt → PinSt) : (n.modPins f).time = n.time := rfl
@[simp] theorem Node.modPins_chart (f : PinSt → PinSt) : (n.modPins f).chart = n.chart := rfl
@[simp] theorem Node.modPins_parts (f : PinSt → PinSt) : (n.modPins f).parts = n.parts := rfl
@[simp] theorem Node.modPins_quads (f : PinSt → PinSt) : (n.modPins f).quads = n.quads := rfl
@[simp] theorem Node.modPins_granules (f : PinSt → PinSt) : (n.modPins f).granules = n.granules := rfl
@[simp] theorem Node.modPins_seqs (f : PinSt → PinSt) : (n.modPins f).seqs = n.seqs := rfl
@[simp] theorem Node.modPins_leaves (f : PinSt → PinSt) : (n.modPins f).leaves = n.leaves := rfl
@[simp] theorem Node.modPins_rowsNow (f : PinSt → PinSt) : (n.modPins f).rowsNow = n.rowsNow := rfl
@[simp] theorem Node.modPins_rowsPrev (f : PinSt → PinSt) : (n.modPins f).rowsPrev = n.rowsPrev := rfl
@[simp] theorem Node.modPins_office (f : PinSt → PinSt) : (n.modPins f).office = n.office := rfl
@[simp] theorem Node.modPins_cores (f : PinSt → PinSt) : (n.modPins f).cores = n.cores := rfl
@[simp] theorem Node.modPins_ports (f : PinSt → PinSt) : (n.modPins f).ports = n.ports := rfl
@[simp] theorem Node.modPins_locks (f : PinSt → PinSt) : (n.modPins f).locks = n.locks := rfl
@[simp] theorem Node.modPins_courier (f : PinSt → PinSt) : (n.modPins f).courier = n.courier := rfl
@[simp] theorem Node.modPins_mig (f : PinSt → PinSt) : (n.modPins f).mig = n.mig := rfl
@[simp] theorem Node.modPins_nme (f : PinSt → PinSt) : (n.modPins f).nme = n.nme := rfl
@[simp] theorem Node.modPins_gz (f : PinSt → PinSt) : (n.modPins f).gz = n.gz := rfl
@[simp] theorem Node.modPins_host (f : PinSt → PinSt) : (n.modPins f).host = n.host := rfl
@[simp] theorem Node.modPins_pool (f : PinSt → PinSt) : (n.modPins f).pool = n.pool := rfl
@[simp] theorem Node.modPins_sec (f : PinSt → PinSt) : (n.modPins f).sec = n.sec := rfl
@[simp] theorem Node.modPins_spdm (f : PinSt → PinSt) : (n.modPins f).spdm = n.spdm := rfl
@[simp] theorem Node.modPins_power (f : PinSt → PinSt) : (n.modPins f).power = n.power := rfl
@[simp] theorem Node.modPins_dbg (f : PinSt → PinSt) : (n.modPins f).dbg = n.dbg := rfl
@[simp] theorem Node.modPins_err (f : PinSt → PinSt) : (n.modPins f).err = n.err := rfl
@[simp] theorem Node.modPins_survey (f : PinSt → PinSt) : (n.modPins f).survey = n.survey := rfl
@[simp] theorem Node.modPins_pldm (f : PinSt → PinSt) : (n.modPins f).pldm = n.pldm := rfl
@[simp] theorem Node.modPins_portMode (f : PinSt → PinSt) : (n.modPins f).portMode = n.portMode := rfl
@[simp] theorem Node.modPins_waits (f : PinSt → PinSt) : (n.modPins f).waits = n.waits := rfl
@[simp] theorem Node.modPins_loop (f : PinSt → PinSt) : (n.modPins f).loop = n.loop := rfl
@[simp] theorem Node.modPins_freeCtr (f : PinSt → PinSt) : (n.modPins f).freeCtr = n.freeCtr := rfl

@[simp] theorem Node.wr_ident (x : Fld) (b v : Nat) : (n.wr x b v).ident = n.ident := rfl
@[simp] theorem Node.wr_pins (x : Fld) (b v : Nat) : (n.wr x b v).pins = n.pins := rfl
@[simp] theorem Node.wr_boot (x : Fld) (b v : Nat) : (n.wr x b v).boot = n.boot := rfl
@[simp] theorem Node.wr_regs (x : Fld) (b v : Nat) : (n.wr x b v).regs = mapSetD x.reset n.regs (x.key b) (v % 2 ^ x.width) := rfl
@[simp] theorem Node.wr_mram (x : Fld) (b v : Nat) : (n.wr x b v).mram = n.mram := rfl
@[simp] theorem Node.wr_hbm (x : Fld) (b v : Nat) : (n.wr x b v).hbm = n.hbm := rfl
@[simp] theorem Node.wr_poison (x : Fld) (b v : Nat) : (n.wr x b v).poison = n.poison := rfl
@[simp] theorem Node.wr_time (x : Fld) (b v : Nat) : (n.wr x b v).time = n.time := rfl
@[simp] theorem Node.wr_chart (x : Fld) (b v : Nat) : (n.wr x b v).chart = n.chart := rfl
@[simp] theorem Node.wr_parts (x : Fld) (b v : Nat) : (n.wr x b v).parts = n.parts := rfl
@[simp] theorem Node.wr_quads (x : Fld) (b v : Nat) : (n.wr x b v).quads = n.quads := rfl
@[simp] theorem Node.wr_granules (x : Fld) (b v : Nat) : (n.wr x b v).granules = n.granules := rfl
@[simp] theorem Node.wr_seqs (x : Fld) (b v : Nat) : (n.wr x b v).seqs = n.seqs := rfl
@[simp] theorem Node.wr_leaves (x : Fld) (b v : Nat) : (n.wr x b v).leaves = n.leaves := rfl
@[simp] theorem Node.wr_rowsNow (x : Fld) (b v : Nat) : (n.wr x b v).rowsNow = n.rowsNow := rfl
@[simp] theorem Node.wr_rowsPrev (x : Fld) (b v : Nat) : (n.wr x b v).rowsPrev = n.rowsPrev := rfl
@[simp] theorem Node.wr_office (x : Fld) (b v : Nat) : (n.wr x b v).office = n.office := rfl
@[simp] theorem Node.wr_cores (x : Fld) (b v : Nat) : (n.wr x b v).cores = n.cores := rfl
@[simp] theorem Node.wr_ports (x : Fld) (b v : Nat) : (n.wr x b v).ports = n.ports := rfl
@[simp] theorem Node.wr_locks (x : Fld) (b v : Nat) : (n.wr x b v).locks = n.locks := rfl
@[simp] theorem Node.wr_courier (x : Fld) (b v : Nat) : (n.wr x b v).courier = n.courier := rfl
@[simp] theorem Node.wr_mig (x : Fld) (b v : Nat) : (n.wr x b v).mig = n.mig := rfl
@[simp] theorem Node.wr_nme (x : Fld) (b v : Nat) : (n.wr x b v).nme = n.nme := rfl
@[simp] theorem Node.wr_gz (x : Fld) (b v : Nat) : (n.wr x b v).gz = n.gz := rfl
@[simp] theorem Node.wr_host (x : Fld) (b v : Nat) : (n.wr x b v).host = n.host := rfl
@[simp] theorem Node.wr_pool (x : Fld) (b v : Nat) : (n.wr x b v).pool = n.pool := rfl
@[simp] theorem Node.wr_sec (x : Fld) (b v : Nat) : (n.wr x b v).sec = n.sec := rfl
@[simp] theorem Node.wr_spdm (x : Fld) (b v : Nat) : (n.wr x b v).spdm = n.spdm := rfl
@[simp] theorem Node.wr_power (x : Fld) (b v : Nat) : (n.wr x b v).power = n.power := rfl
@[simp] theorem Node.wr_dbg (x : Fld) (b v : Nat) : (n.wr x b v).dbg = n.dbg := rfl
@[simp] theorem Node.wr_err (x : Fld) (b v : Nat) : (n.wr x b v).err = n.err := rfl
@[simp] theorem Node.wr_survey (x : Fld) (b v : Nat) : (n.wr x b v).survey = n.survey := rfl
@[simp] theorem Node.wr_pldm (x : Fld) (b v : Nat) : (n.wr x b v).pldm = n.pldm := rfl
@[simp] theorem Node.wr_portMode (x : Fld) (b v : Nat) : (n.wr x b v).portMode = n.portMode := rfl
@[simp] theorem Node.wr_waits (x : Fld) (b v : Nat) : (n.wr x b v).waits = n.waits := rfl
@[simp] theorem Node.wr_loop (x : Fld) (b v : Nat) : (n.wr x b v).loop = n.loop := rfl
@[simp] theorem Node.wr_freeCtr (x : Fld) (b v : Nat) : (n.wr x b v).freeCtr = n.freeCtr := rfl

@[simp] theorem Node.inc_ident (x : Fld) (b k : Nat) : (n.inc x b k).ident = n.ident := rfl
@[simp] theorem Node.inc_pins (x : Fld) (b k : Nat) : (n.inc x b k).pins = n.pins := rfl
@[simp] theorem Node.inc_boot (x : Fld) (b k : Nat) : (n.inc x b k).boot = n.boot := rfl
@[simp] theorem Node.inc_regs (x : Fld) (b k : Nat) : (n.inc x b k).regs = mapSetD x.reset n.regs (x.key b) (min (n.rd x b + k) (2 ^ x.width - 1)) := rfl
@[simp] theorem Node.inc_mram (x : Fld) (b k : Nat) : (n.inc x b k).mram = n.mram := rfl
@[simp] theorem Node.inc_hbm (x : Fld) (b k : Nat) : (n.inc x b k).hbm = n.hbm := rfl
@[simp] theorem Node.inc_poison (x : Fld) (b k : Nat) : (n.inc x b k).poison = n.poison := rfl
@[simp] theorem Node.inc_time (x : Fld) (b k : Nat) : (n.inc x b k).time = n.time := rfl
@[simp] theorem Node.inc_chart (x : Fld) (b k : Nat) : (n.inc x b k).chart = n.chart := rfl
@[simp] theorem Node.inc_parts (x : Fld) (b k : Nat) : (n.inc x b k).parts = n.parts := rfl
@[simp] theorem Node.inc_quads (x : Fld) (b k : Nat) : (n.inc x b k).quads = n.quads := rfl
@[simp] theorem Node.inc_granules (x : Fld) (b k : Nat) : (n.inc x b k).granules = n.granules := rfl
@[simp] theorem Node.inc_seqs (x : Fld) (b k : Nat) : (n.inc x b k).seqs = n.seqs := rfl
@[simp] theorem Node.inc_leaves (x : Fld) (b k : Nat) : (n.inc x b k).leaves = n.leaves := rfl
@[simp] theorem Node.inc_rowsNow (x : Fld) (b k : Nat) : (n.inc x b k).rowsNow = n.rowsNow := rfl
@[simp] theorem Node.inc_rowsPrev (x : Fld) (b k : Nat) : (n.inc x b k).rowsPrev = n.rowsPrev := rfl
@[simp] theorem Node.inc_office (x : Fld) (b k : Nat) : (n.inc x b k).office = n.office := rfl
@[simp] theorem Node.inc_cores (x : Fld) (b k : Nat) : (n.inc x b k).cores = n.cores := rfl
@[simp] theorem Node.inc_ports (x : Fld) (b k : Nat) : (n.inc x b k).ports = n.ports := rfl
@[simp] theorem Node.inc_locks (x : Fld) (b k : Nat) : (n.inc x b k).locks = n.locks := rfl
@[simp] theorem Node.inc_courier (x : Fld) (b k : Nat) : (n.inc x b k).courier = n.courier := rfl
@[simp] theorem Node.inc_mig (x : Fld) (b k : Nat) : (n.inc x b k).mig = n.mig := rfl
@[simp] theorem Node.inc_nme (x : Fld) (b k : Nat) : (n.inc x b k).nme = n.nme := rfl
@[simp] theorem Node.inc_gz (x : Fld) (b k : Nat) : (n.inc x b k).gz = n.gz := rfl
@[simp] theorem Node.inc_host (x : Fld) (b k : Nat) : (n.inc x b k).host = n.host := rfl
@[simp] theorem Node.inc_pool (x : Fld) (b k : Nat) : (n.inc x b k).pool = n.pool := rfl
@[simp] theorem Node.inc_sec (x : Fld) (b k : Nat) : (n.inc x b k).sec = n.sec := rfl
@[simp] theorem Node.inc_spdm (x : Fld) (b k : Nat) : (n.inc x b k).spdm = n.spdm := rfl
@[simp] theorem Node.inc_power (x : Fld) (b k : Nat) : (n.inc x b k).power = n.power := rfl
@[simp] theorem Node.inc_dbg (x : Fld) (b k : Nat) : (n.inc x b k).dbg = n.dbg := rfl
@[simp] theorem Node.inc_err (x : Fld) (b k : Nat) : (n.inc x b k).err = n.err := rfl
@[simp] theorem Node.inc_survey (x : Fld) (b k : Nat) : (n.inc x b k).survey = n.survey := rfl
@[simp] theorem Node.inc_pldm (x : Fld) (b k : Nat) : (n.inc x b k).pldm = n.pldm := rfl
@[simp] theorem Node.inc_portMode (x : Fld) (b k : Nat) : (n.inc x b k).portMode = n.portMode := rfl
@[simp] theorem Node.inc_waits (x : Fld) (b k : Nat) : (n.inc x b k).waits = n.waits := rfl
@[simp] theorem Node.inc_loop (x : Fld) (b k : Nat) : (n.inc x b k).loop = n.loop := rfl
@[simp] theorem Node.inc_freeCtr (x : Fld) (b k : Nat) : (n.inc x b k).freeCtr = n.freeCtr := rfl

@[simp] theorem Node.hbmWrite_ident (a : Nat) (bs : Bytes) : (n.hbmWrite a bs).ident = n.ident := rfl
@[simp] theorem Node.hbmWrite_pins (a : Nat) (bs : Bytes) : (n.hbmWrite a bs).pins = n.pins := rfl
@[simp] theorem Node.hbmWrite_boot (a : Nat) (bs : Bytes) : (n.hbmWrite a bs).boot = n.boot := rfl
@[simp] theorem Node.hbmWrite_regs (a : Nat) (bs : Bytes) : (n.hbmWrite a bs).regs = n.regs := rfl
@[simp] theorem Node.hbmWrite_mram (a : Nat) (bs : Bytes) : (n.hbmWrite a bs).mram = n.mram := rfl
@[simp] theorem Node.hbmWrite_hbm (a : Nat) (bs : Bytes) : (n.hbmWrite a bs).hbm = hbmPut n.hbm a bs := rfl
@[simp] theorem Node.hbmWrite_poison (a : Nat) (bs : Bytes) : (n.hbmWrite a bs).poison = n.poison := rfl
@[simp] theorem Node.hbmWrite_time (a : Nat) (bs : Bytes) : (n.hbmWrite a bs).time = n.time := rfl
@[simp] theorem Node.hbmWrite_chart (a : Nat) (bs : Bytes) : (n.hbmWrite a bs).chart = n.chart := rfl
@[simp] theorem Node.hbmWrite_parts (a : Nat) (bs : Bytes) : (n.hbmWrite a bs).parts = n.parts := rfl
@[simp] theorem Node.hbmWrite_quads (a : Nat) (bs : Bytes) : (n.hbmWrite a bs).quads = n.quads := rfl
@[simp] theorem Node.hbmWrite_granules (a : Nat) (bs : Bytes) : (n.hbmWrite a bs).granules = n.granules := rfl
@[simp] theorem Node.hbmWrite_seqs (a : Nat) (bs : Bytes) : (n.hbmWrite a bs).seqs = n.seqs := rfl
@[simp] theorem Node.hbmWrite_leaves (a : Nat) (bs : Bytes) : (n.hbmWrite a bs).leaves = n.leaves := rfl
@[simp] theorem Node.hbmWrite_rowsNow (a : Nat) (bs : Bytes) : (n.hbmWrite a bs).rowsNow = n.rowsNow := rfl
@[simp] theorem Node.hbmWrite_rowsPrev (a : Nat) (bs : Bytes) : (n.hbmWrite a bs).rowsPrev = n.rowsPrev := rfl
@[simp] theorem Node.hbmWrite_office (a : Nat) (bs : Bytes) : (n.hbmWrite a bs).office = n.office := rfl
@[simp] theorem Node.hbmWrite_cores (a : Nat) (bs : Bytes) : (n.hbmWrite a bs).cores = n.cores := rfl
@[simp] theorem Node.hbmWrite_ports (a : Nat) (bs : Bytes) : (n.hbmWrite a bs).ports = n.ports := rfl
@[simp] theorem Node.hbmWrite_locks (a : Nat) (bs : Bytes) : (n.hbmWrite a bs).locks = n.locks := rfl
@[simp] theorem Node.hbmWrite_courier (a : Nat) (bs : Bytes) : (n.hbmWrite a bs).courier = n.courier := rfl
@[simp] theorem Node.hbmWrite_mig (a : Nat) (bs : Bytes) : (n.hbmWrite a bs).mig = n.mig := rfl
@[simp] theorem Node.hbmWrite_nme (a : Nat) (bs : Bytes) : (n.hbmWrite a bs).nme = n.nme := rfl
@[simp] theorem Node.hbmWrite_gz (a : Nat) (bs : Bytes) : (n.hbmWrite a bs).gz = n.gz := rfl
@[simp] theorem Node.hbmWrite_host (a : Nat) (bs : Bytes) : (n.hbmWrite a bs).host = n.host := rfl
@[simp] theorem Node.hbmWrite_pool (a : Nat) (bs : Bytes) : (n.hbmWrite a bs).pool = n.pool := rfl
@[simp] theorem Node.hbmWrite_sec (a : Nat) (bs : Bytes) : (n.hbmWrite a bs).sec = n.sec := rfl
@[simp] theorem Node.hbmWrite_spdm (a : Nat) (bs : Bytes) : (n.hbmWrite a bs).spdm = n.spdm := rfl
@[simp] theorem Node.hbmWrite_power (a : Nat) (bs : Bytes) : (n.hbmWrite a bs).power = n.power := rfl
@[simp] theorem Node.hbmWrite_dbg (a : Nat) (bs : Bytes) : (n.hbmWrite a bs).dbg = n.dbg := rfl
@[simp] theorem Node.hbmWrite_err (a : Nat) (bs : Bytes) : (n.hbmWrite a bs).err = n.err := rfl
@[simp] theorem Node.hbmWrite_survey (a : Nat) (bs : Bytes) : (n.hbmWrite a bs).survey = n.survey := rfl
@[simp] theorem Node.hbmWrite_pldm (a : Nat) (bs : Bytes) : (n.hbmWrite a bs).pldm = n.pldm := rfl
@[simp] theorem Node.hbmWrite_portMode (a : Nat) (bs : Bytes) : (n.hbmWrite a bs).portMode = n.portMode := rfl
@[simp] theorem Node.hbmWrite_waits (a : Nat) (bs : Bytes) : (n.hbmWrite a bs).waits = n.waits := rfl
@[simp] theorem Node.hbmWrite_loop (a : Nat) (bs : Bytes) : (n.hbmWrite a bs).loop = n.loop := rfl
@[simp] theorem Node.hbmWrite_freeCtr (a : Nat) (bs : Bytes) : (n.hbmWrite a bs).freeCtr = n.freeCtr := rfl

@[simp] theorem Node.at_ident (t : Nat) : (n.at t).ident = n.ident := rfl
@[simp] theorem Node.at_pins (t : Nat) : (n.at t).pins = n.pins := rfl
@[simp] theorem Node.at_boot (t : Nat) : (n.at t).boot = n.boot := rfl
@[simp] theorem Node.at_regs (t : Nat) : (n.at t).regs = n.regs := rfl
@[simp] theorem Node.at_mram (t : Nat) : (n.at t).mram = n.mram := rfl
@[simp] theorem Node.at_hbm (t : Nat) : (n.at t).hbm = n.hbm := rfl
@[simp] theorem Node.at_poison (t : Nat) : (n.at t).poison = n.poison := rfl
@[simp] theorem Node.at_time (t : Nat) : (n.at t).time = { n.time with now := max n.time.now t } := rfl
@[simp] theorem Node.at_chart (t : Nat) : (n.at t).chart = n.chart := rfl
@[simp] theorem Node.at_parts (t : Nat) : (n.at t).parts = n.parts := rfl
@[simp] theorem Node.at_quads (t : Nat) : (n.at t).quads = n.quads := rfl
@[simp] theorem Node.at_granules (t : Nat) : (n.at t).granules = n.granules := rfl
@[simp] theorem Node.at_seqs (t : Nat) : (n.at t).seqs = n.seqs := rfl
@[simp] theorem Node.at_leaves (t : Nat) : (n.at t).leaves = n.leaves := rfl
@[simp] theorem Node.at_rowsNow (t : Nat) : (n.at t).rowsNow = n.rowsNow := rfl
@[simp] theorem Node.at_rowsPrev (t : Nat) : (n.at t).rowsPrev = n.rowsPrev := rfl
@[simp] theorem Node.at_office (t : Nat) : (n.at t).office = n.office := rfl
@[simp] theorem Node.at_cores (t : Nat) : (n.at t).cores = n.cores := rfl
@[simp] theorem Node.at_ports (t : Nat) : (n.at t).ports = n.ports := rfl
@[simp] theorem Node.at_locks (t : Nat) : (n.at t).locks = n.locks := rfl
@[simp] theorem Node.at_courier (t : Nat) : (n.at t).courier = n.courier := rfl
@[simp] theorem Node.at_mig (t : Nat) : (n.at t).mig = n.mig := rfl
@[simp] theorem Node.at_nme (t : Nat) : (n.at t).nme = n.nme := rfl
@[simp] theorem Node.at_gz (t : Nat) : (n.at t).gz = n.gz := rfl
@[simp] theorem Node.at_host (t : Nat) : (n.at t).host = n.host := rfl
@[simp] theorem Node.at_pool (t : Nat) : (n.at t).pool = n.pool := rfl
@[simp] theorem Node.at_sec (t : Nat) : (n.at t).sec = n.sec := rfl
@[simp] theorem Node.at_spdm (t : Nat) : (n.at t).spdm = n.spdm := rfl
@[simp] theorem Node.at_power (t : Nat) : (n.at t).power = n.power := rfl
@[simp] theorem Node.at_dbg (t : Nat) : (n.at t).dbg = n.dbg := rfl
@[simp] theorem Node.at_err (t : Nat) : (n.at t).err = n.err := rfl
@[simp] theorem Node.at_survey (t : Nat) : (n.at t).survey = n.survey := rfl
@[simp] theorem Node.at_pldm (t : Nat) : (n.at t).pldm = n.pldm := rfl
@[simp] theorem Node.at_portMode (t : Nat) : (n.at t).portMode = n.portMode := rfl
@[simp] theorem Node.at_waits (t : Nat) : (n.at t).waits = n.waits := rfl
@[simp] theorem Node.at_loop (t : Nat) : (n.at t).loop = n.loop := rfl
@[simp] theorem Node.at_freeCtr (t : Nat) : (n.at t).freeCtr = n.freeCtr := rfl

@[simp] theorem Node.wait_ident (a : CtlAct) : (n.wait a).ident = n.ident := rfl
@[simp] theorem Node.wait_pins (a : CtlAct) : (n.wait a).pins = n.pins := rfl
@[simp] theorem Node.wait_boot (a : CtlAct) : (n.wait a).boot = n.boot := rfl
@[simp] theorem Node.wait_regs (a : CtlAct) : (n.wait a).regs = n.regs := rfl
@[simp] theorem Node.wait_mram (a : CtlAct) : (n.wait a).mram = n.mram := rfl
@[simp] theorem Node.wait_hbm (a : CtlAct) : (n.wait a).hbm = n.hbm := rfl
@[simp] theorem Node.wait_poison (a : CtlAct) : (n.wait a).poison = n.poison := rfl
@[simp] theorem Node.wait_time (a : CtlAct) : (n.wait a).time = n.time := rfl
@[simp] theorem Node.wait_chart (a : CtlAct) : (n.wait a).chart = n.chart := rfl
@[simp] theorem Node.wait_parts (a : CtlAct) : (n.wait a).parts = n.parts := rfl
@[simp] theorem Node.wait_quads (a : CtlAct) : (n.wait a).quads = n.quads := rfl
@[simp] theorem Node.wait_granules (a : CtlAct) : (n.wait a).granules = n.granules := rfl
@[simp] theorem Node.wait_seqs (a : CtlAct) : (n.wait a).seqs = n.seqs := rfl
@[simp] theorem Node.wait_leaves (a : CtlAct) : (n.wait a).leaves = n.leaves := rfl
@[simp] theorem Node.wait_rowsNow (a : CtlAct) : (n.wait a).rowsNow = n.rowsNow := rfl
@[simp] theorem Node.wait_rowsPrev (a : CtlAct) : (n.wait a).rowsPrev = n.rowsPrev := rfl
@[simp] theorem Node.wait_office (a : CtlAct) : (n.wait a).office = n.office := rfl
@[simp] theorem Node.wait_cores (a : CtlAct) : (n.wait a).cores = n.cores := rfl
@[simp] theorem Node.wait_ports (a : CtlAct) : (n.wait a).ports = n.ports := rfl
@[simp] theorem Node.wait_locks (a : CtlAct) : (n.wait a).locks = n.locks := rfl
@[simp] theorem Node.wait_courier (a : CtlAct) : (n.wait a).courier = n.courier := rfl
@[simp] theorem Node.wait_mig (a : CtlAct) : (n.wait a).mig = n.mig := rfl
@[simp] theorem Node.wait_nme (a : CtlAct) : (n.wait a).nme = n.nme := rfl
@[simp] theorem Node.wait_gz (a : CtlAct) : (n.wait a).gz = n.gz := rfl
@[simp] theorem Node.wait_host (a : CtlAct) : (n.wait a).host = n.host := rfl
@[simp] theorem Node.wait_pool (a : CtlAct) : (n.wait a).pool = n.pool := rfl
@[simp] theorem Node.wait_sec (a : CtlAct) : (n.wait a).sec = n.sec := rfl
@[simp] theorem Node.wait_spdm (a : CtlAct) : (n.wait a).spdm = n.spdm := rfl
@[simp] theorem Node.wait_power (a : CtlAct) : (n.wait a).power = n.power := rfl
@[simp] theorem Node.wait_dbg (a : CtlAct) : (n.wait a).dbg = n.dbg := rfl
@[simp] theorem Node.wait_err (a : CtlAct) : (n.wait a).err = n.err := rfl
@[simp] theorem Node.wait_survey (a : CtlAct) : (n.wait a).survey = n.survey := rfl
@[simp] theorem Node.wait_pldm (a : CtlAct) : (n.wait a).pldm = n.pldm := rfl
@[simp] theorem Node.wait_portMode (a : CtlAct) : (n.wait a).portMode = n.portMode := rfl
@[simp] theorem Node.wait_waits (a : CtlAct) : (n.wait a).waits = n.waits ++ [a] := rfl
@[simp] theorem Node.wait_loop (a : CtlAct) : (n.wait a).loop = n.loop := rfl
@[simp] theorem Node.wait_freeCtr (a : CtlAct) : (n.wait a).freeCtr = n.freeCtr := rfl

/-! What was fixed when the package was built stays under every change (R1). -/

@[simp] theorem Node.change_ident (f : Node → Node) : (n.change f).ident = n.ident := rfl

end Sys2Proof.Machine
end

