-- ==== Sys2Proof/Laws/Forms.lean ====
section
/-!
SUPPORT. What each form of a meaning can answer, said once, and what the end of an event does in a quiet node.
-/

namespace Sys2Proof.Machine

/-! ## Conditions -/

@[simp] theorem Node.when_true (n : Node) (f : Node → Node) : n.when true f = f n := rfl
@[simp] theorem Node.when_false (n : Node) (f : Node → Node) : n.when false f = n := rfl

/-! ## Forms -/

theorem State.on_eq (s : State) (f : Node → Node) : s.on f = .next { s with node := s.node.change f } := rfl

/-- A form over a named unit answers a next state exactly when the part has the unit, else the fault. -/
theorem State.onUnit_eq (s : State) (p : Bool) (f : Node → Node) :
    s.onUnit p f = if p then .next { s with node := s.node.change f } else .fault .absentUnit := rfl

theorem State.onUnit_next {s s' : State} {p : Bool} {f : Node → Node} (h : s.onUnit p f = .next s') :
    p = true ∧ s' = { s with node := s.node.change f } := by
  cases p with
  | false => cases h
  | true => cases h; exact ⟨rfl, rfl⟩

theorem State.at_eq (s : State) (t : Nat) (f : Node → Node) :
    s.at t f = .next { s with node := s.node.change fun n => n.event t f } := rfl

theorem State.live_eq (s : State) (t : Nat) (f : Node → Node) :
    s.live t f = .next { s with node := s.node.change fun n => n.event t fun n => n.when n.awake f } := rfl

theorem State.fromHost_eq (s : State) (t : Nat) (f : Node → Node) :
    s.fromHost t f = .next { s with node := s.node.change fun n => n.event t fun n => n.when n.hostReach f } := rfl

theorem State.hostReg_eq (s : State) (t : Nat) (r : Fld) (f : Node → Node) :
    s.hostReg t r f = .next { s with node := s.node.change fun n => n.event t fun n => n.windowWrite r 0 true f } := rfl

/-- A register write that reaches a present unit of a node that runs has its effect. -/
theorem Node.windowWrite_reached {n : Node} {r : Fld} {b : Nat} {f : Node → Node} (h : n.hostReach = true) :
    n.windowWrite r b true f = f n := by
  simp only [Node.hostReach, Bool.and_eq_true] at h
  simp [Node.windowWrite, h.1, h.2]

/-- No form changes the queue. -/
theorem State.onUnit_pending {s s' : State} {p : Bool} {f : Node → Node} (h : s.onUnit p f = .next s') :
    s'.pending = s.pending := by
  rw [(State.onUnit_next h).2]

/-! ## Conditions on the node that the time of an event leaves as they are -/

@[simp] theorem Node.awake_at (n : Node) (t : Nat) : (n.at t).awake = n.awake := rfl
@[simp] theorem Node.hostReach_at (n : Node) (t : Nat) : (n.at t).hostReach = n.hostReach := rfl
@[simp] theorem Node.portHands_at (n : Node) (t p : Nat) : (n.at t).portHands p = n.portHands p := rfl
@[simp] theorem Node.change_event_ident (n : Node) (t : Nat) (f : Node → Node) :
    (n.change fun n => n.event t f).ident = n.ident := rfl

/-! ## The end of an event in a quiet node -/

theorem Node.Quiet.at {n : Node} (h : n.Quiet) (t : Nat) : (n.at t).Quiet where
  loop := h.loop
  inbox := h.inbox
  done := h.done
  boxes := h.boxes
  level1 := h.level1
  level2 := h.level2
  level3 := h.level3
  flush := h.flush
  milestones := h.milestones
  reads := h.reads

theorem Node.Quiet.workOne {n : Node} (h : n.Quiet) : n.workOne = none := by
  simp only [Node.workOne, h.loop, h.inbox, h.done, h.reads, Node.readyBox, List.findSome?_eq_none_iff]
  intro b _
  have := h.boxes b
  simp [this.1, this.2]

theorem Node.work_of_none {n : Node} (h : n.workOne = none) (k : Nat) : Node.work k n = n := by
  cases k with
  | zero => rfl
  | succ k => simp [Node.work, h]

theorem Node.Quiet.resetsDone {n : Node} (h : n.Quiet) : n.resetsDone = n := by
  have h1 := h.level1
  have h2 := h.level2
  have h3 := h.level3
  cases n
  rename_i err _ _ _ _ _ _
  cases err
  simp only at h1 h2 h3
  subst h1 h2 h3
  rfl

theorem Node.Quiet.flushEnds {n : Node} (h : n.Quiet) : n.flushEnds = n := by
  simp [Node.flushEnds, h.flush]

theorem Node.Quiet.milestones_eq {n : Node} (h : n.Quiet) : n.milestones = n := by
  have h := h.milestones
  simp only [Node.milestonesSet, Bool.or_eq_true, Bool.and_eq_true, Bool.not_eq_true', bne_iff_ne, ne_eq] at h
  unfold Node.milestones
  by_cases ha : n.awake = true
  · obtain ⟨⟨h2, h3⟩, h6⟩ := h.resolve_left (by simp [ha])
    have e2 : (n.host.link && !bitAt n.boot.done 2) = false := by
      rcases h2 with h | h <;> simp [h]
    have e3 : (n.chart.st == .inForce && !bitAt n.boot.done 3) = false := by
      rcases h3 with h | h <;> simp [h]
    have e6 : (n.time.everLocked && !bitAt n.boot.done 6) = false := by
      rcases h6 with h | h <;> simp [h]
    simp [ha, e2, e3, e6]
  · simp [ha]

/-- What an event sets off in a quiet node: nothing. -/
theorem Node.Quiet.settle {n : Node} (h : n.Quiet) : n.settle = n := by
  have w := Node.work_of_none h.workOne workLimit
  simp only [Node.settle, w, h.resetsDone, h.flushEnds, h.milestones_eq]

end Sys2Proof.Machine
end

