-- ==== Sys2Proof/Laws/Exec.lean ====
section
/-!
SUPPORT. Everything a command can do, said once: it changes the node by a rule that does not look at the queue, or stops
because it names a unit the part does not have.
-/

namespace Sys2Proof.Machine

/-- The one law of `exec`. -/
theorem exec_shape (c : Instr) (n : Node) :
    ∃ f : Node → Node, ∀ q : List Instr, exec c ⟨n, q⟩ = State.onUnit ⟨n, q⟩ (commandFits n c) f := by
  cases c <;> exact ⟨_, fun _ => rfl⟩

/-- What is fitting depends on the package alone. -/
theorem commandFits_ident {n m : Node} (h : n.ident = m.ident) (c : Instr) : commandFits n c = commandFits m c := by
  have e : n.nSheets = m.nSheets := congrArg (fun i => i.part.sheets) h
  have hs : ∀ x, n.hasSheet x = m.hasSheet x := fun x => by unfold Node.hasSheet; rw [e]
  have hq : ∀ x, n.hasQuad x = m.hasQuad x := fun x => by unfold Node.hasQuad Node.nQuads; rw [e]
  have hc : ∀ x, n.hasCore x = m.hasCore x := fun x => by unfold Node.hasCore Node.nCores; rw [e]
  have hp : ∀ x, n.hasPort x = m.hasPort x := fun x => by unfold Node.hasPort Node.nPorts; rw [e]
  have hl : ∀ x y, n.hasLink x y = m.hasLink x y := fun x y => by
    unfold Node.hasLink Node.linkPeer Node.neighbours Node.rowOf Node.rowLen Node.hasSheet; rw [e]
  have hf : ∀ x y z, n.fatalUnit x y z = m.fatalUnit x y z := fun x y z => by
    unfold Node.fatalUnit; split <;> first | rfl | exact hl _ _ | exact hs _
  cases c <;> first | rfl | exact hs _ | exact hq _ | exact hc _ | exact hp _ | exact hl _ _ | exact hf _ _ _

end Sys2Proof.Machine
end

