-- ==== Sys2Proof/Laws/Maps.lean ====
section
/-!
SUPPORT. Laws of sparse maps: a read after a write under the same key gives the value written, under another key what was
there; every operation keeps the canonical form (`mapWf`).
-/

namespace Sys2Proof.Machine

variable {α : Type}

/-! ## The canonical form as a proposition -/

theorem keysRise_cons {p : Nat × α} {m : Map α} :
    keysRise (p :: m) = true ↔ (∀ q ∈ m, p.1 < q.1) ∧ keysRise m = true := by
  induction m generalizing p with
  | nil => simp [keysRise]
  | cons q m ih =>
    simp only [keysRise, Bool.and_eq_true, decide_eq_true_eq, ih, List.mem_cons, forall_eq_or_imp]
    constructor
    · rintro ⟨h, h1, h2⟩
      exact ⟨⟨h, fun x hx => Nat.lt_trans h (h1 x hx)⟩, h1, h2⟩
    · rintro ⟨⟨h, -⟩, h1, h2⟩
      exact ⟨h, h1, h2⟩

theorem mapWf_iff [DecidableEq α] {d : α} {m : Map α} :
    mapWf d m = true ↔ keysRise m = true ∧ ∀ p ∈ m, p.2 ≠ d := by
  simp [mapWf]

theorem mapWf_nil [DecidableEq α] (d : α) : mapWf d ([] : Map α) = true := rfl

/-! ## Reading after writing -/

theorem mapFind?_none {m : Map α} {k : Nat} (h : ∀ p ∈ m, k ≠ p.1) : mapFind? m k = none := by
  induction m with
  | nil => rfl
  | cons p m ih =>
    have h1 := h p (by simp)
    simp only [mapFind?, if_neg h1]
    exact ih fun q hq => h q (by simp [hq])

@[simp] theorem mapFind?_insert_same (m : Map α) (k : Nat) (v : α) : mapFind? (mapInsert m k v) k = some v := by
  induction m with
  | nil => simp [mapInsert, mapFind?]
  | cons p m ih =>
    simp only [mapInsert]
    split
    · simp [mapFind?]
    · split
      · simp [mapFind?]
      · simp_all [mapFind?]

theorem mapFind?_insert_other {m : Map α} {j k : Nat} (v : α) (h : j ≠ k) :
    mapFind? (mapInsert m k v) j = mapFind? m j := by
  induction m with
  | nil => simp [mapInsert, mapFind?, h]
  | cons p m ih =>
    simp only [mapInsert]
    split
    · simp [mapFind?, h]
    · split
      · next h2 => subst h2; simp [mapFind?, h]
      · simp [mapFind?, ih]

theorem mapFind?_erase_other {m : Map α} {j k : Nat} (h : j ≠ k) : mapFind? (mapErase m k) j = mapFind? m j := by
  induction m with
  | nil => rfl
  | cons p m ih =>
    simp only [mapErase]
    split
    · next h2 => subst h2; simp [mapFind?, h, ih]
    · simp [mapFind?, ih]

@[simp] theorem mapFind?_erase_same (m : Map α) (k : Nat) : mapFind? (mapErase m k) k = none := by
  induction m with
  | nil => rfl
  | cons p m ih =>
    simp only [mapErase]
    split
    · exact ih
    · next h => simp [mapFind?, h, ih]

/-- A read after a write under the same key. -/
@[simp] theorem mapGetD_set_same [DecidableEq α] (d : α) (m : Map α) (k : Nat) (v : α) :
    mapGetD d (mapSetD d m k v) k = v := by
  unfold mapGetD mapSetD
  split
  · next hv => simp [hv]
  · simp

/-- A read after a write under another key. -/
theorem mapGetD_set_other [DecidableEq α] {d : α} {m : Map α} {j k : Nat} {v : α} (h : j ≠ k) :
    mapGetD d (mapSetD d m k v) j = mapGetD d m j := by
  unfold mapGetD mapSetD
  split
  · simp [mapFind?_erase_other h]
  · simp [mapFind?_insert_other v h]

@[simp] theorem mapGet_mod_same [Inhabited α] [DecidableEq α] (m : Map α) (k : Nat) (f : α → α) :
    mapGet (mapMod m k f) k = f (mapGet m k) := mapGetD_set_same _ _ _ _

theorem mapGet_mod_other [Inhabited α] [DecidableEq α] {m : Map α} {j k : Nat} {f : α → α} (h : j ≠ k) :
    mapGet (mapMod m k f) j = mapGet m j := mapGetD_set_other h

/-! ## What every operation keeps -/

theorem mem_mapErase {m : Map α} {k : Nat} {q : Nat × α} (h : q ∈ mapErase m k) : q ∈ m := by
  induction m with
  | nil => exact h
  | cons p m ih =>
    simp only [mapErase] at h
    split at h
    · exact List.mem_cons_of_mem _ (ih h)
    · rcases List.mem_cons.mp h with rfl | h
      · exact List.mem_cons_self
      · exact List.mem_cons_of_mem _ (ih h)

theorem mem_mapInsert {m : Map α} {k : Nat} {v : α} {q : Nat × α} (h : q ∈ mapInsert m k v) : q = (k, v) ∨ q ∈ m := by
  induction m with
  | nil => simpa [mapInsert] using h
  | cons p m ih =>
    simp only [mapInsert] at h
    split at h
    · simpa using h
    · split at h
      · rcases List.mem_cons.mp h with rfl | h
        · exact .inl rfl
        · exact .inr (List.mem_cons_of_mem _ h)
      · rcases List.mem_cons.mp h with rfl | h
        · exact .inr List.mem_cons_self
        · exact (ih h).imp_right (List.mem_cons_of_mem _)

theorem keysRise_erase {m : Map α} (k : Nat) (h : keysRise m = true) : keysRise (mapErase m k) = true := by
  induction m with
  | nil => rfl
  | cons p m ih =>
    obtain ⟨h1, h2⟩ := keysRise_cons.mp h
    simp only [mapErase]
    split
    · exact ih h2
    · exact keysRise_cons.mpr ⟨fun q hq => h1 q (mem_mapErase hq), ih h2⟩

theorem keysRise_insert {m : Map α} (k : Nat) (v : α) (h : keysRise m = true) : keysRise (mapInsert m k v) = true := by
  induction m with
  | nil => rfl
  | cons p m ih =>
    obtain ⟨h1, h2⟩ := keysRise_cons.mp h
    simp only [mapInsert]
    split
    · next h3 =>
      refine keysRise_cons.mpr ⟨fun q hq => ?_, h⟩
      rcases List.mem_cons.mp hq with rfl | hq
      · exact h3
      · exact Nat.lt_trans h3 (h1 q hq)
    · split
      · next h3 => subst h3; exact keysRise_cons.mpr ⟨h1, h2⟩
      · next h3 h4 =>
        refine keysRise_cons.mpr ⟨fun q hq => ?_, ih h2⟩
        rcases mem_mapInsert hq with rfl | hq
        · show p.1 < k; omega
        · exact h1 q hq

/-- A write keeps the canonical form. -/
theorem mapWf_set [DecidableEq α] {d : α} {m : Map α} (k : Nat) (v : α) (h : mapWf d m = true) :
    mapWf d (mapSetD d m k v) = true := by
  obtain ⟨h1, h2⟩ := mapWf_iff.mp h
  unfold mapSetD
  split
  · exact mapWf_iff.mpr ⟨keysRise_erase k h1, fun p hp => h2 p (mem_mapErase hp)⟩
  · next hv =>
    refine mapWf_iff.mpr ⟨keysRise_insert k v h1, fun p hp => ?_⟩
    rcases mem_mapInsert hp with rfl | hp
    · exact hv
    · exact h2 p hp

theorem mapWf_mod [Inhabited α] [DecidableEq α] {m : Map α} (k : Nat) (f : α → α) (h : mapWf default m = true) :
    mapWf default (mapMod m k f) = true := mapWf_set k _ h

theorem keysRise_filter {m : Map α} (t : Nat × α → Bool) (h : keysRise m = true) : keysRise (m.filter t) = true := by
  induction m with
  | nil => rfl
  | cons p m ih =>
    obtain ⟨h1, h2⟩ := keysRise_cons.mp h
    simp only [List.filter_cons]
    split
    · exact keysRise_cons.mpr ⟨fun q hq => h1 q (List.mem_filter.mp hq).1, ih h2⟩
    · exact ih h2

/-- Dropping entries keeps the canonical form. -/
theorem mapWf_keep [DecidableEq α] {d : α} {m : Map α} (t : Nat → α → Bool) (h : mapWf d m = true) :
    mapWf d (mapKeep t m) = true := by
  obtain ⟨h1, h2⟩ := mapWf_iff.mp h
  exact mapWf_iff.mpr ⟨keysRise_filter _ h1, fun p hp => h2 p (List.mem_filter.mp hp).1⟩

/-- What a map reads once some entries are dropped. -/
theorem mapFind?_keep {m : Map α} {t : Nat → α → Bool} {k : Nat} (h : keysRise m = true) :
    mapFind? (mapKeep t m) k = (mapFind? m k).filter (t k) := by
  induction m with
  | nil => rfl
  | cons p m ih =>
    obtain ⟨h1, h2⟩ := keysRise_cons.mp h
    have ih := ih h2
    unfold mapKeep at ih ⊢
    simp only [List.filter_cons, mapFind?]
    by_cases hk : k = p.1
    · subst hk
      rw [if_pos rfl]
      by_cases ht : t p.1 p.2 = true
      · simp [ht, mapFind?, Option.filter]
      · simp only [ht, Bool.false_eq_true, if_false, Option.filter]
        exact mapFind?_none fun q hq => by have := h1 q (List.mem_filter.mp hq).1; omega
    · rw [if_neg hk]
      split
      · rw [mapFind?, if_neg hk, ih]
      · exact ih

end Sys2Proof.Machine
end

