-- ==== Sys2Proof/Laws/Memory.lean ====
section
/-!
SUPPORT. Laws of memory: a byte read after a write is the byte written or the byte that was there; every operation on a
memory keeps its canonical form; every operation on the poison list keeps it ascending.
-/

namespace Sys2Proof.Machine

/-! ## Bytes -/

theorem hbmPut_wf {m : Map Byte} (a : Nat) (bs : Bytes) (h : Memory.wf m = true) : Memory.wf (hbmPut m a bs) = true := by
  induction bs generalizing m a with
  | nil => exact h
  | cons b bs ih => exact ih (a + 1) (mapWf_set a b h)

theorem hbmPut_outside {m : Map Byte} {a : Nat} {bs : Bytes} {x : Nat} (h : x < a ∨ a + bs.length ≤ x) :
    mapGetD 0 (hbmPut m a bs) x = mapGetD 0 m x := by
  induction bs generalizing m a with
  | nil => rfl
  | cons b bs ih =>
    simp only [List.length_cons] at h
    simp only [hbmPut]
    rw [ih (by omega), hbmSet, mapGetD_set_other (by omega)]

theorem hbmPut_inside {m : Map Byte} {a : Nat} {bs : Bytes} {i : Nat} (h : i < bs.length) :
    mapGetD 0 (hbmPut m a bs) (a + i) = bs[i] := by
  induction bs generalizing m a i with
  | nil => simp at h
  | cons b bs ih =>
    simp only [hbmPut]
    cases i with
    | zero =>
      rw [hbmPut_outside (by omega)]
      exact mapGetD_set_same _ _ _ _
    | succ i =>
      have := ih (m := hbmSet m a b) (a := a + 1) (i := i) (by simpa using h)
      simpa [Nat.add_assoc, Nat.add_comm 1 i] using this

/-- A byte of HBM outside the bytes written reads as before. -/
theorem Node.hbmByte_hbmWrite_outside {n : Node} {a x : Nat} {bs : Bytes} (h : x < a ∨ a + bs.length ≤ x) :
    (n.hbmWrite a bs).hbmByte x = n.hbmByte x := hbmPut_outside h

/-- A byte of HBM inside the bytes written reads as written. -/
theorem Node.hbmByte_hbmWrite_inside {n : Node} {a i : Nat} {bs : Bytes} (h : i < bs.length) :
    (n.hbmWrite a bs).hbmByte (a + i) = bs[i] := hbmPut_inside h

/-! ## Each operation on a memory keeps the canonical form -/

theorem Node.hbmWrite_wf {n : Node} (a : Nat) (bs : Bytes) (h : Memory.wf n.hbm = true) :
    Memory.wf (n.hbmWrite a bs).hbm = true := hbmPut_wf a bs h

theorem Node.hbmStore_wf {n : Node} (a : Nat) (bs : Bytes) (h : Memory.wf n.hbm = true) :
    Memory.wf (n.hbmStore a bs).hbm = true := hbmPut_wf a bs h

theorem Node.hbmZero_wf {n : Node} (a len : Nat) (h : Memory.wf n.hbm = true) :
    Memory.wf (n.hbmZero a len).hbm = true :=
  mapWf_keep (fun k _ => decide (k < a) || decide (a + len ≤ k)) h

theorem Node.hostWrite_wf {n : Node} (a : Nat) (bs : Bytes) (h : Memory.wf n.host.mem = true) :
    Memory.wf (n.hostWrite a bs).host.mem = true := hbmPut_wf a bs h

/-- The memories right after reset are in canonical form. -/
theorem reset_memWf : State.reset.node.MemWf := ⟨rfl, rfl⟩

/-! ## Poison -/

theorem mem_insNat {x y : Nat} {l : List Nat} : y ∈ insNat x l ↔ y = x ∨ y ∈ l := by
  induction l with
  | nil => simp [insNat]
  | cons z zs ih =>
    simp only [insNat]
    split
    · simp
    · split
      · next h => subst h; simp
      · simp only [List.mem_cons, ih]
        constructor
        · rintro (h | h | h) <;> simp [h]
        · rintro (h | h | h) <;> simp [h]

theorem poisonWf_insNat {x : Nat} {l : List Nat} (h : poisonWf l) : poisonWf (insNat x l) := by
  unfold poisonWf at *
  induction l with
  | nil => simp [insNat]
  | cons z zs ih =>
    obtain ⟨h1, h2⟩ := List.pairwise_cons.mp h
    simp only [insNat]
    split
    · next h3 =>
      refine List.pairwise_cons.mpr ⟨fun y hy => ?_, h⟩
      rcases List.mem_cons.mp hy with rfl | hy
      · exact h3
      · exact Nat.lt_trans h3 (h1 y hy)
    · split
      · exact h
      · next h3 h4 =>
        refine List.pairwise_cons.mpr ⟨fun y hy => ?_, ih h2⟩
        rcases mem_insNat.mp hy with rfl | hy
        · omega
        · exact h1 y hy

theorem poisonWf_insAll {bs l : List Nat} (h : poisonWf l) : poisonWf (forEach bs l fun l b => insNat b l) := by
  unfold forEach
  induction bs generalizing l with
  | nil => exact h
  | cons b bs ih => exact ih (poisonWf_insNat h)

theorem mem_insAll {bs l : List Nat} {y : Nat} : y ∈ forEach bs l (fun l b => insNat b l) ↔ y ∈ bs ∨ y ∈ l := by
  unfold forEach
  induction bs generalizing l with
  | nil => simp
  | cons b bs ih =>
    rw [List.foldl_cons, ih, mem_insNat, List.mem_cons]
    constructor
    · rintro (h | h | h) <;> simp [h]
    · rintro ((h | h) | h) <;> simp [h]

theorem Node.poisonRange_wf {n : Node} (a len : Nat) (h : poisonWf n.poison) : poisonWf (n.poisonRange a len).poison :=
  poisonWf_insAll h

theorem Node.unpoison_wf {n : Node} (a len : Nat) (h : poisonWf n.poison) : poisonWf (n.unpoison a len).poison :=
  List.Pairwise.filter _ h

theorem Node.hbmZero_poisonWf {n : Node} (a len : Nat) (h : poisonWf n.poison) : poisonWf (n.hbmZero a len).poison :=
  List.Pairwise.filter _ h

end Sys2Proof.Machine
end

