-- ==== Sys2Proof/WellFormed.lean ====
section
/-!
DEFINITION. Which terms of `Instr` stand for something that can happen: unit numbers the numbering of R4 and R13 has,
field values that fit the widths of the packet, frame and command layouts, a host command of 64 bytes with its row's
OPCODE (R309, R313). No meaning relies on these checks; they say what a caller may send.
-/

namespace Sys2Proof

/-- A Meridian time: 64 bits (R26). -/
def okTime (t : Nat) : Bool := decide (t < 2 ^ 64)

/-- An Opward packet whose fields fit their widths (table Opward header) and whose payload fits a frame (R250). -/
def Packet.wf (p : Packet) : Bool :=
  decide (p.dst < 2 ^ 32) && decide (p.src < 2 ^ 32) && decide (p.deadline < 2 ^ 64) && decide (p.ptype < 256) &&
    decide (p.cls < 4) && decide (p.entropy < 2 ^ 16) && decide (p.hops < 256) && decide (p.payload.length ≤ 9216)

/-- A received frame with room for a link header and franking, no longer than the largest (table Frame layout). -/
def RxFrame.wf (f : RxFrame) : Bool := decide (40 ≤ f.bytes.length) && decide (f.bytes.length ≤ 9292)

/-- A host command: 64 bytes, its first byte the row's opcode (R309, R313). -/
def HostCmd.wf (c : HostCmd) (op : Nat) : Bool :=
  decide (c.bytes.length = 64) && decide ((c.bytes.getD 0 0).toNat = op)

/-- A time-exchange message whose time stamps fit MER_NS and MER_FRAC together (R26, R30). -/
def TimeMsg.wf (m : TimeMsg) : Bool :=
  decide (m.sentHere < 2 ^ 80) && decide (m.recvThere < 2 ^ 80) && decide (m.sentThere < 2 ^ 80) &&
    decide (m.recvHere < 2 ^ 80) && decide (m.origin < 2 ^ 64) && decide (m.epoch < 2 ^ 16) &&
    decide (m.deadline < 2 ^ 64)

/-- Is a command well formed? -/
def Instr.wf : Instr → Bool
  | .tickBoundary => true
  | .collectionCutoff t => okTime t
  | .timeExchangeSend t => okTime t
  | .timeExchange t port m => okTime t && decide (port < 16) && m.wf
  | .exchangeMissed t port => okTime t && decide (port < 16)
  | .ptpMessage t port _ => okTime t && decide (port < 16)
  | .ptpSyncSend t port => okTime t && decide (port < 16)
  | .ppsInEdge t => okTime t
  | .ppsMissing t => okTime t
  | .ppsOutPulse t => okTime t
  | .upstreamAttemptTimeout t => okTime t
  | .holdoverLimitExceeded t => okTime t
  | .d2dReplayTimeout t sheet link _ => okTime t && decide (sheet < 8) && decide (link < 3)
  | .attend t port p => okTime t && decide (port < 16) && p.wf
  | .append t port p => okTime t && decide (port < 16) && p.wf
  | .attendFwd t port p => okTime t && decide (port < 16) && p.wf
  | .letterShare t _ sheet => okTime t && decide (sheet < 8)
  | .routeCacheWalk t sheet _ _ => okTime t && decide (sheet < 8)
  | .partialFrame t port p => okTime t && decide (port < 16) && p.wf
  | .replyFrame t port p => okTime t && decide (port < 16) && p.wf
  | .mergeCutoff t => okTime t
  | .tombstoneExpiry t => okTime t
  | .refusalEntryExpiry t => okTime t
  | .runAheadFetch t sheet => okTime t && decide (sheet < 8)
  | .pageStaged t sheet _ => okTime t && decide (sheet < 8)
  | .stageFromLowerTier t sheet _ _ _ => okTime t && decide (sheet < 8)
  | .passStart t core => okTime t && decide (core < 800)
  | .passComplete t core _ => okTime t && decide (core < 800)
  | .spadError t core _ _ _ => okTime t && decide (core < 800)
  | .stagingError t sheet _ _ _ => okTime t && decide (sheet < 8)
  | .sealHashDone t _ _ => okTime t
  | .coreHang t core => okTime t && decide (core < 800)
  | .coreResetTimeout t core => okTime t && decide (core < 800)
  | .seqOpen t box c => okTime t && decide (box < 4096) && c.wf 16
  | .seqClose t box c => okTime t && decide (box < 4096) && c.wf 17
  | .pageAlloc t box c => okTime t && decide (box < 4096) && c.wf 18
  | .pageFree t box c => okTime t && decide (box < 4096) && c.wf 19
  | .pin t box c => okTime t && decide (box < 4096) && c.wf 24
  | .unpin t box c => okTime t && decide (box < 4096) && c.wf 25
  | .hintHot t box c => okTime t && decide (box < 4096) && c.wf 23
  | .hintCold t box c => okTime t && decide (box < 4096) && c.wf 23
  | .hintShare t box c => okTime t && decide (box < 4096) && c.wf 23
  | .migrate t box c => okTime t && decide (box < 4096) && c.wf 22
  | .offer t port p => okTime t && decide (port < 16) && p.wf
  | .accept t port p => okTime t && decide (port < 16) && p.wf
  | .migrationTile t _ _ => okTime t
  | .moveHashVerified t _ => okTime t
  | .verified t port p => okTime t && decide (port < 16) && p.wf
  | .commit t port p => okTime t && decide (port < 16) && p.wf
  | .committed t port p => okTime t && decide (port < 16) && p.wf
  | .cancel t port p => okTime t && decide (port < 16) && p.wf
  | .reject t port p => okTime t && decide (port < 16) && p.wf
  | .moveSwitch t _ => okTime t
  | .migTimeout t _ => okTime t
  | .swapOutComplete t _ => okTime t
  | .swapInComplete t _ => okTime t
  | .heatDecay t => okTime t
  | .t0IdleDrop t => okTime t
  | .hbmTrainFail t quad _ => okTime t && decide (quad < 32)
  | .hbmRecentre t quad _ _ => okTime t && decide (quad < 32)
  | .hbmCorrected t _ _ => okTime t
  | .hbmUncorrected t _ _ _ _ => okTime t
  | .patrolStart t quad => okTime t && decide (quad < 32)
  | .hbmRefresh t quad _ _ => okTime t && decide (quad < 32)
  | .hbmRfm t quad _ _ => okTime t && decide (quad < 32)
  | .thermalSample t _ _ _ => okTime t
  | .stackSelfRefreshIdle t quad => okTime t && decide (quad < 32)
  | .nmeFill t box c => okTime t && decide (box < 4096) && c.wf 64
  | .nmeCopy t box c => okTime t && decide (box < 4096) && c.wf 65
  | .nmeCompare t box c => okTime t && decide (box < 4096) && c.wf 66
  | .nmeReduce t box c => okTime t && decide (box < 4096) && c.wf 67
  | .nmeOpStart t quad => okTime t && decide (quad < 32)
  | .nmeOpComplete t _ => okTime t
  | .gzRuleInsert t sheet => okTime t && decide (sheet < 8)
  | .gzRuleRemove t sheet => okTime t && decide (sheet < 8)
  | .gzRespread t sheet => okTime t && decide (sheet < 8)
  | .respreadNow t sheet => okTime t && decide (sheet < 8)
  | .gzEntryError t sheet _ _ _ => okTime t && decide (sheet < 8)
  | .frameReceived t port f => okTime t && decide (port < 16) && f.wf
  | .egressFrameSend t port => okTime t && decide (port < 16)
  | .linkFrameSend t port => okTime t && decide (port < 16)
  | .linkFrame t port f => okTime t && decide (port < 16) && f.wf
  | .retryTimeout t port => okTime t && decide (port < 16)
  | .linkIdleTimeout t port => okTime t && decide (port < 16)
  | .laneFault t port e => okTime t && decide (port < 16) && decide (e.lane < 8)
  | .portTrained t port _ _ _ => okTime t && decide (port < 16)
  | .lockGapTimeout t _ => okTime t
  | .hello t port _ _ => okTime t && decide (port < 16)
  | .finish t port _ _ => okTime t && decide (port < 16)
  | .keyExchangeTimeout t port _ => okTime t && decide (port < 16)
  | .rekeyTrigger t port _ => okTime t && decide (port < 16)
  | .keyAgeLimit t port _ => okTime t && decide (port < 16)
  | .oldKeyErase t port _ => okTime t && decide (port < 16)
  | .neighborSolicitation t port _ _ => okTime t && decide (port < 16)
  | .deadLetter t port p => okTime t && decide (port < 16) && p.wf
  | .qpCreate t box c => okTime t && decide (box < 4096) && c.wf 48
  | .qpConnect t box c => okTime t && decide (box < 4096) && c.wf 49
  | .qpReset t box c => okTime t && decide (box < 4096) && c.wf 50
  | .qpDestroy t box c => okTime t && decide (box < 4096) && c.wf 51
  | .qpLifetimeWaitEnd t qpn => okTime t && decide (qpn < 1048576)
  | .crWrite t box c => okTime t && decide (box < 4096) && c.wf 52
  | .crRead t box c => okTime t && decide (box < 4096) && c.wf 53
  | .crSend t box c => okTime t && decide (box < 4096) && c.wf 54
  | .crFetchAdd t box c => okTime t && decide (box < 4096) && c.wf 55
  | .crCompareSwap t box c => okTime t && decide (box < 4096) && c.wf 56
  | .crWait t box c => okTime t && decide (box < 4096) && c.wf 57
  | .waitTimeout t qpn => okTime t && decide (qpn < 1048576)
  | .write t port p => okTime t && decide (port < 16) && p.wf
  | .readReq t port p => okTime t && decide (port < 16) && p.wf
  | .readResp t port p => okTime t && decide (port < 16) && p.wf
  | .send t port p => okTime t && decide (port < 16) && p.wf
  | .fetchAdd t port p => okTime t && decide (port < 16) && p.wf
  | .compareSwap t port p => okTime t && decide (port < 16) && p.wf
  | .atomicResp t port p => okTime t && decide (port < 16) && p.wf
  | .ack t port p => okTime t && decide (port < 16) && p.wf
  | .nak t port p => okTime t && decide (port < 16) && p.wf
  | .close t port p => okTime t && decide (port < 16) && p.wf
  | .closeAck t port p => okTime t && decide (port < 16) && p.wf
  | .orderedCloseSend t qpn => okTime t && decide (qpn < 1048576)
  | .closeAckTimeout t qpn => okTime t && decide (qpn < 1048576)
  | .ackDelayTimeout t qpn => okTime t && decide (qpn < 1048576)
  | .courierRto t qpn _ => okTime t && decide (qpn < 1048576)
  | .rnrRetry t qpn _ => okTime t && decide (qpn < 1048576)
  | .courierPace t qpn => okTime t && decide (qpn < 1048576)
  | .pathResume t qpn _ => okTime t && decide (qpn < 1048576)
  | .contextFetched t qpn => okTime t && decide (qpn < 1048576)
  | .contextUe t qpn => okTime t && decide (qpn < 1048576)
  | .nodeQpIdle t qpn => okTime t && decide (qpn < 1048576)
  | .keyRegister t box c => okTime t && decide (box < 4096) && c.wf 32
  | .keyRevoke t box c => okTime t && decide (box < 4096) && c.wf 33
  | .crQpFreedWrite t qpn _ => okTime t && decide (qpn < 1048576)
  | .ucieLinkUp t _ _ => okTime t
  | .ucieModuleDown t ucie _ => okTime t && decide (ucie < 4)
  | .ucieLinkDown t => okTime t
  | .ideFailure t => okTime t
  | .hdmRead t _ _ => okTime t
  | .hdmWrite t _ _ _ _ _ => okTime t
  | .bisnpResponse t _ _ _ => okTime t
  | .recallTimeout t _ => okTime t
  | .registerWrite t _ _ _ => okTime t
  | .doorbell t box _ _ => okTime t && decide (box < 4096)
  | .cplFreeWrite t box _ => okTime t && decide (box < 4096)
  | .rrFreeWrite t box _ => okTime t && decide (box < 4096)
  | .pbEnable t box => okTime t && decide (box < 4096)
  | .pbDisable t box => okTime t && decide (box < 4096)
  | .pbReset t box => okTime t && decide (box < 4096)
  | .nop t box c => okTime t && decide (box < 4096) && c.wf 0
  | .hostAppend t box c => okTime t && decide (box < 4096) && c.wf 20
  | .hostAttend t box c => okTime t && decide (box < 4096) && c.wf 21
  | .irqHoldoffEnd t box => okTime t && decide (box < 4096)
  | .hpHeartbeat t _ => okTime t
  | .heartbeatCheck t => okTime t
  | .adopt t => okTime t
  | .t3WindowEnable t _ => okTime t
  | .extentGrant t box c => okTime t && decide (box < 4096) && c.wf 34
  | .extentRenew t box c => okTime t && decide (box < 4096) && c.wf 35
  | .extentWithdraw t box c => okTime t && decide (box < 4096) && c.wf 36
  | .renew t port p => okTime t && decide (port < 16) && p.wf
  | .renewed t port p => okTime t && decide (port < 16) && p.wf
  | .refusedAnswer t port p => okTime t && decide (port < 16) && p.wf
  | .renewTimeout t _ => okTime t
  | .leaseExpiry t _ => okTime t
  | .extentDrained t _ => okTime t
  | .chartLoad t _ => okTime t
  | .chartVerifyDone t => okTime t
  | .overlayApply t box c => okTime t && decide (box < 4096) && c.wf 80
  | .overlayStaged t _ => okTime t
  | .overlaySwitch t => okTime t
  | .redirectRetirement t => okTime t
  | .partitionCreate t box c => okTime t && decide (box < 4096) && c.wf 81
  | .partitionDestroy t box c => okTime t && decide (box < 4096) && c.wf 82
  | .partitionScrub t box c => okTime t && decide (box < 4096) && c.wf 83
  | .quadClearDone t quad => okTime t && decide (quad < 32)
  | .own t _ => okTime t
  | .secReturn t _ => okTime t
  | .reprovision t _ => okTime t
  | .debugToken t _ => okTime t
  | .debugLower t _ => okTime t
  | .advance t _ => okTime t
  | .tokenExpiry t => okTime t
  | .getVersion t conn => okTime t && decide (conn < 2)
  | .getCapabilities t conn _ => okTime t && decide (conn < 2)
  | .negotiateAlgorithms t conn _ => okTime t && decide (conn < 2)
  | .getDigests t conn _ => okTime t && decide (conn < 2)
  | .getCertificate t conn _ _ _ _ => okTime t && decide (conn < 2)
  | .challenge t conn _ _ _ => okTime t && decide (conn < 2)
  | .getMeasurements t conn _ _ _ _ => okTime t && decide (conn < 2)
  | .keyExchange t conn _ _ _ => okTime t && decide (conn < 2)
  | .spdmFinish t conn _ _ _ => okTime t && decide (conn < 2)
  | .spdmHeartbeat t conn _ _ => okTime t && decide (conn < 2)
  | .keyUpdate t conn _ _ _ _ => okTime t && decide (conn < 2)
  | .endSession t conn _ _ => okTime t && decide (conn < 2)
  | .vendorDefinedRequest t conn _ _ _ _ => okTime t && decide (conn < 2)
  | .park t _ => okTime t
  | .standby t _ => okTime t
  | .opLimit t _ => okTime t
  | .sheetDoze t sheet => okTime t && decide (sheet < 8)
  | .sheetWakeDone t sheet _ => okTime t && decide (sheet < 8)
  | .railSettled t => okTime t
  | .railSettleTimeout t _ => okTime t
  | .powerSample t _ => okTime t
  | .extest t => okTime t
  | .samplePreload t => okTime t
  | .idcode t => okTime t
  | .clamp t => okTime t
  | .highz t => okTime t
  | .dbgAccess t => okTime t
  | .bypass t => okTime t
  | .dbgRead t _ _ => okTime t
  | .dbgWrite t _ _ _ => okTime t
  | .readInc t _ => okTime t
  | .writeInc t _ _ => okTime t
  | .halt t => okTime t
  | .resume t => okTime t
  | .stepTick t => okTime t
  | .hold t port p => okTime t && decide (port < 16) && p.wf
  | .release t port p => okTime t && decide (port < 16) && p.wf
  | .holdStep t port p => okTime t && decide (port < 16) && p.wf
  | .holdTick t => okTime t
  | .breakpointTime t => okTime t
  | .resetLevel1 t box c => okTime t && decide (box < 4096) && c.wf 97
  | .resetLevel2 t box c => okTime t && decide (box < 4096) && c.wf 97
  | .resetLevel3 t box c => okTime t && decide (box < 4096) && c.wf 97
  | .resetLevel4 t box c => okTime t && decide (box < 4096) && c.wf 97
  | .resetLevel5 t box c => okTime t && decide (box < 4096) && c.wf 97
  | .rstCtlGo t _ => okTime t
  | .nodeReset t _ => okTime t
  | .fatalError t source sheet link =>
    okTime t && decide (1 ≤ source) && decide (source ≤ 5) && decide (sheet < 8) && decide (link < 3)
  | .fatalResetDelay t => okTime t
  | .sheetHang t sheet => okTime t && decide (sheet < 8)
  | .hubWatchdog t => okTime t
  | .resetEscalation t => okTime t
  | .warmRestartDone t _ => okTime t
  | .abortSend t => okTime t
  | .abort t port p => okTime t && decide (port < 16) && p.wf
  | .abortWindowEnd t => okTime t
  | .releaseAll t => okTime t
  | .releaseOne t => okTime t
  | .eyeMonitorSample t port lane _ _ => okTime t && decide (port < 16) && decide (lane < 8)
  | .ucieMarginSample t ucie lane _ => okTime t && decide (ucie < 4) && decide (lane < 8)
  | .guardBandSample t quad _ => okTime t && decide (quad < 32)
  | .surveyRecord t => okTime t
  | .bucketRefill t => okTime t
  | .alarmFrame t port p => okTime t && decide (port < 16) && p.wf
  | .alertClear t => okTime t
  | .ringReadAdvance t _ => okTime t
  | .katDue t core => okTime t && decide (core < 800)
  | .katComplete t core _ => okTime t && decide (core < 800)
  | .histogramFlush t => okTime t
  | .flush t => okTime t
  | .surveyRead t box c => okTime t && decide (box < 4096) && c.wf 96
  | .surveyReadDone t => okTime t
  | .getTid t => okTime t
  | .getPldmVersion t _ => okTime t
  | .getPldmTypes t => okTime t
  | .getPldmCommands t _ => okTime t
  | .getPdr t _ => okTime t
  | .getSensorReading t _ => okTime t
  | .getStateSensorReadings t _ => okTime t
  | .setEventReceiver t _ => okTime t
  | .setNumericEffecterValue t _ _ => okTime t
  | .setStateEffecterStates t _ _ => okTime t
  | .powerGoodRise t => okTime t
  | .firmwareVerified t _ _ => okTime t
  | .unsealDone t _ _ _ _ => okTime t
  | .sheetPowerUp t _ sheet _ _ => okTime t && decide (sheet < 8)
  | .hbmTrained t _ => okTime t
  | .hbmInitDone t _ _ => okTime t
  | .systemLayoutDone t _ => okTime t
  | .readyTimeout t => okTime t
  | .powerOff t => okTime t
  | .thermtrip t _ _ => okTime t
  | .coreFence t core => okTime t && decide (core < 800)
  | .unfence t core => okTime t && decide (core < 800)
  | .coreClearCnt t core => okTime t && decide (core < 800)
  | .soClearCnt t sheet => okTime t && decide (sheet < 8)
  | .demoteAll t sheet => okTime t && decide (sheet < 8)
  | .xlClearCnt t sheet => okTime t && decide (sheet < 8)
  | .flushRc t sheet => okTime t && decide (sheet < 8)
  | .migClearCnt t quad => okTime t && decide (quad < 32)
  | .pause t quad _ => okTime t && decide (quad < 32)
  | .hbmClearCnt t quad => okTime t && decide (quad < 32)
  | .patrolNow t quad => okTime t && decide (quad < 32)
  | .nmeClearCnt t quad => okTime t && decide (quad < 32)
  | .gzClearCnt t sheet => okTime t && decide (sheet < 8)
  | .portClearCnt t port => okTime t && decide (port < 16)
  | .retrain t port => okTime t && decide (port < 16)
  | .rekey t port => okTime t && decide (port < 16)
  | .crClearCnt t sheet => okTime t && decide (sheet < 8)
  | .poolClearCnt t => okTime t
  | .svyClearCnt t => okTime t
  | .keyExchangeRetry t port _ => okTime t && decide (port < 16)
  | .delayRequestSend t port => okTime t && decide (port < 16)
  | .thermtripRelease t => okTime t
  | .lowerTreeGenerated t => okTime t
  | .corePathScrubDone t _ => okTime t
  | .lowHalfRead t _ => okTime t

end Sys2Proof
end

