-- ==== Sys2Proof/Tests/Slice0.lean ====
section
/-!
SUPPORT. The model's own tests: terms the well-formedness checks refuse, values of the spec's worked examples, single steps
on a small state, and one concrete state for every set of hypotheses the statements make.
-/

namespace Sys2Proof.Tests

open Sys2Proof Sys2Proof.Machine

-- One theorem at a time: many kernel evaluations waiting at once would each hold a thread's stack.
set_option Elab.async false

/-! ## Well-formedness: one ill-formed term for each check -/

def goodPacket : Packet := ⟨1, 2, 3, 1, 0, 0, 0, false, []⟩
def goodFrame : RxFrame := ⟨true, [], List.replicate 40 0⟩
def goodCmd : HostCmd := ⟨List.replicate 64 0, []⟩
def goodTime : TimeMsg := ⟨0, 0, 0, 0, 0, 0, 0, 0, 0⟩

theorem test_wf_good :
    Instr.wf (.attend 0 15 goodPacket) = true ∧ Instr.wf (.frameReceived 0 0 goodFrame) = true ∧
    Instr.wf (.nop 0 4095 goodCmd) = true ∧ Instr.wf (.timeExchange 0 0 goodTime) = true := by decide +kernel

theorem test_wf_units :
    Instr.wf (.mergeCutoff (2 ^ 64)) = false ∧ Instr.wf (.attend 0 16 goodPacket) = false ∧
    Instr.wf (.nop 0 4096 goodCmd) = false ∧ Instr.wf (.runAheadFetch 0 8) = false ∧
    Instr.wf (.patrolStart 0 32) = false ∧ Instr.wf (.passStart 0 800) = false ∧
    Instr.wf (.contextFetched 0 1048576) = false ∧ Instr.wf (.getVersion 0 2) = false ∧
    Instr.wf (.laneFault 0 0 ⟨8, true, 0, 0, 0⟩) = false ∧ Instr.wf (.ucieModuleDown 0 4 0) = false := by decide +kernel

theorem test_wf_command :
    Instr.wf (.nop 0 0 ⟨List.replicate 63 0, []⟩) = false ∧ Instr.wf (.seqOpen 0 0 goodCmd) = false := by decide +kernel

theorem test_wf_packet :
    Packet.wf { goodPacket with dst := 2 ^ 32 } = false ∧ Packet.wf { goodPacket with src := 2 ^ 32 } = false ∧
    Packet.wf { goodPacket with deadline := 2 ^ 64 } = false ∧ Packet.wf { goodPacket with ptype := 256 } = false ∧
    Packet.wf { goodPacket with cls := 4 } = false ∧ Packet.wf { goodPacket with entropy := 65536 } = false ∧
    Packet.wf { goodPacket with hops := 256 } = false ∧
    Packet.wf { goodPacket with payload := List.replicate 9217 0 } = false := by decide +kernel

theorem test_wf_frame :
    RxFrame.wf { goodFrame with bytes := List.replicate 39 0 } = false ∧
    RxFrame.wf { goodFrame with bytes := List.replicate 9293 0 } = false := by decide +kernel

theorem test_wf_time :
    TimeMsg.wf { goodTime with sentHere := 2 ^ 80 } = false ∧ TimeMsg.wf { goodTime with recvThere := 2 ^ 80 } = false ∧
    TimeMsg.wf { goodTime with sentThere := 2 ^ 80 } = false ∧ TimeMsg.wf { goodTime with recvHere := 2 ^ 80 } = false ∧
    TimeMsg.wf { goodTime with origin := 2 ^ 64 } = false ∧ TimeMsg.wf { goodTime with epoch := 65536 } = false ∧
    TimeMsg.wf { goodTime with deadline := 2 ^ 64 } = false := by decide +kernel

/-! ## The spec's own values -/

/-- R105 names three entries of the table. -/
theorem test_exp_table : expTable 0 = 0x3F800000 ∧ expTable 1 = 0x3F80B1ED ∧ expTable 64 = 0x3FB504F3 := by decide +kernel

/-- R105's first four lines and its two limits: NaN, both zeros, both infinities, 2^7 and -2^7 (t beyond ±127). -/
theorem test_exp_limits :
    expVx 0x7F800001 = 0x7FC00000 ∧ expVx 0x80000000 = 0x3F800000 ∧ expVx 0xFF800000 = 0 ∧ expVx 0x7F800000 = 0x7F800000 ∧
    expVx 0x43000000 = 0x7F800000 ∧ expVx 0xC3000000 = 0 := by decide +kernel

/-- The worked example exp_vx(-1.0) of chapter 4: 0.36787944 lies between 0x3EBC5AAF and 0x3EBC5AB4. -/
theorem test_exp_minus_one :
    numLt (decF32 0x3EBC5AAF) (decF32 (expVx 0xBF800000)) = true ∧
    numLt (decF32 (expVx 0xBF800000)) (decF32 0x3EBC5AB4) = true := by decide +kernel

/-- The worked example of chapter 6: the K block folds to the scale byte 0x7E and 16 bytes 0xFC. -/
theorem test_fold_block :
    foldBlock ((decElem .bf16 0x4000) :: (decElem .bf16 0xBF40) :: List.replicate 30 (decElem .bf16 0))
      ([0xCC, 0xC9, 0xC6, 0xC2, 0xBE, 0xBA, 0xB4, 0xA8, 0x00, 0x30, 0x38, 0x3E, 0x42, 0x46, 0x49, 0x4C].map (decElem .e4m3)) =
    (0x7E, (List.replicate 16 [12, 15]).flatten) := by decide +kernel

/-- R398's IDCODE word of the part in reset. -/
theorem test_idcode : bits State.reset.node.idcodeOf 12 16 = 0x8032 ∧ bits State.reset.node.idcodeOf 0 12 = 0x5C7 := by
  decide +kernel

/-- R44: tick 3 is past at tick 5, tick 2^48 - 1 is past at tick 0, and one more than 2^47 ahead is past. -/
theorem test_ticks : tickDiff 3 5 = -2 ∧ tickDiff (2 ^ 48 - 1) 0 = -1 ∧ tickDiff (2 ^ 47 + 1) 0 = -(2 ^ 47 - 1) := by
  decide +kernel

/-- R217: a burst's codeword with one symbol in error reads corrected, with two in error it does not read; the tag byte
names the burst, so a codeword read at another burst fails. -/
theorem test_ecc :
    let data := (upTo 32).map fun i => i * 7 % 256
    let w := eccWord data (tagByte 5 96 false)
    eccOutcome (withErrors w [⟨32, 0x41⟩]) (tagByte 5 96 false) = .corrected 32 data ∧
    eccOutcome (withErrors w [⟨0, 1⟩, ⟨9, 2⟩]) (tagByte 5 96 false) = .failed false ∧
    eccOutcome w (tagByte 5 128 false) = .failed true ∧ eccOutcome w (tagByte 5 96 false) = .sound := by decide +kernel

/-- The rules of the worked example of chapter 10: indexes 15, 31 and 47 upward free. -/
def ruleSet : Map Rule :=
  ((upTo 47).filter fun i => i != 15 && i != 31).map fun i => (i, ⟨i, 2 ^ 49 - 1, if i < 37 then 200 else 150, 0, 0⟩)

/-- The worked example of chapter 10: the rule lands at 36 after 5 moves, and the respread then frees index 31 in 16 moves. -/
theorem test_rule_example :
    (match insertRule ruleSet ⟨100, 2 ^ 49 - 1, 200, 0, 0⟩ with
      | some (m, i, moves) =>
        let r := freeStride 16 m 1
        i == 36 && moves == 5 && !strideFree 16 m && r.2 == 16 && (mapFind? r.1 31).isNone && (mapFind? r.1 47).isNone &&
          strideFree 16 r.1
      | none => false) = true := by decide +kernel

/-- AES-256-GCM of an empty message under a zero key and nonce: the tag of the first 256-bit case of the GCM submission. -/
theorem test_gcm :
    gcmSeal (List.replicate 32 0) (List.replicate 12 0) [] [] =
      [0x53, 0x0f, 0x8a, 0xfb, 0xc7, 0x45, 0x36, 0xb9, 0xa9, 0x63, 0xb4, 0xf1, 0xc4, 0xcb, 0x73, 0x8b] := by decide +kernel

/-! ## Small states -/

/-- A node that runs firmware, with the host's link up, box 0 enabled for partition 0, port 0 UP, ticks of 500 ns. -/
def fix : Node :=
  let n : Node := default
  let n : Node :=
    { n with
      pins := { n.pins with pwrGood := true }
      boot := { n.boot with done := 255 }
      time := { n.time with period := 500, everLocked := true }
      parts := [(0, { (default : PartSt) with st := .active })]
      ports := [(0, { (default : PortSt) with st := .up })]
      host := { n.host with link := true, boxes := [(0, { (default : BoxSt) with st := .enabled })] } }
  (n.wr R.PB_CFG_CPL_LOG2 (boxBase 0) 4).wr R.PB_CMD_BASE_BASE (boxBase 0) (2 ^ 63)

/-- The fixture with a change, nothing waiting. -/
def fixS (f : Node → Node) : State := ⟨f fix, []⟩

theorem boxes_of {n : Node} (h : ∀ p ∈ n.host.boxes, p.2.posted = [] ∧ p.2.fence = none) (b : Nat) :
    (n.box b).posted = [] ∧ (n.box b).fence = none := by
  unfold Node.box mapGet mapGetD
  generalize n.host.boxes = m at h
  induction m with
  | nil => exact ⟨rfl, rfl⟩
  | cons p m ih =>
    unfold mapFind?
    split
    · exact h p (by simp)
    · exact ih fun q hq => h q (by simp [hq])

theorem fix_quiet : fix.Quiet := by
  refine ⟨rfl, rfl, rfl, boxes_of ?_, rfl, rfl, rfl, rfl, by decide +kernel, rfl⟩
  intro p hp
  have : p = (0, { (default : BoxSt) with st := .enabled }) := by
    simpa using (show p ∈ [(0, { (default : BoxSt) with st := .enabled })] from hp)
  subst this
  exact ⟨rfl, rfl⟩

theorem quiet_change {n : Node} (h : n.Quiet) (f : Node → Node) (h1 : (f n).loop = n.loop)
    (h2 : (f n).courier.inbox = n.courier.inbox) (h3 : (f n).courier.done = n.courier.done)
    (h4 : (f n).host.boxes = n.host.boxes) (h5 : (f n).err = n.err) (h6 : (f n).survey.flushUntil = n.survey.flushUntil)
    (h7 : (f n).milestonesSet = true) (h8 : (f n).office = n.office) : (f n).Quiet where
  loop := h1.trans h.loop
  inbox := h2.trans h.inbox
  done := h3.trans h.done
  boxes b := by unfold Node.box; rw [h4]; exact h.boxes b
  level1 := by rw [h5]; exact h.level1
  level2 := by rw [h5]; exact h.level2
  level3 := by rw [h5]; exact h.level3
  reads := by unfold Node.unread; rw [h8]; exact h.reads
  flush := h6.trans h.flush
  milestones := h7

/-! ## Single steps -/

/-- R56: the low half of MER_NOW at time 2^32 + 5 reads 5 and latches 1. -/
theorem test_low_half :
    (match exec (.lowHalfRead (2 ^ 32 + 5) 0x10100) (fixS id) with
      | .next s => s.node.host.regData == 5 && s.node.time.latch == 1
      | _ => false) = true := by decide +kernel

/-- R4: sheet 2 of a VXA-2008 answers with Unsupported Request, sheet 1 does not. -/
theorem test_absent_sheet :
    (match exec (.soClearCnt 0 2) (fixS fun n => { n with ident := { n.ident with part := .vxa2008 } }) with
      | .next s => s.node.host.ur == 1 && s.node.waits == []
      | _ => false) = true ∧
    (match exec (.soClearCnt 0 1) (fixS fun n => { n with ident := { n.ident with part := .vxa2008 } }) with
      | .next s => s.node.host.ur == 0 && s.node.waits == [.soClear 1]
      | _ => false) = true := by decide +kernel

/-- R307: a NOP posted in an idle box completes: HEAD and DONE reach 1 and nothing is in flight. -/
theorem test_nop_completes :
    (match exec (.nop 0 0 ⟨[0, 1], []⟩) (fixS id) with
      | .next s => (s.node.box 0).head == 1 && (s.node.box 0).done == 1 && (s.node.box 0).inflight == 0
      | _ => false) = true := by decide +kernel

/-- R476: a stack at 105 °C trips, a quad at 114 °C does not. -/
theorem test_thermtrip :
    (match exec (.thermtrip 0 64 105) (fixS id) with | .next s => s.node.pins.tripHeld == some (64, 105) | _ => false) = true ∧
    (match exec (.thermtrip 0 5 114) (fixS id) with | .next s => s.node.pins.thermLow == false | _ => false) = true := by
  decide +kernel

/-- An event at a port that no part has stops by name; the same event at a port it has does not. -/
theorem test_absent_port :
    (match exec (.portTrained 0 16 1 1 true) (fixS id) with | .fault .absentUnit => true | _ => false) = true ∧
    (match exec (.portTrained 0 15 1 1 true) (fixS id) with | .next _ => true | _ => false) = true := by decide +kernel

/-- A step takes the front command and leaves the rest; an empty queue idles. -/
theorem test_queue :
    (match step ⟨fix, [.idcode 0, .bypass 1]⟩ with | .next s => s.pending == [.bypass 1] | _ => false) = true ∧
    (match step ⟨fix, []⟩ with | .next s => s.pending == [] | _ => false) = true := by decide +kernel

/-! ## Witnesses: a state that meets each set of hypotheses the statements make -/

theorem witness_off : (default : Node).Off ∧ (default : Node).pins.thermLow = false ∧ (default : Node).pins.resetLow = false := by
  refine ⟨⟨rfl, rfl, rfl, rfl, ⟨rfl, rfl, rfl⟩, ⟨rfl, rfl, rfl, boxes_of (by intro p hp; cases hp), rfl, rfl, rfl, rfl, rfl, rfl⟩⟩,
    rfl, rfl⟩

theorem witness_fits : State.Fits ⟨fix, [.idcode 0, .passStart 0 799, .attend 0 15 goodPacket, .pin 0 4095 goodCmd]⟩ := by
  intro c hc
  simp only [List.mem_cons, List.not_mem_nil, or_false] at hc
  rcases hc with rfl | rfl | rfl | rfl <;> decide +kernel

theorem witness_absent_unit :
    commandFits fix (.passStart 0 800) = false ∧ commandFits fix (.passStart 0 799) = true := by decide +kernel

/-- Most statements: a quiet node that runs firmware, reached by its host, with the unit named present. -/
theorem witness_reached :
    fix.Quiet ∧ fix.awake = true ∧ fix.hostReach = true ∧ fix.hasSheet 7 = true ∧ fix.hasQuad 31 = true ∧
    fix.hasCore 799 = true ∧ fix.hasPort 15 = true ∧ hasBox 4095 = true ∧ fix.pins.pwrGood = true ∧
    fix.pins.resetLow = false ∧ fix.pins.thermLow = false ∧ fix.follows = false ∧ max fix.time.now 7 < 2 ^ 64 :=
  ⟨fix_quiet, by decide +kernel⟩

theorem witness_port_hands : fix.hasPort 0 = true ∧ fix.portHands 0 = true := by decide +kernel

theorem witness_spdm : fix.Quiet ∧ fix.spdmLink 1 = true ∧ fix.spdmReady = true := ⟨fix_quiet, by decide +kernel⟩

theorem witness_core_normal : fix.awake = true ∧ fix.hasCore 3 = true ∧ (fix.core 3).mode = .normal := by decide +kernel

theorem witness_ide :
    ({ fix with host := { fix.host with ide := true } } : Node).awake = true ∧
    ({ fix with host := { fix.host with ide := true } } : Node).host.ide = true := by decide +kernel

/-- TICK_BOUNDARY: ticks run, no restart, no bar, and none begins in action 1. -/
theorem witness_tick :
    fix.ticking = true ∧ fix.awake = true ∧ fix.err.warmAt = none ∧ fix.barred fix.nextTick.1 = false ∧
    ((fix.at fix.nextTick.2).action1 fix.nextTick.1).err.warmAt = none ∧
    ((fix.at fix.nextTick.2).action1 fix.nextTick.1).pins.pwrcycLow = false ∧
    ((fix.at fix.nextTick.2).action1 fix.nextTick.1).action2.barred
      ((fix.at fix.nextTick.2).action1 fix.nextTick.1).action2.time.tick = false := by decide +kernel

theorem witness_period : 0 < fix.time.period ∧ fix.time.origin ≤ 1000 ∧ 1000 < 2 ^ 64 := by decide +kernel

theorem witness_memory : Memory.wf [(5, 1), (6, 0xFF)] = true ∧ poisonWf [0, 3] := by
  refine ⟨by decide +kernel, ?_⟩
  simp [poisonWf]

theorem witness_first_fit :
    [((0 : Nat), (⟨4, .frame, 0, 0⟩ : GRun)), (8, ⟨1, .system, 0, 0⟩)].Pairwise (fun a b => a.1 + a.2.len ≤ b.1) ∧
    (∀ r ∈ [((0 : Nat), (⟨4, .frame, 0, 0⟩ : GRun)), (8, ⟨1, .system, 0, 0⟩)], 0 < r.2.len ∧ r.1 + r.2.len ≤ reservedGran) ∧
    firstFit 3 0 [((0 : Nat), (⟨4, .frame, 0, 0⟩ : GRun)), (8, ⟨1, .system, 0, 0⟩)] = some 4 ∧
    firstFit reservedGran 0 [((0 : Nat), (⟨4, .frame, 0, 0⟩ : GRun)), (8, ⟨1, .system, 0, 0⟩)] = none := by decide +kernel

theorem witness_hole : hdmHole (reservedGran * 4096 / 64 * 64) = true := by decide +kernel

theorem witness_absent_address :
    ({ fix with ident := { fix.ident with part := .vxa2008 } } : Node).absentAddr 0x1400000 = true ∧
    ({ fix with ident := { fix.ident with part := .vxa2008 } } : Node).hostReach = true := by decide +kernel

theorem witness_absent_quiet : ({ fix with ident := { fix.ident with part := .vxa2008 } } : Node).Quiet :=
  quiet_change fix_quiet (fun n => { n with ident := { n.ident with part := .vxa2008 } }) rfl rfl rfl rfl rfl rfl
    (by decide +kernel) rfl

theorem witness_doorbell :
    (fix.box 0).st = .enabled ∧
    2 ^ fix.rd R.PB_CFG_CMD_LOG2 (boxBase 0) < (2 ^ 31 + 2 ^ 32 - (fix.box 0).head) % 2 ^ 32 := by decide +kernel

/-- HOLDOVER without a source, lost at an estimate of 30 ns against the limit of 40 ns: past it after 2 s and not after half
a second. `fix` itself is FREE. -/
def holdFix : Node := { fix with time := { fix.time with st := .holdover, source := false, lockedErr := 30, growAt := 0 } }

theorem witness_holdover :
    holdFix.Quiet ∧ holdFix.awake = true ∧
    (holdFix.time.st = .holdover ∧ holdFix.time.source = false ∧
      holdFix.holdLimit < holdFix.time.lockedErr + (max holdFix.time.now 2000000000 - holdFix.time.growAt) / 100000000) ∧
    ¬ holdFix.holdLimit < holdFix.time.lockedErr + (max holdFix.time.now 500000000 - holdFix.time.growAt) / 100000000 ∧
    fix.time.st ≠ .holdover :=
  ⟨quiet_change fix_quiet
    (fun n => { n with time := { n.time with st := .holdover, source := false, lockedErr := 30, growAt := 0 } })
    rfl rfl rfl rfl rfl rfl (by decide +kernel) rfl, by decide +kernel⟩

theorem witness_reset_core :
    ({ fix with cores := [(3, { (default : CoreSt) with mode := .resetting })] } : Node).Quiet ∧
    (({ fix with cores := [(3, { (default : CoreSt) with mode := .resetting })] } : Node).core 3).mode = .resetting ∧
    (({ fix with cores := [(3, { (default : CoreSt) with mode := .resetting })] } : Node).core 3).resetAt + 10000 ≤ max 0 10000 :=
  ⟨quiet_change fix_quiet (fun n => { n with cores := [(3, { (default : CoreSt) with mode := .resetting })] })
    rfl rfl rfl rfl rfl rfl (by decide +kernel) rfl, by decide +kernel⟩

def tokenFix (notAfter : Nat) : Node :=
  { fix with sec := { fix.sec with token := some ⟨1, 0, 0, notAfter, 0, 0⟩, level := 1 } }

/-- A token whose end lies after the boundary of the tick in force, and one whose end that boundary has reached. -/
theorem witness_token :
    (tokenFix 10).Quiet ∧ (tokenFix 0).Quiet ∧ (tokenFix 10).awake = true ∧ (tokenFix 0).awake = true ∧
    ((tokenFix 10).at 9).tickStart < 10 ∧ 0 ≤ ((tokenFix 0).at 9).tickStart :=
  ⟨quiet_change fix_quiet (fun n => { n with sec := { n.sec with token := some ⟨1, 0, 0, 10, 0, 0⟩, level := 1 } })
    rfl rfl rfl rfl rfl rfl (by decide +kernel) rfl,
   quiet_change fix_quiet (fun n => { n with sec := { n.sec with token := some ⟨1, 0, 0, 0, 0, 0⟩, level := 1 } })
    rfl rfl rfl rfl rfl rfl (by decide +kernel) rfl, by decide +kernel⟩

theorem witness_bad_rule : (fix.wr R.GZ_RULE_CMD_ACTION (sheetBase 0) 3).Quiet ∧
    (fix.wr R.GZ_RULE_CMD_ACTION (sheetBase 0) 3).hostReach = true ∧
    ((fix.wr R.GZ_RULE_CMD_ACTION (sheetBase 0) 3).cmdRule 0).bad = true ∧
    ((fix.wr R.GZ_RULE_CMD_ACTION (sheetBase 0) 3).at 5).ruleBusy 0 = false :=
  ⟨quiet_change fix_quiet (fun n => n.wr R.GZ_RULE_CMD_ACTION (sheetBase 0) 3) rfl rfl rfl rfl rfl rfl (by decide +kernel) rfl,
    by decide +kernel⟩

theorem witness_lease : (fix.ext 17).st ≠ .granted := by decide +kernel

/-- A lease that runs past the boundary of the tick in force. -/
theorem witness_lease_runs :
    ({ fix with pool := { fix.pool with exts := [(17, { (default : ExtSt) with st := .granted, expiry := 9 })] } } : Node).Quiet ∧
    (({ fix with pool := { fix.pool with exts := [(17, { (default : ExtSt) with st := .granted, expiry := 9 })] } } : Node).at 8
      ).tickStart <
    (({ fix with pool := { fix.pool with exts := [(17, { (default : ExtSt) with st := .granted, expiry := 9 })] } } : Node).ext
      17).expiry :=
  ⟨quiet_change fix_quiet
    (fun n => { n with pool := { n.pool with exts := [(17, { (default : ExtSt) with st := .granted, expiry := 9 })] } })
    rfl rfl rfl rfl rfl rfl (by decide +kernel) rfl, by decide +kernel⟩

theorem witness_expired_packet :
    goodPacket.deadline ≤ (fix.traceRec 2 (.port 0 0) none).now + (fix.traceRec 2 (.port 0 0) none).guardNow := by
  decide +kernel

/-- A partial that is neither NaN nor infinite nor the identity, and one that is NaN. -/
theorem witness_partial :
    isNaN (0x3F800000 : F32) = false ∧ (0x3F800000 : F32) ≠ f32PosInf ∧ (0x3F800000 : F32) ≠ f32NegInf ∧
    isNaN (0x7FC00000 : F32) = true := by decide +kernel

theorem fix_idle : fix.BoxIdle 0 :=
  ⟨by decide +kernel, by decide +kernel, by decide +kernel, by decide +kernel, by decide +kernel, by decide +kernel,
    by decide +kernel⟩

/-- A command that waits for its boundary (SEQ_CLOSE) and one that runs at once (NOP), both accepted by an idle box. -/
theorem witness_commands :
    fix.hostReach = true ∧ hasBox 0 = true ∧ State.Accepts (fixS id) 0 (withOp 0x11 ⟨[0, 1], []⟩) ∧
    fix.tickPast (posted (withOp 0x11 ⟨[0, 1], []⟩)).bytes = false ∧
    State.Accepts (fixS id) 0 (withOp 0x00 ⟨[0, 1], []⟩) :=
  ⟨by decide +kernel, by decide +kernel, ⟨fix_idle, by decide +kernel, by decide +kernel⟩, by decide +kernel,
    ⟨fix_idle, by decide +kernel, by decide +kernel⟩⟩

/-! ### Every host command has bytes that pass the checks at fetch -/

/-- A command of 64 bytes: its opcode, VERSION 1, the bytes named, zeros. -/
def cmdWith (op : Nat) (l : List (Nat × Nat)) : HostCmd :=
  withOp op (l.foldl (fun c b => withByte b.1 b.2 c) ⟨0 :: 1 :: List.replicate 62 0, []⟩)

/-- Box 0 owned by partition 0, which owns quad 0, or by the node. -/
def boxFix (node : Bool) : Node :=
  ({ fix with parts := [(0, { (default : PartSt) with st := .active, quads := 1 })] } : Node).wr R.PB_CFG_OWNER (boxBase 0)
    (if node then 32 else 0)

/-- Does the box take the command: no check fails, no FENCE, no named tick past? -/
def goodFetch (node : Bool) (c : HostCmd) : Bool :=
  (boxFix node).fetchCheck 0 (posted c).bytes == none && !cmdFence (posted c).bytes && !(boxFix node).tickPast (posted c).bytes

theorem boxFix_idle : (boxFix false).BoxIdle 0 ∧ (boxFix true).BoxIdle 0 :=
  ⟨⟨by decide +kernel, by decide +kernel, by decide +kernel, by decide +kernel, by decide +kernel, by decide +kernel,
    by decide +kernel⟩,
   ⟨by decide +kernel, by decide +kernel, by decide +kernel, by decide +kernel, by decide +kernel, by decide +kernel,
    by decide +kernel⟩⟩

/-- The commands on sequences, pages, keys and extents. -/
theorem witness_boundary_commands :
    (([0x12, 0x13, 0x18, 0x19, 0x16].map fun op => cmdWith op [(0x20, 1)]) ++
      [cmdWith 0x10 [], cmdWith 0x11 [], cmdWith 0x17 [(0x1F, 1), (0x20, 1)], cmdWith 0x17 [(0x1F, 2), (0x20, 1)],
       cmdWith 0x17 [(0x1F, 3)], cmdWith 0x20 [], cmdWith 0x21 [], cmdWith 0x22 [(0x21, 0x10)], cmdWith 0x24 []]).all
      (goodFetch false) = true ∧
    [cmdWith 0x51 [], cmdWith 0x52 [], cmdWith 0x53 []].all (goodFetch true) = true := by decide +kernel

/-- The commands that run at once. -/
theorem witness_immediate_commands :
    [cmdWith 0x40 [(0x20, 64)], cmdWith 0x41 [(0x19, 16), (0x20, 64)], cmdWith 0x42 [(0x20, 64)],
     cmdWith 0x43 [(0x20, 64), (0x28, 1)], cmdWith 0x30 [(0x13, 6)], cmdWith 0x31 [(0x1A, 16)], cmdWith 0x32 [], cmdWith 0x33 [],
     cmdWith 0x34 [(0x14, 8)], cmdWith 0x35 [(0x14, 8)], cmdWith 0x36 [(0x14, 8)], cmdWith 0x37 [(0x14, 8)],
     cmdWith 0x38 [(0x14, 8)], cmdWith 0x39 [], cmdWith 0x00 [], cmdWith 0x14 [(0x18, 128)], cmdWith 0x15 [(0x18, 128)],
     cmdWith 0x23 []].all (goodFetch false) = true ∧
    [cmdWith 0x50 [], cmdWith 0x60 [], withLevel 1 (cmdWith 0x61 [(0x10, 0x10)]), withLevel 2 (cmdWith 0x61 []),
     withLevel 3 (cmdWith 0x61 []), withLevel 4 (cmdWith 0x61 []), withLevel 5 (cmdWith 0x61 [])].all (goodFetch true) = true := by
  decide +kernel

/-- Die-to-die links: the hub's of every sheet, both row neighbours of sheet 1, none below sheet 0; every FATAL source. -/
theorem witness_links :
    fix.hasLink 0 0 = true ∧ fix.hasLink 1 1 = true ∧ fix.hasLink 1 2 = true ∧ fix.hasLink 0 1 = false ∧
    fix.hasLink 3 2 = false ∧ fix.fatalUnit 1 1 2 = true ∧ fix.fatalUnit 2 7 0 = true ∧ fix.fatalUnit 5 0 0 = true := by
  decide +kernel

end Sys2Proof.Tests
end

/-!
PROOFS of the scope family: what was built stays and the queue is only taken from (O4, O5, O6), what an Unsupported Request
leaves behind (O29), and the reset state (O9).
-/

namespace Sys2Proof.Machine

/-! ## The outcome of a command (R1, R4, R13; log entry 4) -/

/-- A command that fits changes the node and leaves the queue; any other stops. -/
theorem exec_eq (c : Instr) (s : State) :
    ∃ f : Node → Node, exec c s =
      if commandFits s.node c then .next { s with node := s.node.change f } else .fault .absentUnit := by
  obtain ⟨f, hf⟩ := exec_shape c s.node
  exact ⟨f, (hf s.pending).trans (State.onUnit_eq ..)⟩

theorem exec_of_fits {c : Instr} {s : State} (h : commandFits s.node c = true) :
    ∃ f : Node → Node, exec c s = .next { s with node := s.node.change f } := by
  obtain ⟨f, hf⟩ := exec_eq c s
  exact ⟨f, by rw [hf, if_pos h]⟩

theorem exec_of_not_fits {c : Instr} {s : State} (h : commandFits s.node c = false) :
    exec c s = .fault .absentUnit := by
  obtain ⟨f, hf⟩ := exec_eq c s
  rw [hf, h, if_neg Bool.false_ne_true]

theorem exec_next {c : Instr} {s s' : State} (h : exec c s = .next s') :
    ∃ f : Node → Node, s' = { s with node := s.node.change f } := by
  obtain ⟨f, hf⟩ := exec_shape c s.node
  exact ⟨f, (State.onUnit_next ((hf s.pending).symm.trans h)).2⟩

/-- Settles O4: whatever a command does to the node, `Node.change` puts the identity back. -/
theorem execKeepsThePackage : Obligations.ExecKeepsThePackage := by
  intro c s s' h
  obtain ⟨f, rfl⟩ := exec_next h
  exact ⟨Node.change_ident s.node f, rfl⟩

/-- Settles O5. -/
theorem stopsExactlyOnAbsentUnits : Obligations.StopsExactlyOnAbsentUnits := by
  intro c s
  refine ⟨fun h => ?_, exec_of_not_fits⟩
  obtain ⟨f, hf⟩ := exec_of_fits h
  exact ⟨s.node.change f, hf⟩

/-! ## Fitting commands along a run (log entry 2: a step on an empty queue idles) -/

/-- Which commands fit depends on the package, so a queue goes on fitting while the package stays and the queue only
shrinks. -/
theorem State.Fits.mono {s s' : State} (h : s.Fits) (hi : s'.node.ident = s.node.ident) (hp : s'.pending ⊆ s.pending) :
    s'.Fits := fun c hc => (commandFits_ident hi c).trans (h c (hp hc))

/-- The step lemma of the invariant. -/
theorem State.Fits.step {s : State} (h : s.Fits) :
    ∃ s' : State, Machine.step s = .next s' ∧ s'.Fits ∧ s'.node.ident = s.node.ident ∧ s'.pending = s.pending.drop 1 := by
  obtain ⟨n, q⟩ := s
  cases q with
  | nil => exact ⟨⟨n, []⟩, rfl, h, rfl, rfl⟩
  | cons c rest =>
    obtain ⟨f, hf⟩ := exec_of_fits (s := ⟨n, rest⟩) (h c List.mem_cons_self)
    exact ⟨⟨n.change f, rest⟩, hf, h.mono rfl (List.subset_cons_self c rest), rfl, rfl⟩

theorem core_run_succ {k : Nat} {s s' : State} (h : step s = .next s') :
    Sys2Proof.core.run (k + 1) s = Sys2Proof.core.run k s' := by
  have h' : Sys2Proof.core.step s = .next s' := h
  simp only [Host.Core.run, h']

/-- Settles O6, by induction on the length of the run. -/
theorem fittingQueueNeverStops : Obligations.FittingQueueNeverStops := by
  intro k
  induction k with
  | zero => exact fun s h => ⟨s, rfl, h, rfl, rfl⟩
  | succ k ih =>
    intro s h
    obtain ⟨s₁, hstep, hfits, hident, hpending⟩ := h.step
    obtain ⟨s', hrun, hfits', hident', hpending'⟩ := ih s₁ hfits
    refine ⟨s', (core_run_succ hstep).trans hrun, hfits', hident'.trans hident, ?_⟩
    rw [hpending', hpending, List.drop_drop, Nat.add_comm]

/-! ## Register fields -/

/-- Unlike `mapGetD_set_other`, for a reader whose default is not the writer's. -/
theorem mapFind?_set_other {α : Type} [DecidableEq α] {d : α} {m : Map α} {j k : Nat} {v : α} (h : j ≠ k) :
    mapFind? (mapSetD d m k v) j = mapFind? m j := by
  unfold mapSetD
  split
  · exact mapFind?_erase_other h
  · exact mapFind?_insert_other v h

theorem Node.rd_wr_same (n : Node) (f : Fld) (b v : Nat) : (n.wr f b v).rd f b = v % 2 ^ f.width :=
  mapGetD_set_same ..

theorem Node.rd_wr_other {n : Node} {f g : Fld} {b c v : Nat} (h : f.key b ≠ g.key c) :
    (n.wr g c v).rd f b = n.rd f b := by
  simp only [Node.rd, mapGetD, Node.wr_regs, mapFind?_set_other h]

/-- A field reads its reset value where the file lists no field. -/
theorem Node.rd_of_regs_nil {n : Node} (h : n.regs = []) (f : Fld) (b : Nat) : n.rd f b = f.reset := by
  rw [Node.rd, h]; rfl

theorem Node.rd_wrs_other {f : Fld} {b c : Nat} {l : List (Fld × Nat)} (n : Node) (h : ∀ w ∈ l, f.key b ≠ w.1.key c) :
    (n.wrs c l).rd f b = n.rd f b := by
  induction l generalizing n with
  | nil => rfl
  | cons w l ih =>
    obtain ⟨hw, hl⟩ := List.forall_mem_cons.mp h
    exact (ih (n.wr w.1 c w.2) hl).trans (Node.rd_wr_other hw)

/-- Writing fields changes the register file only. -/
theorem Node.wrs_eq (n : Node) (b : Nat) (l : List (Fld × Nat)) : n.wrs b l = { n with regs := (n.wrs b l).regs } := by
  induction l generalizing n with
  | nil => rfl
  | cons w l ih => exact ih (n.wr w.1 b w.2)

/-! ## Error capture -/

/-- A status bit is written, then its capture if the status register was clear. -/
theorem Node.flag_wrs (n : Node) (f : Fld) (b : Nat) (capture : List (Fld × Nat)) :
    n.flag f b capture = (n.wr f b 1).wrs b (if n.regZero (b + f.addr) then capture else []) := by
  unfold Node.flag
  cases n.regZero (b + f.addr) with
  | false => rfl
  | true => rfl

/-- A status bit set with its capture changes the register file only. -/
theorem Node.flag_eq (n : Node) (f : Fld) (b : Nat) (capture : List (Fld × Nat)) :
    n.flag f b capture = { n with regs := (n.flag f b capture).regs } := by
  rw [Node.flag_wrs]
  exact Node.wrs_eq (n.wr f b 1) b _

/-- The status bit reads 1 afterwards, whether or not the error is captured. -/
theorem Node.rd_flag_same {n : Node} {f : Fld} {b : Nat} {capture : List (Fld × Nat)} (hw : 0 < f.width)
    (h : ∀ w ∈ capture, f.key b ≠ w.1.key b) : (n.flag f b capture).rd f b = 1 := by
  have hwritten : ∀ w ∈ (if n.regZero (b + f.addr) then capture else []), f.key b ≠ w.1.key b := by
    split
    · exact h
    · exact List.forall_mem_nil _
  rw [Node.flag_wrs, Node.rd_wrs_other _ hwritten, Node.rd_wr_same]
  exact Nat.mod_eq_of_lt (Nat.one_lt_two_pow hw.ne')

/-- An HP_ error changes the register file and the interrupts signalled. -/
theorem Node.hpErr_eq (n : Node) (bit addr : Nat) :
    n.hpErr bit addr =
      { n with regs := (n.hpErr bit addr).regs, host := { n.host with msi := (n.hpErr bit addr).host.msi } } := by
  unfold Node.hpErr
  dsimp only
  rw [Node.flag_eq]
  split <;> rfl

theorem Node.rd_raiseVector (n : Node) (v : Nat) (f : Fld) (b : Nat) : (n.raiseVector v).rd f b = n.rd f b := rfl

/-- Bit 6 of HP_ERR_STATUS is BAD_ACCESS. -/
theorem Node.rd_hpErr_badAccess (n : Node) (addr : Nat) : (n.hpErr 6 addr).rd R.HP_ERR_STATUS_BAD_ACCESS 0 = 1 := by
  have hcapture : ∀ w ∈ n.capTick R.HP_ERR_INFO_TICK R.HP_ERR_INFO_KIND 6 ++ [(R.HP_ERR_ADDR_ADDR, addr)],
      R.HP_ERR_STATUS_BAD_ACCESS.key 0 ≠ w.1.key 0 := by
    simp only [Node.capTick, List.cons_append, List.nil_append, List.forall_mem_cons]
    exact ⟨by decide, by decide, by decide⟩
  have hflag := Node.rd_flag_same (n := n) (by decide) hcapture
  simp only [Node.hpErr, List.getD_cons_succ, List.getD_cons_zero]
  split
  · exact (Node.rd_raiseVector ..).trans hflag
  · exact hflag

/-! ## Unsupported Requests (R4, R304) -/

/-- An Unsupported Request is counted; beside that it changes only the register file and the interrupts signalled. -/
theorem Node.unsupportedReq_eq (n : Node) (a : Nat) :
    n.unsupportedReq a =
      { n with regs := (n.unsupportedReq a).regs,
               host := { n.host with ur := n.host.ur + 1, msi := (n.unsupportedReq a).host.msi } } := by
  unfold Node.unsupportedReq
  dsimp only
  split
  · exact Node.hpErr_eq (n.modHost fun h => { h with ur := h.ur + 1 }) 6 a
  · rfl

theorem Node.rd_unsupportedReq_badAccess {n : Node} (a : Nat) (h : n.awake = true) :
    (n.unsupportedReq a).rd R.HP_ERR_STATUS_BAD_ACCESS 0 = 1 := by
  have h' : (n.modHost fun h => { h with ur := h.ur + 1 }).awake = true := h
  simp only [Node.unsupportedReq, h', if_true, Node.rd_hpErr_badAccess]

/-- A host write at an address no part of the node answers is an Unsupported Request. -/
theorem Node.registerWrite_absent {n : Node} {a : Nat} (width v : Nat) (hr : n.hostReach = true)
    (ha : n.absentAddr a = true) : n.registerWrite a width v = n.unsupportedReq a := by
  obtain ⟨-, hlink⟩ := Bool.and_eq_true_iff.mp hr
  simp [Node.registerWrite, Node.accessOk, hlink, ha]

/-! ## Quiet nodes -/

/-- Register fields and the host port's own counts set nothing off: only its post boxes and its link do. -/
theorem Node.Quiet.regs_host {n : Node} (h : n.Quiet) {r : Map Nat} {p : HostSt} (hb : p.boxes = n.host.boxes)
    (hl : p.link = n.host.link) : ({ n with regs := r, host := p } : Node).Quiet where
  loop := h.loop
  inbox := h.inbox
  done := h.done
  boxes b := by simpa only [Node.box, hb] using h.boxes b
  level1 := h.level1
  level2 := h.level2
  level3 := h.level3
  flush := h.flush
  milestones := by simpa only [Node.milestonesSet, Node.awake, hl] using h.milestones
  reads := h.reads

theorem Node.Quiet.unsupportedReq {n : Node} (h : n.Quiet) (a : Nat) : (n.unsupportedReq a).Quiet := by
  rw [Node.unsupportedReq_eq]
  exact h.regs_host rfl rfl

/-- A change that keeps the identity is the change itself. -/
theorem Node.change_eq {n : Node} {f : Node → Node} (h : (f n).ident = n.ident) : n.change f = f n := by
  rw [Node.change, ← h]

/-- The whole effect of a host write at an absent address on a quiet node that the host reaches. -/
theorem exec_registerWrite_absent {s : State} {a : Nat} (t width v : Nat) (hq : s.node.Quiet)
    (hr : s.node.hostReach = true) (ha : s.node.absentAddr a = true) :
    exec (.registerWrite t a width v) s = .next ⟨(s.node.at t).unsupportedReq a, s.pending⟩ := by
  have hevent : (s.node.event t fun n => n.registerWrite a width v) = (s.node.at t).unsupportedReq a := by
    rw [Node.event, Node.registerWrite_absent width v (n := s.node.at t) hr ha]
    exact ((hq.at t).unsupportedReq a).settle
  have hident : ((s.node.at t).unsupportedReq a).ident = s.node.ident := by rw [Node.unsupportedReq_eq]; rfl
  calc exec (.registerWrite t a width v) s
      = .next ⟨s.node.change fun n => n.event t fun n => n.registerWrite a width v, s.pending⟩ := rfl
    _ = .next ⟨(s.node.at t).unsupportedReq a, s.pending⟩ := by
      rw [Node.change_eq (by rw [hevent, hident]), hevent]

/-- Settles O29: the write is an Unsupported Request, and in a quiet node that sets nothing off. -/
theorem absentSheetAnswersUnsupported : Obligations.AbsentSheetAnswersUnsupported := by
  intro s t a width v hq hr ha
  obtain ⟨hawake, -⟩ := Bool.and_eq_true_iff.mp hr
  refine ⟨_, exec_registerWrite_absent t width v hq hr ha, ?_, Node.rd_unsupportedReq_badAccess a hawake, ?_⟩ <;>
    rw [Node.unsupportedReq_eq]
  · rfl
  · exact ⟨rfl, rfl, rfl, rfl, rfl, rfl⟩

/-! ## Reset (R6, R450, R453; log entry 48) -/

theorem Node.powerGoodRise_of_off {n : Node} (hp : n.pins.pwrGood = false) (ht : n.pins.thermLow = false) :
    n.powerGoodRise =
      (n.modPins fun p => { p with pwrGood := true }).coldStart.modDebug fun d => { d with ir := irIdcode } := by
  simp [Node.powerGoodRise, hp, ht]

/-- Settles O9: a cold start of a node that holds nothing but its identity finds nothing to keep. -/
theorem resetIsPowerComingOn : Obligations.ResetIsPowerComingOn := by
  refine ⟨Node.rd_of_regs_nil rfl, rfl, ?_, rfl, rfl⟩
  rw [Node.powerGoodRise_of_off rfl rfl]
  rfl

end Sys2Proof.Machine

/-!
PROOFS of the node overview family: every time event (O50) and every power, PLDM and start-up command (O58) completes.
-/

namespace Sys2Proof.Machine

/-! ## What each form of an event answers when its condition holds (R4, R13, R450; log entry 43)

The condition is read at the time of the event, which leaves it as it is, so that it may be asked of the state before. -/

theorem State.at_ran (s : State) (t : Nat) (f : Node → Node) : s.at t f = .next (s.ran t f) := rfl

/-- Of an event's effect only its value on the node at the event's time counts. -/
theorem State.ran_congr {s : State} {t : Nat} {f g : Node → Node} (h : f (s.node.at t) = g (s.node.at t)) :
    s.ran t f = s.ran t g := by
  simp only [State.ran, Node.change, Node.event, h]

theorem State.ran_when_awake {s : State} {f : Node → Node} (t : Nat) (ha : s.node.awake = true) :
    s.ran t (fun n => n.when n.awake f) = s.ran t f :=
  State.ran_congr (by rw [Node.awake_at, ha, Node.when_true])

theorem State.live_ran {s : State} {f : Node → Node} (t : Nat) (ha : s.node.awake = true) :
    s.live t f = .next (s.ran t f) := by
  rw [State.live, State.at_ran, State.ran_when_awake t ha]

theorem State.atUnit_ran {s : State} {p : Bool} {f : Node → Node} (t : Nat) (hp : p = true) :
    s.atUnit t p f = .next (s.ran t f) := by
  rw [State.atUnit, State.onUnit_eq, if_pos hp]; rfl

theorem State.liveUnit_ran {s : State} {p : Bool} {f : Node → Node} (t : Nat) (ha : s.node.awake = true)
    (hp : p = true) : s.liveUnit t p f = .next (s.ran t f) := by
  rw [State.liveUnit, State.atUnit_ran t hp, State.ran_when_awake t ha]

theorem State.hostReg_ran {s : State} {f : Node → Node} (t : Nat) (r : Fld) (hr : s.node.hostReach = true) :
    s.hostReg t r f = .next (s.ran t f) := by
  rw [State.hostReg, State.at_ran, State.ran_congr (Node.windowWrite_reached (n := s.node.at t) hr)]

/-! ## The tick boundary (R50) -/

/-- A boundary with ticks running, its tick not barred and no restart or power cycle begun runs all eight actions. -/
theorem Node.tickBoundary_eq {n : Node} (hticking : n.ticking = true) (ha : n.awake = true) (hw : n.err.warmAt = none)
    (hb : n.barred n.nextTick.1 = false) (hw₁ : ((n.at n.nextTick.2).action1 n.nextTick.1).err.warmAt = none)
    (hp₁ : ((n.at n.nextTick.2).action1 n.nextTick.1).pins.pwrcycLow = false)
    (hb₂ : ((n.at n.nextTick.2).action1 n.nextTick.1).action2.barred
      ((n.at n.nextTick.2).action1 n.nextTick.1).action2.time.tick = false) :
    n.tickBoundary = ((n.at n.nextTick.2).action1 n.nextTick.1).action2.actions
      ((n.at n.nextTick.2).action1 n.nextTick.1).action2.now := by
  have hb' : (n.at n.nextTick.2).barred n.nextTick.1 = false := hb
  simp [Node.tickBoundary, hticking, ha, hw, hb', hw₁, hp₁, hb₂]

/-- Settles O50: a boundary runs its actions, and every other event is one of a node that runs firmware, most of them of a
named port or link. -/
theorem timeEventsRun : Obligations.TimeEventsRun := by
  intro s t
  refine ⟨?tickBoundary, ?collectionCutoff, ?timeExchangeSend, ?timeExchange, ?exchangeMissed, ?ptpMessage, ?ptpSyncSend,
    ?delayRequestSend, ?ppsInEdge, ?ppsMissing, ?ppsOutPulse, ?upstreamAttemptTimeout, ?holdoverLimitExceeded,
    ?d2dReplayTimeout⟩
  case tickBoundary =>
    intro hticking ha hw hb hw₁ hp₁ hb₂
    have hrun := Node.tickBoundary_eq hticking ha hw hb hw₁ hp₁ hb₂
    calc exec .tickBoundary s = .next { s with node := s.node.change fun n => n.tickBoundary.settle } := rfl
      _ = _ := by simp only [Node.change, hrun]
  case timeExchange => exact fun _ _ => State.liveUnit_ran t
  case ptpMessage => exact fun _ _ => State.liveUnit_ran t
  case d2dReplayTimeout => exact fun _ _ _ => State.liveUnit_ran t
  case exchangeMissed | ptpSyncSend | delayRequestSend => exact fun _ => State.liveUnit_ran t
  case collectionCutoff | timeExchangeSend | ppsInEdge | ppsMissing | ppsOutPulse | upstreamAttemptTimeout |
      holdoverLimitExceeded =>
    exact State.live_ran t

/-! ## Power, PLDM and start-up (R387 to R391, R448, R450 to R457, R476) -/

/-- Settles O58: host register writes, events of a node that runs firmware, and those of start-up and power, which come
whatever its power and reset. -/
theorem powerAndStartUpRun : Obligations.PowerAndStartUpRun := by
  intro s t
  refine ⟨?park, ?standby, ?opLimit, ?sheetDoze, ?sheetWakeDone, ?railSettled, ?railSettleTimeout, ?powerSample,
    ?getTid, ?getPldmVersion, ?getPldmTypes, ?getPldmCommands, ?getPdr, ?getSensorReading, ?getStateSensorReadings,
    ?setEventReceiver, ?setNumericEffecterValue, ?setStateEffecterStates, ?powerGoodRise, ?firmwareVerified, ?unsealDone,
    ?sheetPowerUp, ?hbmTrained, ?hbmInitDone, ?systemLayoutDone, ?readyTimeout, ?powerOff, ?thermtrip, ?thermtripRelease⟩
  case park | standby | opLimit => exact fun _ => State.hostReg_ran t _
  case sheetDoze => exact fun _ => State.liveUnit_ran t
  case sheetWakeDone => exact fun _ _ => State.liveUnit_ran t
  case railSettled | getTid | getPldmTypes | readyTimeout => exact State.live_ran t
  case railSettleTimeout | powerSample | getPldmVersion | getPldmCommands | getPdr | getSensorReading |
      getStateSensorReadings | setEventReceiver =>
    exact fun _ => State.live_ran t
  case setNumericEffecterValue | setStateEffecterStates => exact fun _ _ => State.live_ran t
  case sheetPowerUp => exact fun _ _ _ _ => State.atUnit_ran t
  case powerGoodRise | powerOff | thermtripRelease => exact State.at_ran s t _
  case hbmTrained | systemLayoutDone => exact fun _ => State.at_ran s t _
  case firmwareVerified | hbmInitDone | thermtrip => exact fun _ _ => State.at_ran s t _
  case unsealDone => exact fun _ _ _ _ => State.at_ran s t _

end Sys2Proof.Machine

/-!
PROOFS of the tick and Meridian family: tick numbers and boundaries (O18, O19), the latch of MER_NOW (O20), the idle step
(O2), the holdover limit (O21), missed exchanges (O22), late packets (O40), and every host port access (O56).
-/

namespace Sys2Proof.Machine

/-! ## Tick numbers (R44) -/

/-- The signed difference is congruent to the difference. -/
theorem tickDiff_sub_emod (a b : Nat) : (tickDiff a b - ((a : Int) - b)) % 2 ^ 48 = 0 := by
  simp only [tickDiff, sdiff]
  split <;> omega

theorem tickDiff_bounds (a b : Nat) : -(2 ^ 47) ≤ tickDiff a b ∧ tickDiff a b < 2 ^ 47 := by
  simp only [tickDiff, sdiff]
  split <;> omega

/-- The difference is the signed residue: being congruent and in range determines it. -/
theorem tickDiff_eq_of_emod {a b : Nat} {d : Int} (hd : (d - ((a : Int) - b)) % 2 ^ 48 = 0) (hlo : -(2 ^ 47) ≤ d)
    (hhi : d < 2 ^ 47) : tickDiff a b = d := by
  have hmod := tickDiff_sub_emod a b
  obtain ⟨hmin, hmax⟩ := tickDiff_bounds a b
  omega

/-- A tick more than half the range ahead is behind by the rest of the range. -/
theorem tickDiff_far_ahead (a : Nat) {d : Nat} (hlo : 2 ^ 47 < d) (hhi : d < 2 ^ 48) :
    tickDiff (a + d) a = (d : Int) - 2 ^ 48 :=
  tickDiff_eq_of_emod (by omega) (by omega) (by omega)

/-- Settles O18. -/
theorem tickNumbersCompareSigned : Obligations.TickNumbersCompareSigned := by
  intro a b
  obtain ⟨hmin, hmax⟩ := tickDiff_bounds a b
  refine ⟨tickDiff_sub_emod a b, hmin, hmax, fun d hlo hhi => ?_⟩
  rw [tickDiff_far_ahead a hlo hhi]
  omega

/-! ## Boundaries (R43) -/

/-- Without a wrap the index of the tick is the number of whole periods since the origin. -/
theorem Node.tickAt_eq {n : Node} {t : Nat} (hp : 0 < n.time.period) (ho : n.time.origin ≤ t) (ht : t < 2 ^ 64) :
    n.tickAt t = (t - n.time.origin) / n.time.period := by
  have hsince : (t + 2 ^ 64 - n.time.origin) % 2 ^ 64 = t - n.time.origin := by omega
  rw [Node.tickAt, if_neg hp.ne', hsince]

/-- Settles O19: the whole periods since the origin fit in the time since then, and one more does not. -/
theorem ticksBeginAtTheirBoundaries : Obligations.TicksBeginAtTheirBoundaries := by
  intro n t hp ho ht
  rw [Node.tickAt_eq hp ho ht]
  have hfits := Nat.div_mul_le_self (t - n.time.origin) n.time.period
  have hnext : t - n.time.origin < ((t - n.time.origin) / n.time.period + 1) * n.time.period :=
    Nat.lt_mul_of_div_lt (Nat.lt_succ_self _) hp
  omega

/-! ## What leaves a quiet node quiet -/

/-- `m` differs from `n` only in register fields, in the Survey (a flush under way apart) and in the free values used: what
forming a record may change. -/
structure Node.Recorded (n m : Node) : Prop where
  frame : m = { n with regs := m.regs, survey := m.survey, freeCtr := m.freeCtr }
  flush : m.survey.flushUntil = n.survey.flushUntil

theorem Node.Recorded.refl (n : Node) : n.Recorded n := ⟨rfl, rfl⟩

theorem Node.Recorded.trans {a b c : Node} (hab : a.Recorded b) (hbc : b.Recorded c) : a.Recorded c where
  frame := by
    have hframe := hbc.frame
    rw [hab.frame] at hframe
    exact hframe
  flush := hbc.flush.trans hab.flush

theorem Node.recorded_wr (n : Node) (f : Fld) (b v : Nat) : n.Recorded (n.wr f b v) := ⟨rfl, rfl⟩

theorem Node.recorded_inc (n : Node) (f : Fld) (b k : Nat) : n.Recorded (n.inc f b k) := ⟨rfl, rfl⟩

theorem Node.recorded_fresh3 (n : Node) : n.Recorded n.fresh3.2.2.2 := ⟨rfl, rfl⟩

theorem Node.recorded_modSurvey {n : Node} {f : SurveySt → SurveySt} (h : (f n.survey).flushUntil = n.survey.flushUntil) :
    n.Recorded (n.modSurvey f) := ⟨rfl, h⟩

theorem Node.recorded_snap (n : Node) (sc : RecScope) (r : SurvRec) : n.Recorded (n.snap sc r).2 := by
  cases sc <;> exact ⟨rfl, rfl⟩

theorem Node.recorded_dropRec (n : Node) (r : SurvRec) : n.Recorded (n.dropRec r) := by
  unfold Node.dropRec
  dsimp only
  split <;> exact ⟨rfl, rfl⟩

theorem Node.recorded_form (n : Node) (sc : RecScope) (r : SurvRec) : n.Recorded (n.form sc r) := by
  unfold Node.form
  dsimp only
  have hsnap := n.recorded_snap sc { r with ns := n.now, tick := n.time.tick }
  generalize n.snap sc { r with ns := n.now, tick := n.time.tick } = x at hsnap
  have halert : n.Recorded (if x.1.cls = 0 then x.2.wr R.SVY_STATUS_ALERT 0 1 else x.2) := by
    split
    · exact hsnap.trans (Node.recorded_wr ..)
    · exact hsnap
  refine halert.trans ?_
  generalize (if x.1.cls = 0 then x.2.wr R.SVY_STATUS_ALERT 0 1 else x.2) = y
  split
  · exact y.recorded_dropRec x.1
  split
  · exact y.recorded_dropRec x.1
  · exact Node.recorded_modSurvey rfl

theorem Node.recorded_countSev (n : Node) (sev : Nat) : n.Recorded (n.countSev sev) := by
  unfold Node.countSev
  split
  case h_1 | h_2 | h_3 => exact (n.recorded_wr ..).trans (Node.recorded_inc ..)
  case h_4 => exact n.recorded_inc ..
  case h_5 => exact .refl n

theorem Node.recorded_alarm (n : Node) (sc : RecScope) (sev source event : Nat) :
    n.Recorded (n.alarm sc sev source event) :=
  n.recorded_fresh3.trans ((Node.recorded_countSev ..).trans (Node.recorded_form ..))

theorem Node.Quiet.recorded {n m : Node} (h : n.Quiet) (hr : n.Recorded m) : m.Quiet := by
  rw [hr.frame]
  exact
    { loop := h.loop, inbox := h.inbox, done := h.done, boxes := h.boxes, level1 := h.level1, level2 := h.level2,
      level3 := h.level3, flush := hr.flush.trans h.flush, milestones := h.milestones, reads := h.reads }

/-- Of the time base only the first lock is a milestone (R450). -/
theorem Node.Quiet.modTime {n : Node} (h : n.Quiet) {f : TimeSt → TimeSt}
    (hl : (f n.time).everLocked = n.time.everLocked) : (n.modTime f).Quiet where
  loop := h.loop
  inbox := h.inbox
  done := h.done
  boxes := h.boxes
  level1 := h.level1
  level2 := h.level2
  level3 := h.level3
  flush := h.flush
  milestones := by
    have hmilestones := h.milestones
    unfold Node.milestonesSet at hmilestones ⊢
    rw [Node.modTime_time, hl]
    exact hmilestones
  reads := h.reads

/-- An event that leaves its node quiet sets nothing off. -/
theorem State.ran_of_quiet {s : State} {t : Nat} {f : Node → Node} (h : (f (s.node.at t)).Quiet) :
    s.ran t f = s.did t f := by
  simp only [State.ran, State.did, Node.change, Node.event, h.settle]

/-- Of an event that sets nothing off, too, only its value on the node at the event's time counts. -/
theorem State.did_congr {s : State} {t : Nat} {f g : Node → Node} (h : f (s.node.at t) = g (s.node.at t)) :
    s.did t f = s.did t g := by
  simp only [State.did, Node.change, h]

/-! ## Reading MER_NOW (R56) -/

theorem Node.locate_merNow (n : Node) : n.locate 0x10100 = some ⟨.hub, 0, 0, ⟨0x10100, 0, 1, [R.MER_NOW_NS]⟩, 0⟩ := by
  have hlocate : Machine.locate 0x10100 = some ⟨.hub, 0, 0, ⟨0x10100, 0, 1, [R.MER_NOW_NS]⟩, 0⟩ := rfl
  have hhub : (Grp.hub != Grp.quad) = true := rfl
  simp only [Node.locate, hlocate, Option.filter, hhub, Bool.or_true, Bool.true_or, if_true]

/-- A 64-bit read of MER_NOW is one value and changes nothing. -/
theorem Node.readReg_merNow (n : Node) : n.readReg 0x10100 = (n.now % 2 ^ 64, n) := by
  have hvalue : n.regValue ⟨.hub, 0, 0, ⟨0x10100, 0, 1, [R.MER_NOW_NS]⟩, 0⟩ 0 = n.now % 2 ^ 64 := by
    simp [Node.regValue, Node.timeView, pk, R.MER_NOW_NS]
  rw [Node.readReg, Node.locate_merNow]
  exact congrArg (·, n) hvalue

/-- The node once the low half of MER_NOW has been read. -/
def Node.latchMerNow (n : Node) : Node :=
  (n.modHost fun h => { h with regData := n.now % 2 ^ 64 % 2 ^ 32 }).modTime fun t =>
    { t with latch := n.now % 2 ^ 64 / 2 ^ 32, latchFrac := t.frac }

/-- The node once the high half of MER_NOW has been read. -/
def Node.readLatch (n : Node) : Node := n.modHost fun h => { h with regData := n.time.latch }

theorem Node.read32_merNow_low {n : Node} (h : n.hostReach = true) : n.read32 0x10100 = n.latchMerNow := by
  obtain ⟨hawake, hlink⟩ := Bool.and_eq_true_iff.mp h
  simp [Node.read32, hawake, hlink, Node.absentAddr, Node.readReg_merNow, Node.latchMerNow]

theorem Node.read32_merNow_high {n : Node} (h : n.hostReach = true) : n.read32 0x10104 = n.readLatch := by
  obtain ⟨hawake, hlink⟩ := Bool.and_eq_true_iff.mp h
  simp [Node.read32, hawake, hlink, Node.absentAddr, Node.readReg_merNow, Node.readLatch]

theorem Node.Quiet.readLatch {n : Node} (h : n.Quiet) : n.readLatch.Quiet := h.regs_host rfl rfl

theorem Node.Quiet.latchMerNow {n : Node} (h : n.Quiet) : n.latchMerNow.Quiet :=
  (h.regs_host (r := n.regs) (p := { n.host with regData := n.now % 2 ^ 64 % 2 ^ 32 }) rfl rfl).modTime rfl

/-- A 32-bit read that leaves its node quiet sets nothing off. -/
theorem exec_lowHalfRead_of_quiet {s : State} {t a : Nat} {f : Node → Node}
    (hread : (s.node.at t).read32 a = f (s.node.at t)) (hf : (f (s.node.at t)).Quiet) :
    exec (.lowHalfRead t a) s = .next (s.did t f) :=
  congrArg _ ((State.ran_congr hread).trans (State.ran_of_quiet hf))

theorem exec_lowHalfRead_merNow_low {n : Node} (t : Nat) (q : List Instr) (hq : n.Quiet) (hr : n.hostReach = true) :
    exec (.lowHalfRead t 0x10100) ⟨n, q⟩ = .next ⟨(n.at t).latchMerNow, q⟩ :=
  exec_lowHalfRead_of_quiet (s := ⟨n, q⟩) (Node.read32_merNow_low hr) (hq.at t).latchMerNow

theorem exec_lowHalfRead_merNow_high {n : Node} (t : Nat) (q : List Instr) (hq : n.Quiet) (hr : n.hostReach = true) :
    exec (.lowHalfRead t 0x10104) ⟨n, q⟩ = .next ⟨(n.at t).readLatch, q⟩ :=
  exec_lowHalfRead_of_quiet (s := ⟨n, q⟩) (Node.read32_merNow_high hr) (hq.at t).readLatch

/-- Settles O20: the low half's read latches, which keeps the node quiet and reached, so that the high half's read at any
time finds the latch. -/
theorem lowHalfReadLatchesMerNow : Obligations.LowHalfReadLatchesMerNow := by
  intro s t hq hr hfit
  have hnow : (s.node.at t).now % 2 ^ 64 = max s.node.time.now t := Nat.mod_eq_of_lt hfit
  have hlatch : (s.node.at t).latchMerNow.time.latch = max s.node.time.now t / 2 ^ 32 := congrArg (· / 2 ^ 32) hnow
  refine ⟨by rw [Node.readReg_merNow]; rfl, _, exec_lowHalfRead_merNow_low t s.pending hq hr,
    congrArg (· % 2 ^ 32) hnow, hlatch, rfl, fun t' => ?_⟩
  exact ⟨_, exec_lowHalfRead_merNow_high t' s.pending (hq.at t).latchMerNow hr, hlatch, rfl⟩

/-! ## The idle step (log entry 2) -/

/-- Settles O2. -/
theorem emptyQueueIdles : Obligations.EmptyQueueIdles := fun _ => rfl

/-! ## The holdover limit (R39, R40; log entry 150) -/

theorem Node.Quiet.unlock {n : Node} (h : n.Quiet) : n.unlock.Quiet :=
  (h.modTime rfl).recorded ((Node.recorded_wr ..).trans (Node.recorded_alarm ..))

theorem Node.Quiet.holdoverLimit {n : Node} (h : n.Quiet) : n.holdoverLimit.Quiet := by
  unfold Node.holdoverLimit
  split
  · exact (h.modTime rfl).unlock
  · exact h

/-- Settles O21: an ALARM leaves a quiet node quiet. -/
theorem holdoverLimitUnlocks : Obligations.HoldoverLimitUnlocks := by
  intro s t hq ha
  have hlimit : exec (.holdoverLimitExceeded t) s = .next (s.ran t fun n => n.holdoverLimit) := State.live_ran t ha
  rw [hlimit, State.ran_of_quiet (hq.at t).holdoverLimit]
  refine congrArg _ (State.did_congr ?_)
  simp only [Node.holdoverLimit, Bool.not_eq_true']
  rfl

/-! ## Missed exchanges (R31, R39) -/

/-- A node that follows nobody has no upstream to lose. -/
theorem Node.exchangeMissed_of_not_follows {n : Node} (port : Nat) (h : n.follows = false) :
    n.exchangeMissed port = n.modTimePort port fun x => { x with missed := x.missed + 1, good := 0 } := by
  have hother : (n.modTimePort port fun x => { x with missed := x.missed + 1, good := 0 }).isUpstream port = false :=
    Bool.and_eq_false_imp.mpr fun hf => absurd (h.symm.trans hf) Bool.false_ne_true
  simp only [Node.exchangeMissed, hother, Bool.false_eq_true, if_false]

/-- Settles O22. -/
theorem missedExchangeIsCounted : Obligations.MissedExchangeIsCounted := by
  intro s t port hq ha hp hf
  have hmissed := Node.exchangeMissed_of_not_follows (n := s.node.at t) port hf
  have hquiet : ((s.node.at t).exchangeMissed port).Quiet := by
    rw [hmissed]
    exact (hq.at t).modTime rfl
  have hrun : exec (.exchangeMissed t port) s = .next (s.ran t fun n => n.exchangeMissed port) :=
    State.liveUnit_ran t ha hp
  rw [hrun, State.ran_of_quiet hquiet]
  exact congrArg _ (State.did_congr hmissed)

/-! ## Late packets (R51, R52) -/

/-- Settles O40: the deadline is checked before anything else of the packet, at the time and guard that tracing leaves. -/
theorem expiredPacketsAreDropped : Obligations.ExpiredPacketsAreDropped := by
  intro n port p m hlate
  exact if_pos hlate

/-! ## The host port (R56, R300 to R324, R376) -/

theorem State.fromHost_ran {s : State} {f : Node → Node} (t : Nat) (hr : s.node.hostReach = true) :
    s.fromHost t f = .next (s.ran t f) := by
  rw [State.fromHost, State.at_ran, State.ran_congr (by rw [Node.hostReach_at, hr, Node.when_true])]

theorem State.hostBox_ran {s : State} {box : Nat} {f : Node → Node} (t : Nat) (r : Fld) (hr : s.node.hostReach = true)
    (hb : hasBox box = true) : s.hostBox t box r f = .next (s.ran t f) := by
  rw [State.hostBox, State.atUnit_ran t hb, State.ran_congr (Node.windowWrite_reached (n := s.node.at t) hr)]

/-- An integrity failure of a link under IDE takes it down (R376). -/
theorem exec_ideFailure_of_ide {s : State} (t : Nat) (ha : s.node.awake = true) (hi : s.node.host.ide = true) :
    exec (.ideFailure t) s = .next (s.ran t fun n => n.linkDown) := by
  have hide : (s.node.at t).when (s.node.at t).host.ide Node.linkDown = (s.node.at t).linkDown := by
    rw [Node.at_host, hi, Node.when_true]
  calc exec (.ideFailure t) s
      = .next (s.ran t fun n => n.when n.host.ide Node.linkDown) := State.live_ran t ha
    _ = .next (s.ran t fun n => n.linkDown) := congrArg _ (State.ran_congr hide)

/-- Settles O56: events of a node that runs firmware, HDM accesses of a host that reaches it, writes of hub and box
registers, and control-window accesses, which decide themselves whether they are answered. -/
theorem hostPortEventsRun : Obligations.HostPortEventsRun := by
  intro s t
  refine ⟨?ucieLinkUp, ?ucieModuleDown, ?ucieLinkDown, ?ideFailure, ?hdmRead, ?hdmWrite, ?bisnpResponse, ?recallTimeout,
    ?registerWrite, ?lowHalfRead, ?doorbell, ?cplFreeWrite, ?rrFreeWrite, ?pbEnable, ?pbDisable, ?pbReset,
    ?irqHoldoffEnd, ?hpHeartbeat, ?heartbeatCheck, ?adopt, ?t3WindowEnable⟩
  case ucieLinkUp | ucieModuleDown => exact fun _ _ => State.live_ran t
  case ucieLinkDown | heartbeatCheck => exact State.live_ran t
  case recallTimeout => exact fun _ => State.live_ran t
  case irqHoldoffEnd => exact fun _ => State.liveUnit_ran t
  case ideFailure => exact exec_ideFailure_of_ide t
  case hdmRead => exact fun _ _ => State.fromHost_ran t
  case hdmWrite => exact fun _ _ _ _ _ => State.fromHost_ran t
  case bisnpResponse => exact fun _ _ _ => State.fromHost_ran t
  case registerWrite => exact fun _ _ _ => State.at_ran s t _
  case lowHalfRead => exact fun _ => State.at_ran s t _
  case doorbell => exact fun _ _ _ => State.hostBox_ran t _
  case cplFreeWrite | rrFreeWrite => exact fun _ _ => State.hostBox_ran t _
  case pbEnable | pbDisable | pbReset => exact fun _ => State.hostBox_ran t _
  case adopt => exact State.hostReg_ran t _
  case hpHeartbeat | t3WindowEnable => exact fun _ => State.hostReg_ran t _

end Sys2Proof.Machine

/-!
PROOFS of the letters and replies family: combine with the identity and with NaN operands (O26), tombstones, tickets and
refusal entries at their DEADLINE (O23, O24), every letter, staging and pass event (O51), and every packet row (O52).
-/

namespace Sys2Proof.Machine

/-! ## combine, one case at a time (R75, R76, R78) -/

@[simp] theorem isNaN_f32NegInf : isNaN f32NegInf = false := by decide

@[simp] theorem f32NegInf_ne_f32PosInf : f32NegInf ≠ f32PosInf := by decide

/-- An operand whose m is NaN or +∞ leaves only the score lists to merge. -/
theorem combine_of_nan_or_posInf (k : Nat) {p q : Partial}
    (h : isNaN p.m = true ∨ isNaN q.m = true ∨ p.m = f32PosInf ∨ q.m = f32PosInf) :
    combine k p q = { nanP p.o.length with top := topMerge k p.top q.top } := by
  have hbad : (isNaN p.m || p.m == f32PosInf || (isNaN q.m || q.m == f32PosInf)) = true := by
    rcases h with h | h | h | h <;> simp [h]
  exact if_pos hbad

/-- Where the right operand's m is -∞ the left operand stands. -/
theorem combine_of_right_negInf (k : Nat) {p q : Partial} (hnan : isNaN p.m = false) (hpos : p.m ≠ f32PosInf)
    (hq : q.m = f32NegInf) :
    combine k p q = { p with top := topMerge k p.top q.top, nan := p.nan || q.nan } := by
  simp [combine, hnan, hpos, hq]

/-- Where the left operand's m alone is -∞ the right operand stands. -/
theorem combine_of_left_negInf (k : Nat) {p q : Partial} (hp : p.m = f32NegInf) (hnan : isNaN q.m = false)
    (hpos : q.m ≠ f32PosInf) (hneg : q.m ≠ f32NegInf) :
    combine k p q = { q with top := topMerge k p.top q.top, nan := p.nan || q.nan } := by
  simp [combine, hp, hnan, hpos, hneg]

/-- Settles O26: the identity's m is -∞ and its NaN mark is clear. -/
theorem combineWithTheIdentity : Obligations.CombineWithTheIdentity := by
  intro k d p q
  refine ⟨fun hnan hpos => ?right, fun hnan hpos hneg => ?left, combine_of_nan_or_posInf k⟩
  case right =>
    rw [combine_of_right_negInf k (q := identP d) hnan hpos rfl]
    exact ⟨rfl, rfl, rfl, Bool.or_false p.nan⟩
  case left =>
    rw [combine_of_left_negInf k (p := identP d) rfl hnan hpos hneg]
    exact ⟨rfl, rfl, rfl, Bool.false_or p.nan⟩

/-! ## Entries that leave at their DEADLINE (R84, R85; tickets: log entry 82) -/

/-- Of the sorting offices' state only the staged pages set anything off. -/
theorem Node.Quiet.modOffice {n : Node} (h : n.Quiet) {f : OfficeSt → OfficeSt}
    (hs : (f n.office).staged = n.office.staged) : (n.modOffice f).Quiet where
  loop := h.loop
  inbox := h.inbox
  done := h.done
  boxes := h.boxes
  level1 := h.level1
  level2 := h.level2
  level3 := h.level3
  flush := h.flush
  milestones := h.milestones
  reads := by
    have hreads := h.reads
    unfold Node.unread at hreads ⊢
    rw [Node.modOffice_office, hs]
    exact hreads

/-- An event of a node that runs firmware that changes only its sorting offices, and of them no staged page, sets nothing
off. -/
theorem State.live_modOffice {s : State} {g : Node → OfficeSt → OfficeSt} (t : Nat) (hq : s.node.Quiet)
    (ha : s.node.awake = true) (hs : ∀ n : Node, (g n n.office).staged = n.office.staged) :
    s.live t (fun n => n.modOffice (g n)) = .next (s.did t fun n => n.modOffice (g n)) := by
  rw [State.live_ran t ha, State.ran_of_quiet ((hq.at t).modOffice (hs _))]

/-- Settles O23: the node compares with the time of the event, the later of its own and the row's. -/
theorem tombstonesLeaveAtTheirDeadline : Obligations.TombstonesLeaveAtTheirDeadline := fun _ t hq ha =>
  (State.live_modOffice t hq ha fun _ => rfl).trans (congrArg _ (State.did_congr rfl))

/-- Settles O24. -/
theorem refusalsLeaveAtTheirDeadline : Obligations.RefusalsLeaveAtTheirDeadline := fun _ t hq ha =>
  (State.live_modOffice t hq ha fun _ => rfl).trans (congrArg _ (State.did_congr rfl))

/-! ## Letters, staging, passes (R122, R125, R171, R178, R196, R413) -/

/-- Only a core that runs its passes can hang. -/
theorem exec_coreHang_of_normal {s : State} {core : Nat} (t : Nat) (ha : s.node.awake = true)
    (hc : s.node.hasCore core = true) (hm : (s.node.core core).mode = .normal) :
    exec (.coreHang t core) s = .next (s.ran t fun n => n.hangCore core) := by
  have hmode : (((s.node.at t).core core).mode == .normal) = true := beq_iff_eq.mpr hm
  calc exec (.coreHang t core) s
      = .next (s.ran t fun n => n.when ((n.core core).mode == .normal) fun n => n.hangCore core) :=
        State.liveUnit_ran t ha hc
    _ = .next (s.ran t fun n => n.hangCore core) := congrArg _ (State.ran_congr (by rw [hmode, Node.when_true]))

/-- Settles O51: events of a node that runs firmware, most of them of a named sheet or core. -/
theorem letterAndPassEventsRun : Obligations.LetterAndPassEventsRun := by
  intro s t
  refine ⟨?letterShare, ?routeCacheWalk, ?mergeCutoff, ?tombstoneExpiry, ?refusalEntryExpiry, ?runAheadFetch, ?pageStaged,
    ?stageFromLowerTier, ?passStart, ?passComplete, ?spadError, ?stagingError, ?sealHashDone, ?coreHang,
    ?coreResetTimeout⟩
  case mergeCutoff | tombstoneExpiry | refusalEntryExpiry => exact State.live_ran t
  case sealHashDone => exact fun _ _ => State.live_ran t
  case runAheadFetch | passStart | coreResetTimeout => exact fun _ => State.liveUnit_ran t
  case letterShare | pageStaged | passComplete => exact fun _ _ => State.liveUnit_ran t
  case routeCacheWalk => exact fun _ _ _ => State.liveUnit_ran t
  case stageFromLowerTier | spadError | stagingError => exact fun _ _ _ _ => State.liveUnit_ran t
  case coreHang => exact fun _ => exec_coreHang_of_normal t

/-! ## Packets (R63, R67, R80, R81, R205, R260, R279, R316, R333, R404, R440) -/

theorem State.packet_ran {s : State} {port : Nat} {p : Packet} (t : Nat) (hp : s.node.hasPort port = true)
    (hh : s.node.portHands port = true) : s.packet t port p = .next (s.ran t fun n => n.deliver port p) := by
  have hdeliver : (s.node.at t).when ((s.node.at t).portHands port) (fun n => n.deliver port p) =
      (s.node.at t).deliver port p := by
    rw [Node.portHands_at, hh, Node.when_true]
  rw [State.packet, State.atUnit_ran t hp]
  exact congrArg _ (State.ran_congr hdeliver)

/-- Settles O52: each row is a packet with its kind's type bytes put in. -/
theorem packetsAreDelivered : Obligations.PacketsAreDelivered := by
  intro s t
  and_intros
  all_goals exact fun _ _ => State.packet_ran t

end Sys2Proof.Machine

/-!
PROOFS of the attention core family: control writes of cores, sheets and quads wait for the boundary (O27), and every
Survey and control command completes (O60).
-/

namespace Sys2Proof.Machine

/-! ## Registers of named units (R4, R187, R226, R244, R271, R299) -/

/-- A host write to a register of a unit the part has runs its effect: whether the part has the unit may be asked at the
event's time, as the model asks it. -/
theorem State.unitReg_ran {s : State} {present : Node → Bool} {f : Node → Node} (t : Nat) (r : Fld) (base : Nat)
    (hr : s.node.hostReach = true) (hp : present (s.node.at t) = true) :
    s.at t (fun n => n.windowWrite r base (present n) f) = .next (s.ran t f) := by
  rw [State.at_ran, State.ran_congr (by rw [hp, Node.windowWrite_reached (n := s.node.at t) hr])]

/-! ## Control writes that wait (R114, R118, R139, R140, R187, R212) -/

/-- A control write kept for the boundary sets nothing off. -/
theorem Node.Quiet.wait {n : Node} (h : n.Quiet) (a : CtlAct) : (n.wait a).Quiet where
  loop := h.loop
  inbox := h.inbox
  done := h.done
  boxes := h.boxes
  level1 := h.level1
  level2 := h.level2
  level3 := h.level3
  flush := h.flush
  milestones := h.milestones
  reads := h.reads

/-- A control write of a unit of a quiet node is queued, and that is all. -/
theorem State.unitReg_wait {s : State} {present : Node → Bool} {a : CtlAct} (t : Nat) (r : Fld) (base : Nat)
    (hq : s.node.Quiet) (hr : s.node.hostReach = true) (hp : present (s.node.at t) = true) :
    s.at t (fun n => n.windowWrite r base (present n) fun n => n.wait a) =
      .next (s.did t fun n => { n with waits := n.waits ++ [a] }) := by
  rw [State.unitReg_ran t r base hr hp, State.ran_of_quiet ((hq.at t).wait a)]
  rfl

/-- Settles O27. -/
theorem controlWritesWaitForTheBoundary : Obligations.ControlWritesWaitForTheBoundary := by
  intro s t hq hr
  refine ⟨fun core hc => ⟨?coreFence, ?unfence, ?coreClearCnt⟩,
    fun sheet hs => ⟨?soClearCnt, ?demoteAll, ?xlClearCnt, ?flushRc⟩, fun quad hd => ?migClearCnt⟩
  case coreFence | unfence | coreClearCnt => exact State.unitReg_wait t _ _ hq hr hc
  case soClearCnt | demoteAll | xlClearCnt | flushRc => exact State.unitReg_wait t _ _ hq hr hs
  case migClearCnt => exact State.unitReg_wait t _ _ hq hr hd

/-! ## The Survey and the control bits (R114, R212, R226, R247, R268, R339, R433 to R445, R449) -/

/-- Settles O60: the Survey's own events are those of a node that runs firmware; the rest are host writes of hub registers
or of a named unit's. -/
theorem surveyAndControlRun : Obligations.SurveyAndControlRun := by
  intro s t
  refine ⟨?eyeMonitorSample, ?ucieMarginSample, ?guardBandSample, ?surveyRecord, ?bucketRefill, ?alertClear,
    ?ringReadAdvance, ?katDue, ?katComplete, ?histogramFlush, ?flush, ?surveyReadDone, ?coreFence, ?unfence,
    ?coreClearCnt, ?soClearCnt, ?demoteAll, ?xlClearCnt, ?flushRc, ?migClearCnt, ?pause, ?hbmClearCnt, ?patrolNow,
    ?nmeClearCnt, ?gzClearCnt, ?portClearCnt, ?retrain, ?rekey, ?crClearCnt, ?poolClearCnt, ?svyClearCnt⟩
  case surveyRecord | bucketRefill | histogramFlush | surveyReadDone => exact State.live_ran t
  case ucieMarginSample => exact fun _ _ _ => State.live_ran t
  case katDue => exact fun _ => State.liveUnit_ran t
  case guardBandSample | katComplete => exact fun _ _ => State.liveUnit_ran t
  case eyeMonitorSample => exact fun _ _ _ _ => State.liveUnit_ran t
  case alertClear | flush | poolClearCnt | svyClearCnt => exact State.hostReg_ran t _
  case ringReadAdvance => exact fun _ => State.hostReg_ran t _
  case coreFence | unfence | coreClearCnt | soClearCnt | demoteAll | xlClearCnt | flushRc | migClearCnt | hbmClearCnt |
      patrolNow | nmeClearCnt | gzClearCnt | portClearCnt | retrain | rekey | crClearCnt =>
    exact fun _ hr hp => State.unitReg_ran t _ _ hr hp
  case pause => exact fun _ _ hr hp => State.unitReg_ran t _ _ hr hp

end Sys2Proof.Machine

/-!
PROOFS of the pages and translation family: first fit finds the lowest free run of granules (O16).
-/

namespace Sys2Proof.Machine

/-! ## First fit, one case at a time (R180) -/

section

variable {len c g a : Nat} {r : GRun} {runs : List (Nat × GRun)}

/-- Past the last run the free granules reach to the reserved top. -/
theorem firstFit_nil_eq_some : firstFit len c [] = some g ↔ c + len ≤ reservedGran ∧ c = g :=
  Option.ite_none_right_eq_some.trans (and_congr_right fun _ => Option.some_inj)

/-- The gap before the first run is wide enough. -/
theorem firstFit_cons_of_le (h : c + len ≤ a) : firstFit len c ((a, r) :: runs) = some c := if_pos h

/-- The gap before the first run is too narrow: the search goes on past that run. -/
theorem firstFit_cons_of_not_le (h : ¬c + len ≤ a) :
    firstFit len c ((a, r) :: runs) = firstFit len (max c (a + r.len)) runs := if_neg h

/-! ## What first fit finds (R180; the reserved top is R216's) -/

theorem le_of_firstFit (h : firstFit len c runs = some g) : c ≤ g := by
  induction runs generalizing c with
  | nil => exact (firstFit_nil_eq_some.1 h).2.le
  | cons p rest ih =>
    obtain ⟨a, r⟩ := p
    by_cases hfit : c + len ≤ a
    · rw [firstFit_cons_of_le hfit, Option.some_inj] at h
      exact h.le
    · rw [firstFit_cons_of_not_le hfit] at h
      exact (le_max_left ..).trans (ih h)

theorem firstFit_add_le_reservedGran (hb : ∀ r ∈ runs, r.1 + r.2.len ≤ reservedGran)
    (h : firstFit len c runs = some g) : g + len ≤ reservedGran := by
  induction runs generalizing c with
  | nil =>
    obtain ⟨htop, rfl⟩ := firstFit_nil_eq_some.1 h
    exact htop
  | cons p rest ih =>
    obtain ⟨a, r⟩ := p
    obtain ⟨hr, hrest⟩ := List.forall_mem_cons.1 hb
    by_cases hfit : c + len ≤ a
    · rw [firstFit_cons_of_le hfit, Option.some_inj] at h
      simp only at hr
      omega
    · rw [firstFit_cons_of_not_le hfit] at h
      exact ih hrest h

/-- The run found meets no run listed: it ends before the run the search stops at, so before every later one, and begins
after every run the search went past. -/
theorem firstFit_clear (hp : runs.Pairwise fun p q => p.1 + p.2.len ≤ q.1) (h : firstFit len c runs = some g) :
    ∀ r ∈ runs, r.1 + r.2.len ≤ g ∨ g + len ≤ r.1 := by
  induction runs generalizing c with
  | nil => simp
  | cons p rest ih =>
    obtain ⟨a, r⟩ := p
    obtain ⟨hfst, hrest⟩ := List.pairwise_cons.1 hp
    rw [List.forall_mem_cons]
    by_cases hfit : c + len ≤ a
    · rw [firstFit_cons_of_le hfit, Option.some_inj] at h
      subst h
      exact ⟨.inr hfit, fun q hq => .inr (hfit.trans ((Nat.le_add_right ..).trans (hfst q hq)))⟩
    · rw [firstFit_cons_of_not_le hfit] at h
      exact ⟨.inl ((le_max_right ..).trans (le_of_firstFit h)), ih hrest h⟩

/-- First fit answers wherever a run of that length is free, with one that is no higher. A free place at or above `c`
cannot end before a run that leaves no gap after `c`, so it lies past that run and the search still has it ahead. -/
theorem exists_firstFit_le_of_clear (hc : c ≤ g) (htop : g + len ≤ reservedGran)
    (hclear : ∀ r ∈ runs, r.1 + r.2.len ≤ g ∨ g + len ≤ r.1) : ∃ g' ≤ g, firstFit len c runs = some g' := by
  induction runs generalizing c with
  | nil => exact ⟨c, hc, firstFit_nil_eq_some.2 ⟨by omega, rfl⟩⟩
  | cons p rest ih =>
    obtain ⟨a, r⟩ := p
    obtain ⟨hr, hrest⟩ := List.forall_mem_cons.1 hclear
    by_cases hfit : c + len ≤ a
    · exact ⟨c, hc, firstFit_cons_of_le hfit⟩
    · have hpast : a + r.len ≤ g := hr.resolve_right fun hbefore => hfit (by simp only at hbefore; omega)
      rw [firstFit_cons_of_not_le hfit]
      exact ih (max_le hc hpast) hrest

end

/-- Settles O16: a free place lower than the one found, or any free place where none is found, would have been found
itself. -/
theorem firstFitFindsTheLowestRun : Obligations.FirstFitFindsTheLowestRun := by
  intro runs len _ hp hb
  refine ⟨fun g hg => ?found, fun hnone g htop => ?none⟩
  case found =>
    have htop := firstFit_add_le_reservedGran (fun r hr => (hb r hr).2) hg
    refine ⟨htop, firstFit_clear hp hg, fun g' hlt => ?_⟩
    by_contra! hclear
    obtain ⟨g₀, hle, hg₀⟩ := exists_firstFit_le_of_clear (Nat.zero_le g') (by omega) hclear
    have : g = g₀ := Option.some_inj.1 (hg.symm.trans hg₀)
    omega
  case none =>
    by_contra! hclear
    obtain ⟨g₀, -, hg₀⟩ := exists_firstFit_le_of_clear (Nat.zero_le g) htop hclear
    exact Option.some_ne_none g₀ (hg₀.symm.trans hnone)

end Sys2Proof.Machine

/-!
PROOFS of the memory tiers and migration family: CLEAR_CNT of the HBM controllers, the near-memory engines and the pool
(O28), and every migration, HBM, near-memory and Gazetteer event (O53).
-/

namespace Sys2Proof.Machine

/-! ## Clearing counters (R226, R339) -/

section

variable {n : Node} {fs : List Fld} {b : Nat}

/-- What the register file lists after counters are cleared: none of their keys, and what it listed under the others. -/
theorem Node.mapFind?_clr_regs (n : Node) (fs : List Fld) (b k : Nat) :
    mapFind? (n.clr fs b).regs k = if ∃ g ∈ fs, g.key b = k then none else mapFind? n.regs k := by
  induction fs generalizing n with
  | nil => simp [Node.clr, forEach]
  | cons g fs ih =>
    have hrest : mapFind? (n.clr (g :: fs) b).regs k =
        if ∃ g ∈ fs, g.key b = k then none else mapFind? (mapErase n.regs (g.key b)) k :=
      ih { n with regs := mapErase n.regs (g.key b) }
    rw [hrest]
    by_cases hk : g.key b = k
    · simp [hk]
    · simp [hk, mapFind?_erase_other (Ne.symm hk)]

/-- A cleared counter reads its reset value. -/
theorem Node.rd_clr_of_mem {f : Fld} (hf : f ∈ fs) : (n.clr fs b).rd f b = f.reset := by
  have hkey : ∃ g ∈ fs, g.key b = f.key b := ⟨f, hf, rfl⟩
  rw [Node.rd, mapGetD, Node.mapFind?_clr_regs, if_pos hkey, Option.getD_none]

/-- A field that shares its key with no counter cleared reads as before. -/
theorem Node.rd_clr_other {f : Fld} {c : Nat} (h : ∀ g ∈ fs, g.key b ≠ f.key c) : (n.clr fs b).rd f c = n.rd f c := by
  have hkey : ¬∃ g ∈ fs, g.key b = f.key c := fun ⟨g, hg, heq⟩ => h g hg heq
  rw [Node.rd, mapGetD, Node.mapFind?_clr_regs, if_neg hkey, Node.rd, mapGetD]

/-- Clearing counters changes the register file only. -/
theorem Node.clr_eq (n : Node) (fs : List Fld) (b : Nat) : n.clr fs b = { n with regs := (n.clr fs b).regs } := by
  induction fs generalizing n with
  | nil => rfl
  | cons g fs ih => exact ih { n with regs := mapErase n.regs (g.key b) }

theorem Node.Quiet.clr (h : n.Quiet) (fs : List Fld) (b : Nat) : (n.clr fs b).Quiet := by
  rw [Node.clr_eq]
  exact h.regs_host rfl rfl

/-- In a quiet node a clearing of counters sets nothing off. -/
theorem State.ran_clr {s : State} (hq : s.node.Quiet) (t : Nat) (fs : List Fld) (b : Nat) :
    s.ran t (fun n => n.clr fs b) = ⟨(s.node.at t).clr fs b, s.pending⟩ := by
  have hident : ((s.node.at t).clr fs b).ident = s.node.ident := by rw [Node.clr_eq]; rfl
  rw [State.ran_of_quiet ((hq.at t).clr fs b), State.did, Node.change_eq hident]

/-- The whole effect of a command that clears counters of a quiet node. -/
theorem counters_cleared_of_ran {s : State} {t : Nat} {c : Instr} (hq : s.node.Quiet)
    (hc : exec c s = .next (s.ran t fun n => n.clr fs b)) :
    ∃ n : Node, exec c s = .next ⟨n, s.pending⟩ ∧ n = { s.node.at t with regs := n.regs } ∧
      (∀ f ∈ fs, n.rd f b = f.reset) ∧ ∀ f b', (∀ g ∈ fs, g.key b ≠ f.key b') → n.rd f b' = s.node.rd f b' :=
  ⟨(s.node.at t).clr fs b, by rw [hc, State.ran_clr hq], Node.clr_eq .., fun _ => Node.rd_clr_of_mem,
    fun _ _ => Node.rd_clr_other⟩

end

/-- Settles O28: each of the three host writes reaches its unit and there clears that unit's counters. -/
theorem countersClearAtOnce : Obligations.CountersClearAtOnce := by
  intro s t quad hq hr hd
  refine ⟨?hbmClearCnt, ?nmeClearCnt, ?poolClearCnt⟩
  case hbmClearCnt | nmeClearCnt => exact counters_cleared_of_ran hq (State.unitReg_ran t _ _ hr hd)
  case poolClearCnt => exact counters_cleared_of_ran hq (State.hostReg_ran t _ hr)

/-! ## Migration, HBM, near-memory engines and the Gazetteer (R197, R202 to R211, R214 to R226, R238, R243, R244) -/

/-- Settles O53: three host writes of a sheet's Gazetteer registers; the rest are events of a node that runs firmware, some
of them of a named quad, burst or sheet. -/
theorem memoryEventsRun : Obligations.MemoryEventsRun := by
  intro s t
  refine ⟨?migrationTile, ?moveHashVerified, ?moveSwitch, ?migTimeout, ?swapOutComplete, ?swapInComplete, ?heatDecay,
    ?t0IdleDrop, ?hbmTrainFail, ?hbmRecentre, ?hbmCorrected, ?hbmUncorrected, ?patrolStart, ?hbmRefresh, ?hbmRfm,
    ?thermalSample, ?stackSelfRefreshIdle, ?nmeOpStart, ?nmeOpComplete, ?corePathScrubDone, ?gzRuleInsert,
    ?gzRuleRemove, ?gzRespread, ?respreadNow, ?gzEntryError⟩
  case heatDecay | t0IdleDrop => exact State.live_ran t
  case moveHashVerified | moveSwitch | migTimeout | swapOutComplete | swapInComplete | nmeOpComplete |
      corePathScrubDone =>
    exact fun _ => State.live_ran t
  case migrationTile => exact fun _ _ => State.live_ran t
  case thermalSample => exact fun _ _ _ => State.live_ran t
  case patrolStart | stackSelfRefreshIdle | nmeOpStart | gzRespread => exact fun _ => State.liveUnit_ran t
  case hbmTrainFail | hbmCorrected => exact fun _ _ => State.liveUnit_ran t
  case hbmRecentre | hbmRefresh | hbmRfm => exact fun _ _ _ => State.liveUnit_ran t
  case hbmUncorrected | gzEntryError => exact fun _ _ _ _ => State.liveUnit_ran t
  case gzRuleInsert | gzRuleRemove | respreadNow => exact fun _ hr hs => State.unitReg_ran t _ _ hr hs

end Sys2Proof.Machine

/-!
PROOFS of the HBM and near-memory engines family: what a store and a zero fill do to the bytes and the poison of HBM (O14,
O15), and the count of refresh-management commands (O30).
-/

namespace Sys2Proof.Machine

/-! ## A store into HBM (R217, R321, R411) -/

/-- Bursts wholly inside the range lose their poison, no others. -/
theorem Node.mem_poison_unpoison {n : Node} {a len b : Nat} :
    b ∈ (n.unpoison a len).poison ↔ b ∈ n.poison ∧ ¬(a ≤ b * 32 ∧ b * 32 + 32 ≤ a + len) := by
  simp only [Node.unpoison, List.mem_filter, Bool.not_eq_true', ← Bool.not_eq_true, Bool.and_eq_true, decide_eq_true_eq]

/-- Settles O14: a store is a write of the bytes, which leaves the poison, and then a clearing of poison, which leaves the
bytes. -/
theorem hbmStoreReadsBack : Obligations.HbmStoreReadsBack := by
  intro n a bs hmem hpoison
  exact ⟨fun _ => Node.hbmByte_hbmWrite_inside, fun _ => Node.hbmByte_hbmWrite_outside,
    fun _ => Node.mem_poison_unpoison, Node.hbmStore_wf a bs hmem, Node.unpoison_wf a bs.length hpoison, rfl⟩

/-! ## A zero fill (R223, R456) -/

/-- A read once the entries under some keys are dropped: a key dropped reads the default. -/
theorem mapGetD_keep_keys {α : Type} {d : α} {m : Map α} {keep : Nat → Bool} {k : Nat} (h : keysRise m = true) :
    mapGetD d (mapKeep (fun j _ => keep j) m) k = if keep k = true then mapGetD d m k else d := by
  rw [mapGetD, mapFind?_keep h, mapGetD]
  cases mapFind? m k with
  | none => simp only [Option.filter, Option.getD_none, ite_self]
  | some v => simp only [Option.filter, apply_ite (Option.getD · d), Option.getD_some, Option.getD_none]

/-- The bytes of the range read 0, every other byte as before. -/
theorem Node.hbmByte_hbmZero {n : Node} (a len x : Nat) (h : Memory.wf n.hbm = true) :
    (n.hbmZero a len).hbmByte x = if a ≤ x ∧ x < a + len then 0 else n.hbmByte x := by
  have hread : (n.hbmZero a len).hbmByte x =
      if (decide (x < a) || decide (a + len ≤ x)) = true then n.hbmByte x else 0 :=
    mapGetD_keep_keys (keep := fun j => decide (j < a) || decide (a + len ≤ j)) (mapWf_iff.mp h).1
  have hout : (decide (x < a) || decide (a + len ≤ x)) = true ↔ ¬(a ≤ x ∧ x < a + len) := by
    simp only [Bool.or_eq_true, decide_eq_true_eq]
    omega
  rw [hread, if_congr hout rfl rfl, ite_not]

/-- The bursts that end before the range or begin after it keep their poison, no others. -/
theorem Node.mem_poison_hbmZero {n : Node} {a len b : Nat} :
    b ∈ (n.hbmZero a len).poison ↔ b ∈ n.poison ∧ (b * 32 + 32 ≤ a ∨ a + len ≤ b * 32) := by
  simp only [Node.hbmZero, List.mem_filter, Bool.or_eq_true, decide_eq_true_eq]

/-- Settles O15. -/
theorem hbmZeroClearsARange : Obligations.HbmZeroClearsARange := by
  intro n a len hmem
  exact ⟨fun x => Node.hbmByte_hbmZero a len x hmem, fun _ => Node.mem_poison_hbmZero, Node.hbmZero_wf a len hmem⟩

/-! ## Refresh management (R218) -/

/-- A counter counts up to the greatest value of its width and stays there. -/
theorem Node.rd_inc_same (n : Node) (f : Fld) (b k : Nat) :
    (n.inc f b k).rd f b = min (n.rd f b + k) (2 ^ f.width - 1) := mapGetD_set_same ..

theorem Node.rd_inc_other {n : Node} {f g : Fld} {b c k : Nat} (h : f.key b ≠ g.key c) :
    (n.inc g c k).rd f b = n.rd f b := by
  simp only [Node.rd, mapGetD, Node.inc_regs, mapFind?_set_other h]

/-- In a quiet node that runs firmware, an RFM command at a quad it has counts, and that is all. -/
theorem exec_hbmRfm_of_quiet {s : State} {quad : Nat} (t channel bank : Nat) (hq : s.node.Quiet)
    (ha : s.node.awake = true) (hd : s.node.hasQuad quad = true) :
    exec (.hbmRfm t quad channel bank) s = .next ⟨(s.node.at t).inc R.HBM_RFM_CNT_RFM (quadBase quad) 1, s.pending⟩ := by
  have hrun : exec (.hbmRfm t quad channel bank) s = .next (s.ran t fun n => n.rfm quad) := State.liveUnit_ran t ha hd
  rw [hrun, State.ran_of_quiet ((hq.at t).recorded (Node.recorded_inc ..))]
  rfl

/-- Settles O30. -/
theorem refreshManagementIsCounted : Obligations.RefreshManagementIsCounted := by
  intro s t quad channel bank hq ha hd
  exact ⟨_, exec_hbmRfm_of_quiet t channel bank hq ha hd, rfl, (s.node.at t).rd_inc_same .., fun _ _ => Node.rd_inc_other⟩

end Sys2Proof.Machine

/-!
PROOFS of the Gazetteer family: a rule the Gazetteer does not take is refused (O37).
-/

namespace Sys2Proof.Machine

/-! ## The end of a rule operation (R239, R244) -/

/-- Nothing in a slice of the Gazetteer sets anything off. -/
theorem Node.Quiet.modSlice {n : Node} (h : n.Quiet) (sheet : Nat) (f : SliceSt → SliceSt) :
    (n.modSlice sheet f).Quiet where
  loop := h.loop
  inbox := h.inbox
  done := h.done
  boxes := h.boxes
  level1 := h.level1
  level2 := h.level2
  level3 := h.level3
  flush := h.flush
  milestones := h.milestones
  reads := h.reads

theorem Node.Quiet.ruleResult {n : Node} (h : n.Quiet) (sheet result : Nat) (index moves : Option Nat) :
    (n.ruleResult sheet result index moves).Quiet := h.modSlice ..

/-! ## Inserting a rule (R237, R239) -/

/-- A bad rule is refused before the section is looked at. -/
theorem Node.ruleInsert_of_bad {n : Node} {sheet : Nat} (hbad : (n.cmdRule sheet).bad = true) :
    n.ruleInsert sheet = n.ruleResult sheet 3 none none := if_pos hbad

/-- GO with OP INSERT starts the insertion when no rule operation runs. -/
theorem Node.ruleGo_insert_of_idle {n : Node} {sheet : Nat} (hidle : n.ruleBusy sheet = false) :
    n.ruleGo sheet 1 = n.ruleInsert sheet := if_neg (Bool.eq_false_iff.mp hidle)

/-- Settles O37: the write of GO reaches the idle rule engine, whose answer to a bad rule is RESULT alone, which sets nothing
off. -/
theorem badRuleIsRefused : Obligations.BadRuleIsRefused := by
  intro s t sheet hq hr hs hbad hidle
  have hgo : (s.node.at t).ruleGo sheet 1 = (s.node.at t).ruleResult sheet 3 none none :=
    (Node.ruleGo_insert_of_idle hidle).trans (Node.ruleInsert_of_bad hbad)
  have hquiet : ((s.node.at t).ruleGo sheet 1).Quiet := hgo ▸ (hq.at t).ruleResult ..
  calc exec (.gzRuleInsert t sheet) s
      = .next (s.ran t fun n => n.ruleGo sheet 1) := State.unitReg_ran t _ _ hr hs
    _ = .next (s.did t fun n => n.ruleGo sheet 1) := congrArg _ (State.ran_of_quiet hquiet)
    _ = .next (s.did t fun n => n.ruleResult sheet 3 none none) := congrArg _ (State.did_congr hgo)

end Sys2Proof.Machine

/-!
PROOFS of the fabric family: every event of a port, a link or a lock completes (O54), and the old key of a link is erased at
its time (O39).
-/

namespace Sys2Proof.Machine

/-! ## Frames, links, lanes, locks and keys (R246, R248, R254 to R258, R260, R267, R268) -/

/-- Settles O54: events of a node that runs firmware, all but the gap of a lock those of a named port. -/
theorem linkEventsRun : Obligations.LinkEventsRun := by
  intro s t
  refine ⟨?frameReceived, ?egressFrameSend, ?linkFrameSend, ?linkFrame, ?retryTimeout, ?linkIdleTimeout, ?laneFault,
    ?portTrained, ?lockGapTimeout, ?hello, ?finish, ?keyExchangeTimeout, ?keyExchangeRetry, ?rekeyTrigger, ?keyAgeLimit,
    ?oldKeyErase, ?neighborSolicitation⟩
  case lockGapTimeout => exact fun _ => State.live_ran t
  case egressFrameSend | linkFrameSend | retryTimeout | linkIdleTimeout => exact fun _ => State.liveUnit_ran t
  case frameReceived | linkFrame | laneFault | keyExchangeTimeout | keyExchangeRetry | rekeyTrigger | keyAgeLimit |
      oldKeyErase =>
    exact fun _ _ => State.liveUnit_ran t
  case hello | finish | neighborSolicitation => exact fun _ _ _ => State.liveUnit_ran t
  case portTrained => exact fun _ _ _ _ => State.liveUnit_ran t

/-! ## The end of an old key (R268) -/

/-- Nothing in a port's own state sets anything off. -/
theorem Node.Quiet.modPort {n : Node} (h : n.Quiet) (p : Nat) (f : PortSt → PortSt) : (n.modPort p f).Quiet where
  loop := h.loop
  inbox := h.inbox
  done := h.done
  boxes := h.boxes
  level1 := h.level1
  level2 := h.level2
  level3 := h.level3
  flush := h.flush
  milestones := h.milestones
  reads := h.reads

theorem Node.Quiet.modAssoc {n : Node} (h : n.Quiet) (p e : Nat) (f : Assoc → Assoc) : (n.modAssoc p e f).Quiet :=
  h.modPort ..

/-- An association whose old key has no end of acceptance keeps it. -/
theorem Node.oldKeyErase_of_none {n : Node} {p e : Nat} (h : (n.assoc p e).oldUntil = none) : n.oldKeyErase p e = n := by
  simp only [Node.oldKeyErase, h]

/-- The old key goes once its end of acceptance has come, and nothing else of the node. -/
theorem Node.oldKeyErase_of_some {n : Node} {p e u : Nat} (h : (n.assoc p e).oldUntil = some u) :
    n.oldKeyErase p e =
      if u ≤ n.now then n.modAssoc p e fun a => { a with oldLive := false, oldUntil := none, oldKey := [] } else n := by
  simp only [Node.oldKeyErase, h]

theorem Node.Quiet.oldKeyErase {n : Node} (h : n.Quiet) (p e : Nat) : (n.oldKeyErase p e).Quiet := by
  cases hu : (n.assoc p e).oldUntil with
  | none => rwa [Node.oldKeyErase_of_none hu]
  | some u =>
    rw [Node.oldKeyErase_of_some hu]
    split
    · exact h.modAssoc ..
    · exact h

/-- Settles O39: erasing a key leaves a quiet node quiet, so the event is that erasure alone, or nothing before its time. -/
theorem oldKeyIsErasedInTime : Obligations.OldKeyIsErasedInTime := by
  intro s t port peer hq ha hp
  have hrun : exec (.oldKeyErase t port peer) s = .next (s.ran t fun n => n.oldKeyErase port peer) :=
    State.liveUnit_ran t ha hp
  rw [hrun, State.ran_of_quiet ((hq.at t).oldKeyErase port peer)]
  refine congrArg _ (State.did_congr ?_)
  cases hu : ((s.node.at t).assoc port peer).oldUntil with
  | none => exact Node.oldKeyErase_of_none hu
  | some u => exact Node.oldKeyErase_of_some hu

end Sys2Proof.Machine

/-!
PROOFS of the Courier transport family: every event of a queue pair, a context or a lease completes (O55), and the count
of consumed messages never goes back (O36).
-/

namespace Sys2Proof.Machine

/-! ## Queue pairs, contexts, leases and extents (R277, R278, R287 to R290, R294 to R298, R333, R335, R336) -/

/-- The host's write of CR_QP_FREED reaches the queue pair, on whichever sheet the pair is. -/
theorem exec_crQpFreedWrite_reached {s : State} (t qpn value : Nat) (hr : s.node.hostReach = true) :
    exec (.crQpFreedWrite t qpn value) s = .next (s.ran t fun n => n.qpFreed qpn value) :=
  congrArg _ (State.ran_congr (Node.windowWrite_reached (n := s.node.at t) hr))

/-- Settles O55: one host write; the rest are events of a node that runs firmware. -/
theorem courierAndPoolEventsRun : Obligations.CourierAndPoolEventsRun := by
  intro s t
  refine ⟨?qpLifetimeWaitEnd, ?waitTimeout, ?orderedCloseSend, ?closeAckTimeout, ?ackDelayTimeout, ?courierRto,
    ?rnrRetry, ?courierPace, ?pathResume, ?contextFetched, ?contextUe, ?nodeQpIdle, ?crQpFreedWrite, ?renewTimeout,
    ?leaseExpiry, ?extentDrained⟩
  case crQpFreedWrite => exact exec_crQpFreedWrite_reached t
  case courierRto | rnrRetry | pathResume => exact fun _ _ => State.live_ran t
  case qpLifetimeWaitEnd | waitTimeout | orderedCloseSend | closeAckTimeout | ackDelayTimeout | courierPace |
      contextFetched | contextUe | nodeQpIdle | renewTimeout | leaseExpiry | extentDrained =>
    exact fun _ => State.live_ran t

/-! ## Freed receive slots (R278, R299; log entry 106) -/

/-- Nothing in a queue pair's own state sets anything off. -/
theorem Node.Quiet.modQp {n : Node} (h : n.Quiet) (q : Nat) (f : QpSt → QpSt) : (n.modQp q f).Quiet where
  loop := h.loop
  inbox := h.inbox
  done := h.done
  boxes := h.boxes
  level1 := h.level1
  level2 := h.level2
  level3 := h.level3
  flush := h.flush
  milestones := h.milestones
  reads := h.reads

/-- A count that stands is kept and makes an acknowledgement due, unless an earlier one is due already. -/
theorem Node.qpFreed_eq (n : Node) (q value : Nat) :
    n.qpFreed q value =
      if (n.qp q).st = .free ∨ value % 2 ^ 64 < (n.qp q).freed then n
      else n.modQp q fun s => { s with freed := value % 2 ^ 64, ackAt := some (s.ackAt.getD n.now) } := by
  refine if_congr Iff.rfl rfl (congrArg (n.modQp q) (funext fun s => ?_))
  cases hs : s.ackAt with
  | none => simp only [Option.getD_none]
  | some u => simp only [Option.getD_some]

theorem Node.Quiet.qpFreed {n : Node} (h : n.Quiet) (q value : Nat) : (n.qpFreed q value).Quiet := by
  rw [Node.qpFreed_eq]
  split
  · exact h
  · exact h.modQp ..

/-- Settles O36: the write leaves a quiet node quiet, so what it does to the queue pair is its whole effect. -/
theorem consumedCountFreesReceiveSlots : Obligations.ConsumedCountFreesReceiveSlots := by
  intro s t qpn v hq hr
  rw [exec_crQpFreedWrite_reached t qpn v hr, State.ran_of_quiet ((hq.at t).qpFreed qpn v)]
  exact congrArg _ (State.did_congr (Node.qpFreed_eq ..))

end Sys2Proof.Machine

/-!
PROOFS of the power states family: an Off node keeps its MRAM and leaves Off by POWER_GOOD_RISE alone (O10).
-/

namespace Sys2Proof.Machine

/-! ## Parts of the node that set nothing off -/

/-- Registers, MRAM, cores, the security state, the SPDM and PLDM responders, power, the debug port and the free values
used set nothing off. -/
theorem Node.Quiet.inert {n : Node} (h : n.Quiet) {regs mram cores sec spdm power dbg pldm freeCtr} :
    ({ n with regs := regs, mram := mram, cores := cores, sec := sec, spdm := spdm, power := power, dbg := dbg, pldm := pldm,
              freeCtr := freeCtr } : Node).Quiet where
  loop := h.loop
  inbox := h.inbox
  done := h.done
  boxes := h.boxes
  level1 := h.level1
  level2 := h.level2
  level3 := h.level3
  flush := h.flush
  milestones := h.milestones
  reads := h.reads

/-- The milestones are those of a node that runs firmware (R450). -/
theorem Node.milestonesSet_of_not_awake {n : Node} (h : n.awake = false) : n.milestonesSet = true := by
  rw [Node.milestonesSet, h]; rfl

theorem Node.awake_of_no_power {n : Node} (h : n.pins.pwrGood = false) : n.awake = false := by
  rw [Node.awake, h]; rfl

/-- A bare node holds nothing that could be set off. -/
theorem Node.bare_quiet (n : Node) : n.bare.Quiet where
  loop := rfl
  inbox := rfl
  done := rfl
  boxes _ := ⟨rfl, rfl⟩
  level1 := rfl
  level2 := rfl
  level3 := rfl
  flush := rfl
  milestones := Bool.or_true _
  reads := rfl

/-! ## Power off (R390, R469) -/

section

variable {n : Node}

theorem Node.Off.awake (h : n.Off) : n.awake = false := Node.awake_of_no_power h.power

theorem Node.Off.hostReach (h : n.Off) : n.hostReach = false := by
  rw [Node.hostReach, h.awake]; rfl

/-- Without power a node is bare exactly as far as Off asks. -/
theorem Node.bare_off (hp : n.pins.pwrGood = false) : n.bare.Off where
  power := hp
  boot := rfl
  link := rfl
  warm := rfl
  token := ⟨rfl, rfl, rfl⟩
  quiet := n.bare_quiet

theorem Node.Off.modDebug (h : n.Off) (f : DebugSt → DebugSt) : (n.modDebug f).Off where
  power := h.power
  boot := h.boot
  link := h.link
  warm := h.warm
  token := h.token
  quiet := h.quiet.inert

theorem Node.Off.fresh (h : n.Off) : n.fresh.2.Off where
  power := h.power
  boot := h.boot
  link := h.link
  warm := h.warm
  token := h.token
  quiet := h.quiet.inert

theorem Node.Off.at (h : n.Off) (t : Nat) : (n.at t).Off where
  power := h.power
  boot := h.boot
  link := h.link
  warm := h.warm
  token := h.token
  quiet := h.quiet.at t

/-- Of the pins only PWR_GOOD counts. -/
theorem Node.Off.modPins (h : n.Off) {f : PinSt → PinSt} (hf : (f n.pins).pwrGood = n.pins.pwrGood) : (n.modPins f).Off where
  power := hf.trans h.power
  boot := h.boot
  link := h.link
  warm := h.warm
  token := h.token
  quiet :=
    { loop := h.quiet.loop, inbox := h.quiet.inbox, done := h.quiet.done, boxes := h.quiet.boxes, level1 := h.quiet.level1,
      level2 := h.quiet.level2, level3 := h.quiet.level3, flush := h.quiet.flush, reads := h.quiet.reads,
      milestones := Node.milestonesSet_of_not_awake (Node.awake_of_no_power (hf.trans h.power)) }

/-- PWR_GOOD falling leaves any node Off. -/
theorem Node.powerOff_off (n : Node) : n.powerOff.Off :=
  (Node.bare_off (n := n.modPins fun p => { p with pwrGood := false, pwrcycLow := false }) rfl).modDebug _

end

theorem Node.loadIr_of_no_power {n : Node} {code outputs dr : Nat} {ok : Bool} (hp : n.pins.pwrGood = false) :
    n.loadIr code ok outputs dr = n := by simp [Node.loadIr, hp]

/-! ## Effects that keep a node Off -/

/-- The effect leaves an Off node Off and its MRAM as it is. -/
def Node.KeepsOff (f : Node → Node) : Prop := ∀ n : Node, n.Off → (f n).Off ∧ (f n).mram = n.mram

namespace Node.KeepsOff

variable {f g : Node → Node}

theorem of_eq (h : ∀ n : Node, n.Off → f n = n) : KeepsOff f := by
  intro n ho
  rw [h n ho]
  exact ⟨ho, rfl⟩

theorem comp_at (h : KeepsOff f) (t : Node → Nat) : KeepsOff fun n => f (n.at (t n)) :=
  fun n ho => h (n.at (t n)) (ho.at (t n))

/-- Nothing follows an event that leaves the node Off. -/
theorem settle (h : KeepsOff f) : KeepsOff fun n => (f n).settle := by
  intro n ho
  obtain ⟨hoff, hmram⟩ := h n ho
  simp only [hoff.quiet.settle]
  exact ⟨hoff, hmram⟩

theorem event (h : KeepsOff f) {t : Nat} : KeepsOff fun n => n.event t f := (h.comp_at fun _ => t).settle

theorem atMs (h : KeepsOff f) {ms : Nat} : KeepsOff fun n => f (n.atMs ms) := h.comp_at _

theorem ite {c : Prop} [Decidable c] (hf : KeepsOff f) (hg : KeepsOff g) : KeepsOff fun n => if c then f n else g n := by
  split
  · exact hf
  · exact hg

/-! ### What asks for power, firmware or the host -/

/-- What is done only under a condition that fails while Off is not done. -/
theorem when {c : Node → Bool} {f : Node → Node → Node} (hc : ∀ n : Node, n.Off → c n = false) :
    KeepsOff fun n => n.when (c n) (f n) := of_eq fun n ho => by rw [hc n ho, Node.when_false]

theorem whenAwake : KeepsOff fun n => n.when n.awake f := when fun _ => Node.Off.awake

theorem whenHostReach : KeepsOff fun n => n.when n.hostReach f := when fun _ => Node.Off.hostReach

theorem whenPortHands {p : Nat} : KeepsOff fun n => n.when (n.portHands p) f :=
  when fun n ho => by rw [Node.portHands, ho.awake]; rfl

theorem whenSpdmReady {f : Node → Node → Node} : KeepsOff fun n => n.when n.spdmReady (f n) :=
  when fun n ho => by rw [Node.spdmReady, ho.power]; rfl

theorem windowWrite {r : Fld} {base : Node → Nat} {present : Node → Bool} {f : Node → Node → Node} :
    KeepsOff fun n => n.windowWrite r (base n) (present n) (f n) := of_eq fun n ho => by simp [Node.windowWrite, ho.link]

theorem registerWrite {a width v : Nat} : KeepsOff fun n => n.registerWrite a width v :=
  of_eq fun n ho => by simp [Node.registerWrite, ho.link]

theorem read32 {a : Nat} : KeepsOff fun n => n.read32 a := of_eq fun n ho => by simp [Node.read32, ho.link]

theorem tickBoundary : KeepsOff Node.tickBoundary := of_eq fun n ho => by simp [Node.tickBoundary, ho.awake]

/-! ### The SPDM responder over its connections (R372) -/

theorem whenSpdmLink (h : KeepsOff f) {conn : Nat} : KeepsOff fun n => n.when (n.spdmLink conn) f := by
  intro n ho
  beta_reduce
  unfold Node.when
  split
  · exact h n ho
  · exact ⟨ho, rfl⟩

theorem spdmReq {conn : Nat} {m : SpdmReq} : KeepsOff fun n => n.spdmReq conn m f := .whenSpdmReady

theorem inSession {conn session : Nat} {m : SpdmReq} : KeepsOff fun n => n.inSession conn session m f := .spdmReq

theorem vendorRequest {conn session vendor code : Nat} {m : SpdmReq} :
    KeepsOff fun n => n.vendorRequest conn session vendor code m :=
  .ite .spdmReq (.ite (.ite .spdmReq .inSession) .spdmReq)

/-! ### The test access port and the debug bus (R397, R400) -/

theorem loadIr {code outputs : Nat} {ok : Node → Bool} {dr : Node → Nat} :
    KeepsOff fun n => n.loadIr code (ok n) outputs (dr n) := of_eq fun _ ho => Node.loadIr_of_no_power ho.power

/-- What the boundary register captures is a free value, whether or not the instruction is loaded. -/
theorem loadIr_boundaryCapture {n : Node} (ho : n.Off) {code outputs dr : Nat} {ok : Bool} :
    (n.boundaryCapture.2.loadIr code ok outputs dr).Off ∧ (n.boundaryCapture.2.loadIr code ok outputs dr).mram = n.mram := by
  have hcaptured : n.boundaryCapture.2.Off := ho.fresh
  rw [Node.loadIr_of_no_power hcaptured.power]
  exact ⟨hcaptured, rfl⟩

theorem extest : KeepsOff Node.extest := fun _ ho => loadIr_boundaryCapture ho

theorem samplePreload : KeepsOff Node.samplePreload := fun _ ho => loadIr_boundaryCapture ho

theorem dbAccess {space v : Nat} {a next : Node → Nat} {write : Bool} :
    KeepsOff fun n => n.dbAccess space (a n) (next n) write v := of_eq fun n ho => by simp [Node.dbAccess, ho.power]

/-! ### The steps of start-up, which no start has begun (R450 to R457) -/

theorem firmwareVerified {image : Option Bytes} : KeepsOff fun n => n.firmwareVerified image :=
  of_eq fun n ho => if_pos (by rw [ho.boot]; rfl)

theorem unsealDone {pufOk ownerOk stateOk : Bool} : KeepsOff fun n => n.unsealDone pufOk ownerOk stateOk :=
  of_eq fun n ho => if_pos (by rw [ho.boot]; rfl)

theorem sheetPowerUp {sheet : Nat} {railsOk linksOk : Bool} : KeepsOff fun n => n.sheetPowerUp sheet railsOk linksOk :=
  of_eq fun n ho => by simp [Node.sheetPowerUp, ho.warm, ho.awake]

theorem hbmTrained {channels : List ChMargins} : KeepsOff fun n => n.hbmTrained channels :=
  of_eq fun n ho => if_pos (by rw [ho.boot]; rfl)

theorem hbmInitDone {failed : List Nat} : KeepsOff fun n => n.hbmInitDone failed :=
  of_eq fun n ho => if_pos (by rw [ho.boot]; rfl)

theorem systemLayoutDone : KeepsOff Node.systemLayoutDone :=
  of_eq fun n ho => if_pos (by rw [ho.boot]; rfl)

/-! ### Reset, power and the thermal trip (R390, R423, R476) -/

theorem powerOff : KeepsOff Node.powerOff := fun n _ => ⟨n.powerOff_off, rfl⟩

theorem nodeReset {low : Bool} : KeepsOff fun n => n.nodeReset low := by
  intro n ho
  simp only [Node.nodeReset, Node.modPins_pins, ho.power, Bool.false_eq_true, if_false]
  split
  · exact ⟨ho, rfl⟩
  split
  · exact ⟨Node.bare_off ho.power, rfl⟩
  · exact ⟨ho.modPins rfl, rfl⟩

theorem thermtrip {sensor celsius : Nat} : KeepsOff fun n => n.thermtrip sensor celsius := by
  intro n ho
  beta_reduce
  unfold Node.thermtrip
  extract_lets limit
  split
  · exact ⟨ho.modPins rfl, rfl⟩
  · exact ⟨ho, rfl⟩

theorem thermtripRelease : KeepsOff Node.thermtripRelease := by
  intro n ho
  simp only [Node.thermtripRelease, ho.power, Bool.false_eq_true, if_false]
  exact ⟨ho.modPins rfl, rfl⟩

end Node.KeepsOff

/-! ## Every command but POWER_GOOD_RISE -/

theorem Node.Off.ident {n : Node} (h : n.Off) (i : Ident) : ({ n with ident := i } : Node).Off where
  power := h.power
  boot := h.boot
  link := h.link
  warm := h.warm
  token := h.token
  quiet :=
    { loop := h.quiet.loop, inbox := h.quiet.inbox, done := h.quiet.done, boxes := h.quiet.boxes, level1 := h.quiet.level1,
      level2 := h.quiet.level2, level3 := h.quiet.level3, flush := h.quiet.flush, milestones := h.quiet.milestones,
      reads := h.quiet.reads }

/-- The form of a command (`exec_shape`) with what an Off node makes of it: most ask for firmware, for the host's link or for
power, and the few that do not leave the node Off. -/
theorem exec_keepsOff (c : Instr) (hc : ∀ t, c ≠ .powerGoodRise t) (s : State) :
    ∃ f : Node → Node, exec c s = s.onUnit (commandFits s.node c) f ∧ Node.KeepsOff f := by
  cases c
  case collectionCutoff | timeExchangeSend | ppsInEdge | ppsMissing | ppsOutPulse | upstreamAttemptTimeout |
      holdoverLimitExceeded | mergeCutoff | tombstoneExpiry | refusalEntryExpiry | sealHashDone | migrationTile |
      moveHashVerified | moveSwitch | migTimeout | swapOutComplete | swapInComplete | heatDecay | t0IdleDrop |
      thermalSample | nmeOpComplete | lockGapTimeout | qpLifetimeWaitEnd | waitTimeout | orderedCloseSend |
      closeAckTimeout | ackDelayTimeout | courierRto | rnrRetry | courierPace | pathResume | contextFetched |
      contextUe | nodeQpIdle | ucieLinkUp | ucieModuleDown | ucieLinkDown | ideFailure | recallTimeout |
      heartbeatCheck | renewTimeout | leaseExpiry | extentDrained | chartVerifyDone | overlayStaged | overlaySwitch |
      redirectRetirement | tokenExpiry | railSettled | railSettleTimeout | powerSample | holdTick | breakpointTime |
      fatalResetDelay | hubWatchdog | resetEscalation | warmRestartDone | abortWindowEnd | ucieMarginSample |
      surveyRecord | bucketRefill | histogramFlush | surveyReadDone | getTid | getPldmVersion | getPldmTypes |
      getPldmCommands | getPdr | getSensorReading | getStateSensorReadings | setEventReceiver |
      setNumericEffecterValue | setStateEffecterStates | readyTimeout | lowerTreeGenerated | corePathScrubDone |
      timeExchange | exchangeMissed | ptpMessage | ptpSyncSend | d2dReplayTimeout | letterShare | routeCacheWalk |
      runAheadFetch | pageStaged | stageFromLowerTier | passStart | passComplete | spadError | stagingError | coreHang
      | coreResetTimeout | hbmTrainFail | hbmRecentre | hbmCorrected | hbmUncorrected | patrolStart | hbmRefresh |
      hbmRfm | stackSelfRefreshIdle | nmeOpStart | gzRespread | gzEntryError | frameReceived | egressFrameSend |
      linkFrameSend | linkFrame | retryTimeout | linkIdleTimeout | laneFault | portTrained | hello | finish |
      keyExchangeTimeout | rekeyTrigger | keyAgeLimit | oldKeyErase | neighborSolicitation | irqHoldoffEnd |
      quadClearDone | sheetDoze | sheetWakeDone | fatalError | sheetHang | eyeMonitorSample | guardBandSample | katDue
      | katComplete | keyExchangeRetry | delayRequestSend =>
    exact ⟨_, rfl, .event .whenAwake⟩
  case attend | append | attendFwd | partialFrame | replyFrame | offer | accept | verified | commit | committed |
      cancel | reject | deadLetter | write | readReq | readResp | send | fetchAdd | compareSwap | atomicResp | ack |
      nak | close | closeAck | renew | renewed | refusedAnswer | hold | release | holdStep | abort | alarmFrame =>
    exact ⟨_, rfl, .event .whenPortHands⟩
  case hdmRead | hdmWrite | bisnpResponse => exact ⟨_, rfl, .event .whenHostReach⟩
  case seqOpen | seqClose | pageAlloc | pageFree | pin | unpin | hintHot | hintCold | hintShare | migrate | nmeFill |
      nmeCopy | nmeCompare | nmeReduce | qpCreate | qpConnect | qpReset | qpDestroy | crWrite | crRead | crSend |
      crFetchAdd | crCompareSwap | crWait | keyRegister | keyRevoke | nop | hostAppend | hostAttend | extentGrant |
      extentRenew | extentWithdraw | overlayApply | partitionCreate | partitionDestroy | partitionScrub | resetLevel1
      | resetLevel2 | resetLevel3 | resetLevel4 | resetLevel5 | surveyRead | doorbell | cplFreeWrite | rrFreeWrite |
      pbEnable | pbDisable | pbReset | hpHeartbeat | adopt | t3WindowEnable | chartLoad | own | secReturn |
      reprovision | debugToken | debugLower | advance | park | standby | opLimit | rstCtlGo | abortSend | releaseAll |
      releaseOne | alertClear | ringReadAdvance | flush | poolClearCnt | svyClearCnt | gzRuleInsert | gzRuleRemove |
      respreadNow | crQpFreedWrite | coreFence | unfence | coreClearCnt | soClearCnt | demoteAll | xlClearCnt |
      flushRc | migClearCnt | pause | hbmClearCnt | patrolNow | nmeClearCnt | gzClearCnt | portClearCnt | retrain |
      rekey | crClearCnt =>
    exact ⟨_, rfl, .event .windowWrite⟩
  case getVersion | getCapabilities | negotiateAlgorithms => exact ⟨_, rfl, .event (.whenSpdmLink .whenSpdmReady)⟩
  case getDigests | getCertificate | challenge | getMeasurements | keyExchange | spdmFinish =>
    exact ⟨_, rfl, .event (.whenSpdmLink .spdmReq)⟩
  case spdmHeartbeat | keyUpdate | endSession => exact ⟨_, rfl, .event (.whenSpdmLink .inSession)⟩
  case vendorDefinedRequest => exact ⟨_, rfl, .event (.whenSpdmLink .vendorRequest)⟩
  case extest => exact ⟨_, rfl, .event .extest⟩
  case samplePreload => exact ⟨_, rfl, .event .samplePreload⟩
  case idcode | clamp | highz | dbgAccess | bypass => exact ⟨_, rfl, .event .loadIr⟩
  case dbgRead | dbgWrite | readInc | writeInc | halt | resume | stepTick => exact ⟨_, rfl, .event .dbAccess⟩
  case firmwareVerified => exact ⟨_, rfl, .event (.atMs .firmwareVerified)⟩
  case unsealDone => exact ⟨_, rfl, .event (.atMs .unsealDone)⟩
  case sheetPowerUp => exact ⟨_, rfl, .event (.atMs .sheetPowerUp)⟩
  case hbmTrained => exact ⟨_, rfl, .event (.atMs .hbmTrained)⟩
  case hbmInitDone => exact ⟨_, rfl, .event (.atMs .hbmInitDone)⟩
  case systemLayoutDone => exact ⟨_, rfl, .event (.atMs .systemLayoutDone)⟩
  case registerWrite => exact ⟨_, rfl, .event .registerWrite⟩
  case lowHalfRead => exact ⟨_, rfl, .event .read32⟩
  case powerOff => exact ⟨_, rfl, .event .powerOff⟩
  case nodeReset => exact ⟨_, rfl, .event .nodeReset⟩
  case thermtrip => exact ⟨_, rfl, .event .thermtrip⟩
  case thermtripRelease => exact ⟨_, rfl, .event .thermtripRelease⟩
  case tickBoundary => exact ⟨_, rfl, .settle .tickBoundary⟩
  case powerGoodRise t => exact absurd rfl (hc t)

/-- Settles O10: power falling leaves a bare node, and of the other commands none but POWER_GOOD_RISE changes that. -/
theorem offIsLeftOnlyByStartUp : Obligations.OffIsLeftOnlyByStartUp := by
  refine ⟨fun s t => ?falls, fun c s s' hc ho hexec => ?stays⟩
  case falls =>
    have hrun : s.ran t Node.powerOff = s.did t Node.powerOff := State.ran_of_quiet (s.node.at t).powerOff_off.quiet
    refine ⟨(s.did t Node.powerOff).node, ?_, (Node.powerOff_off _).ident _, rfl, rfl, rfl, rfl, rfl, rfl, rfl⟩
    calc exec (.powerOff t) s = .next (s.ran t Node.powerOff) := State.at_ran s t Node.powerOff
      _ = _ := congrArg _ hrun
  case stays =>
    obtain ⟨f, hf, hkeeps⟩ := exec_keepsOff c hc s
    obtain ⟨-, rfl⟩ := State.onUnit_next (hf.symm.trans hexec)
    obtain ⟨hoff, hmram⟩ := hkeeps s.node ho
    exact ⟨hoff.ident _, hmram⟩

end Sys2Proof.Machine

/-!
PROOFS of the host port family: the queue of waiting commands (O1, O3, O8), how post boxes fetch what the host posts (O32,
O34, O35), and the host's own registers and reads (O17, O31, O33).
-/

namespace Sys2Proof.Machine

/-! ## The queue (R304; log entry 2) -/

/-- Settles O1. -/
theorem stepRunsTheFrontCommand : Obligations.StepRunsTheFrontCommand := fun _ _ _ => rfl

/-- Settles O3: the one law of `exec` asks the node alone whether the command fits and what it does. -/
theorem execIgnoresTheQueue : Obligations.ExecIgnoresTheQueue := by
  intro c n q q'
  obtain ⟨f, hf⟩ := exec_shape c n
  rw [hf q, hf q', State.onUnit_eq, State.onUnit_eq]
  cases commandFits n c with
  | false => rfl
  | true => rfl

theorem core_run_of_fault {k : Nat} {s : State} {r : Fault} (h : step s = .fault r) :
    Sys2Proof.core.run (k + 1) s = .fault r := by
  have h' : Sys2Proof.core.step s = .fault r := h
  simp only [Host.Core.run, h']

/-- Settles O8, by induction on the commands of the front: each runs with the others behind it as it runs alone. -/
theorem commandsRunInArrivalOrder : Obligations.CommandsRunInArrivalOrder := by
  intro cs rest
  induction cs with
  | nil => exact fun _ => rfl
  | cons c cs ih =>
    intro n
    have hstep : step ⟨n, c :: (cs ++ rest)⟩ = exec c ⟨n, cs ++ rest⟩ := stepRunsTheFrontCommand c (cs ++ rest) n
    obtain ⟨f, hf⟩ := exec_shape c n
    rw [hf, State.onUnit_eq] at hstep
    rw [runAll, hf rest, State.onUnit_eq]
    cases hfits : commandFits n c with
    | true =>
      rw [hfits, if_pos rfl] at hstep
      exact (core_run_succ hstep).trans (ih (n.change f))
    | false =>
      rw [hfits, if_neg Bool.false_ne_true] at hstep
      exact core_run_of_fault hstep

/-- An event that keeps the identity and sets nothing off is its effect on the node at its time. -/
theorem State.did_eq {s : State} {t : Nat} {f : Node → Node} (h : (f (s.node.at t)).ident = s.node.ident) :
    s.did t f = ⟨f (s.node.at t), s.pending⟩ := by
  have hchange : s.node.change (fun n => f (n.at t)) = f (s.node.at t) := Node.change_eq h
  rw [State.did, hchange]

/-! ## Post boxes as state -/

section

variable {n : Node} {b : Nat}

@[simp] theorem Node.box_modBox_same (n : Node) (b : Nat) (f : BoxSt → BoxSt) : (n.modBox b f).box b = f (n.box b) :=
  mapGet_mod_same ..

theorem Node.box_modBox_other {c : Nat} {f : BoxSt → BoxSt} (h : c ≠ b) : (n.modBox b f).box c = n.box c :=
  mapGet_mod_other h

/-- Of a change of a box only its value on the box counts. -/
theorem Node.modBox_congr {f g : BoxSt → BoxSt} (h : f (n.box b) = g (n.box b)) : n.modBox b f = n.modBox b g := by
  have hmod : mapMod n.host.boxes b f = mapMod n.host.boxes b g := congrArg (mapSet n.host.boxes b) h
  rw [Node.modBox, Node.modBox, hmod]

/-! What asks nothing of a box is what it was after a change of one. -/

section

variable (n : Node) (b c : Nat) (f : BoxSt → BoxSt)

@[simp] theorem Node.rd_modBox (r : Fld) (base : Nat) : (n.modBox b f).rd r base = n.rd r base := rfl

@[simp] theorem Node.modBox_host_link : (n.modBox b f).host.link = n.host.link := rfl

@[simp] theorem Node.poisoned_modBox (a len : Nat) : (n.modBox b f).poisoned a len = n.poisoned a len := rfl

@[simp] theorem Node.boxFrozen_modBox : (n.modBox b f).boxFrozen c = n.boxFrozen c := rfl

@[simp] theorem Node.boxOwner_modBox : (n.modBox b f).boxOwner c = n.boxOwner c := rfl

@[simp] theorem Node.tickPast_modBox (bs : Bytes) : (n.modBox b f).tickPast bs = n.tickPast bs := rfl

/-- The checks at fetch ask nothing of the host port. -/
theorem Node.fetchCheck_host (h : HostSt) (bs : Bytes) :
    ({ n with host := h } : Node).fetchCheck c bs = n.fetchCheck c bs := rfl

@[simp] theorem Node.fetchCheck_modBox (bs : Bytes) : (n.modBox b f).fetchCheck c bs = n.fetchCheck c bs :=
  n.fetchCheck_host c _ bs

end

/-- Of its box the next slot's place depends on HEAD alone. -/
theorem Node.slotReads_modBox {n : Node} {b : Nat} {f : BoxSt → BoxSt} (h : (f (n.box b)).head = (n.box b).head) :
    (n.modBox b f).slotReads b = n.slotReads b := by
  simp only [Node.slotReads, Node.rd_modBox, Node.modBox_host_link, Node.poisoned_modBox, Node.box_modBox_same, h]

/-- A box in which nothing is posted or fenced sets nothing off. -/
theorem Node.Quiet.modBox (h : n.Quiet) {f : BoxSt → BoxSt} (hf : (f (n.box b)).posted = [] ∧ (f (n.box b)).fence = none) :
    (n.modBox b f).Quiet where
  loop := h.loop
  inbox := h.inbox
  done := h.done
  boxes c := by
    by_cases hc : c = b
    · subst hc
      rw [Node.box_modBox_same]
      exact hf
    · rw [Node.box_modBox_other hc]
      exact h.boxes c
  level1 := h.level1
  level2 := h.level2
  level3 := h.level3
  flush := h.flush
  milestones := h.milestones
  reads := h.reads

end

/-! ## Free-running indices (R307, R316) -/

theorem Node.Quiet.cplFree {n : Node} (h : n.Quiet) (b v : Nat) : (n.cplFree b v).Quiet := by
  unfold Node.cplFree
  extract_lets x
  split
  · exact h.modBox (h.boxes b)
  · exact h

theorem Node.Quiet.rrFree {n : Node} (h : n.Quiet) (b v : Nat) : (n.rrFree b v).Quiet := by
  unfold Node.rrFree
  extract_lets x
  split
  · exact h.modBox (h.boxes b)
  · exact h

/-- A write of a box's register that leaves its node quiet sets nothing off. -/
theorem State.hostBox_did {s : State} {box : Nat} {f : Node → Node} (t : Nat) (r : Fld) (hr : s.node.hostReach = true)
    (hb : hasBox box = true) (hf : (f (s.node.at t)).Quiet) : s.hostBox t box r f = .next (s.did t f) :=
  (State.hostBox_ran t r hr hb).trans (congrArg _ (State.ran_of_quiet hf))

/-- Settles O31. -/
theorem freeIndicesStayInBounds : Obligations.FreeIndicesStayInBounds := by
  intro s t box v hq hr hb
  exact ⟨State.hostBox_did t _ hr hb ((hq.at t).cplFree box v), State.hostBox_did t _ hr hb ((hq.at t).rrFree box v)⟩

/-! ## A faulty doorbell (R307, R317) -/

/-- What a doorbell leaves that claims more commands than the ring holds, in an enabled box. -/
def Node.doorbellFault (n : Node) (b tail : Nat) : Node :=
  (n.modBox b fun x => { x with tail := tail % 2 ^ 32 }).modBox b fun x => { x with st := .error, err := 2 }

theorem Node.doorbell_of_faulty {n : Node} {b tail : Nat} (slots : List Posted) (hst : (n.box b).st = .enabled)
    (hfaulty : 2 ^ n.rd R.PB_CFG_CMD_LOG2 (boxBase b) < (tail + 2 ^ 32 - (n.box b).head) % 2 ^ 32) :
    n.doorbell b tail slots = n.doorbellFault b tail := by
  simp only [Node.doorbell, hfaulty, decide_true, if_true, hst, Node.doorbellFault]

theorem Node.Quiet.doorbellFault {n : Node} (h : n.Quiet) (b tail : Nat) : (n.doorbellFault b tail).Quiet :=
  (h.modBox (f := fun x => { x with tail := tail % 2 ^ 32 }) (h.boxes b)).modBox (by
    rw [Node.box_modBox_same]
    exact h.boxes b)

/-- Settles O32. -/
theorem faultyDoorbellStopsTheBox : Obligations.FaultyDoorbellStopsTheBox := by
  intro s t box tail slots hq hr hb hst hfaulty
  have hdoor := Node.doorbell_of_faulty (n := s.node.at t) (slots.map fun c => ⟨padTo 64 c.bytes, c.data⟩) hst hfaulty
  have hbox : ((s.node.at t).doorbellFault box tail).box box =
      { s.node.box box with tail := tail % 2 ^ 32, st := .error, err := 2 } := by
    rw [Node.doorbellFault, Node.box_modBox_same, Node.box_modBox_same]
    rfl
  have hexec : exec (.doorbell t box tail slots) s = .next ⟨(s.node.at t).doorbellFault box tail, s.pending⟩ := by
    refine (State.hostBox_did t _ hr hb ?_).trans (congrArg _ (State.did_congr (g := (·.doorbellFault box tail)) hdoor))
    rw [hdoor]
    exact (hq.at t).doorbellFault box tail
  refine ⟨_, hexec, ?_, ?_, ?_, ?_, fun b hne => ?_⟩
  case refine_5 => exact (Node.box_modBox_other hne).trans (Node.box_modBox_other hne)
  all_goals rw [hbox]
  exact (hq.boxes box).1

/-! ## Fetch in an idle box (R308, R309, R311, R312) -/

section

variable {n : Node} {b : Nat} {p : Posted}

/-- The node once the host has rung an idle box for one command. -/
def Node.rung (n : Node) (b : Nat) (p : Posted) : Node :=
  (n.modBox b fun x => { x with tail := (x.tail + 1) % 2 ^ 32 }).modBox b fun x => { x with posted := [p] }

theorem Node.rung_box (n : Node) (b : Nat) (p : Posted) :
    (n.rung b p).box b = { n.box b with tail := ((n.box b).tail + 1) % 2 ^ 32, posted := [p] } := by
  rw [Node.rung, Node.box_modBox_same, Node.box_modBox_same]

theorem Node.fetched_box (n : Node) (b : Nat) (p : Posted) :
    (n.fetched b p).box b =
      { n.box b with tail := ((n.box b).tail + 1) % 2 ^ 32, head := ((n.box b).head + 1) % 2 ^ 32,
                     inflight := (n.box b).inflight + 1, posted := [] } := by
  rw [Node.fetched, Node.box_modBox_same, Node.box_modBox_same, Node.box_modBox_same]
  rfl

theorem Node.fetched_boxOwner (n : Node) (b : Nat) (p : Posted) (c : Nat) : (n.fetched b p).boxOwner c = n.boxOwner c := by
  simp only [Node.fetched, Node.boxOwner_modBox]

/-- The doorbell of one more command in an idle box names exactly that command. -/
theorem Node.doorbell_of_idle (h : n.BoxIdle b) : n.doorbell b ((n.box b).tail + 1) [p] = Node.pump 4 (n.rung b p) b := by
  have hroom : ¬2 ^ n.rd R.PB_CFG_CMD_LOG2 (boxBase b) < 1 := Nat.not_lt.mpr Nat.one_le_two_pow
  simp only [Node.doorbell, h.level, hroom, decide_false, Bool.false_eq_true, if_false, h.empty]
  rfl

/-- An idle box that has been rung may fetch. -/
theorem Node.rung_mayFetch (h : n.BoxIdle b) : (n.rung b p).mayFetch b = true := by
  have hfrozen : (n.rung b p).boxFrozen b = false := by rw [Node.rung, Node.boxFrozen_modBox, Node.boxFrozen_modBox, h.frozen]
  have hroom : (n.box b).inflight + ((n.box b).done + 2 ^ 32 - (n.box b).cplFree) % 2 ^ 32 <
      2 ^ (n.rung b p).rd R.PB_CFG_CPL_LOG2 (boxBase b) := by
    rw [Node.rung, Node.rd_modBox, Node.rd_modBox]
    exact h.room
  simp only [Node.mayFetch, Node.rung_box, h.enabled, h.fence, hfrozen, hroom, decide_true]
  rfl

theorem Node.rung_slotReads (h : n.BoxIdle b) : (n.rung b p).slotReads b = true := by
  rw [Node.rung, Node.slotReads_modBox rfl, Node.slotReads_modBox rfl, h.slot]

theorem Node.rung_pumpOne (h : n.BoxIdle b) : (n.rung b p).pumpOne b = some ((n.rung b p).fetchNext b p) := by
  have hmay : (n.rung b p).mayFetch b = true := Node.rung_mayFetch h
  have hslot : (n.rung b p).slotReads b = true := Node.rung_slotReads h
  simp only [Node.pumpOne, hmay, hslot]
  simp only [Node.rung_box, h.fence, Bool.not_true, Bool.false_eq_true, if_false]

/-- A command that passes its checks and names no FENCE starts at once. -/
theorem Node.rung_fetchNext (hchecks : n.fetchCheck b p.bytes = none) (hplain : cmdFence p.bytes = false) :
    (n.rung b p).fetchNext b p = (n.fetched b p).startCmd (n.nextRef b p) p := by
  have hchecks' : (n.fetched b p).fetchCheck b p.bytes = none := by
    simpa only [Node.fetched, Node.fetchCheck_modBox] using hchecks
  have href : (⟨b, cmdTag p.bytes, ((n.rung b p).box b).head⟩ : CmdRef) = n.nextRef b p := by rw [Node.rung_box]; rfl
  have hfetched : ((n.rung b p).modBox b fun x =>
    { x with head := (x.head + 1) % 2 ^ 32, inflight := x.inflight + 1, posted := x.posted.drop 1 }) = n.fetched b p := rfl
  simp only [Node.fetchNext, href, hfetched, hchecks', hplain, Bool.false_eq_true, false_and, if_false]

theorem Node.pump_succ {m : Node} {k : Nat} (h : n.pumpOne b = some m) : Node.pump (k + 1) n b = Node.pump k m b := by
  rw [Node.pump, h]

theorem Node.pump_of_none (h : n.pumpOne b = none) (k : Nat) : Node.pump k n b = n := by
  cases k with
  | zero => rfl
  | succ k => rw [Node.pump, h]

theorem Node.pumpOne_of_empty (hposted : (n.box b).posted = []) (hfence : (n.box b).fence = none) : n.pumpOne b = none := by
  simp [Node.pumpOne, Node.mayFetch, hposted, hfence]

end

/-! ## What reading ahead leaves alone (R228, R234) -/

section

variable {β : Type} {l : List β} {f : Node → β → Node}

theorem forEach_host (h : ∀ n x, (f n x).host = n.host) (n : Node) : (forEach l n f).host = n.host := by
  induction l generalizing n with
  | nil => rfl
  | cons x l ih => exact (ih (f n x)).trans (h n x)

end

theorem Node.gzLookup_host (n : Node) (sheet : Nat) : (n.gzLookup sheet).host = n.host := by
  unfold Node.gzLookup
  simp only [apply_ite Node.host, Node.wr_host, Node.inc_host, Node.modSlice_host, ite_self]

theorem Node.contentLookup_host (n : Node) (p hkey : Nat) : (n.contentLookup p hkey).2.host = n.host := by
  unfold Node.contentLookup
  exact (forEach_host (fun _ _ => Node.inc_host ..) _).trans (forEach_host (fun _ _ => Node.inc_host ..) _)

theorem Node.preRead_host (n : Node) (p : Nat) (bs : Bytes) : (n.preRead p bs).2.host = n.host := by
  unfold Node.preRead
  split
  · rfl
  extract_lets k
  split
  · exact (Node.contentLookup_host ..).trans (forEach_host (fun m s => m.gzLookup_host s) _)
  · rfl

/-- A command that waits for its boundary leaves every box as its fetch left it. -/
theorem Node.awaitBoundary_box (n : Node) (ref : CmdRef) (c : Posted) (b : Nat) : (n.awaitBoundary ref c).box b = n.box b := by
  unfold Node.awaitBoundary
  generalize (cmdOp c.bytes == 0x17 && (decRange c.bytes).kind == 3) = share
  cases share with
  | true =>
    have hahead := Node.preRead_host n.fresh.2 (n.fresh.2.boxOwner ref.box) c.bytes
    exact (congrArg (fun h : HostSt => mapGet h.boxes b) hahead :)
  | false => rfl

/-! ## Commands posted in an idle box -/

section

variable {s : State} {t b : Nat} {i : Instr} {c : HostCmd}

/-- What holds of the state holds at the event's time. -/
theorem Node.BoxIdle.at {n : Node} (h : n.BoxIdle b) (t : Nat) : (n.at t).BoxIdle b where
  enabled := h.enabled
  empty := h.empty
  fence := h.fence
  level := h.level
  frozen := h.frozen
  room := h.room
  slot := h.slot

/-- An accepted command is fetched and started; then the box goes on. -/
theorem Node.postCommand_of_accepts (h : s.Accepts b c) (hr : s.node.hostReach = true) (t : Nat) :
    (s.node.at t).postCommand b c =
      Node.pump 3 (((s.node.at t).fetched b (posted c)).startCmd ((s.node.at t).nextRef b (posted c)) (posted c)) b := by
  have hidle : (s.node.at t).BoxIdle b := h.idle.at t
  have hchecks : (s.node.at t).fetchCheck b (posted c).bytes = none := h.checks
  have hreach : (s.node.at t).hostReach = true := hr
  calc (s.node.at t).postCommand b c
      = (s.node.at t).doorbell b (((s.node.at t).box b).tail + 1) [posted c] := by rw [Node.postCommand, if_pos hreach]; rfl
    _ = Node.pump 4 ((s.node.at t).rung b (posted c)) b := Node.doorbell_of_idle hidle
    _ = Node.pump 3 (((s.node.at t).rung b (posted c)).fetchNext b (posted c)) b := Node.pump_succ (Node.rung_pumpOne hidle)
    _ = _ := by rw [Node.rung_fetchNext hchecks h.plain]

theorem State.command_of_accepts (h : s.Accepts b c) (hr : s.node.hostReach = true) (hb : hasBox b = true) (t : Nat) :
    s.command t b c = .next (s.ran t fun n =>
      Node.pump 3 ((n.fetched b (posted c)).startCmd (n.nextRef b (posted c)) (posted c)) b) := by
  rw [State.command, State.hostBox_ran t _ hr hb]
  exact congrArg _ (State.ran_congr (Node.postCommand_of_accepts h hr t))

/-- A row whose OPCODE waits for its boundary. -/
theorem State.queues_of_boundary (hrow : exec i s = s.command t b c) (hop : opAtBoundary (cmdOp (posted c).bytes) = true)
    (hr : s.node.hostReach = true) (hb : hasBox b = true) : s.Queues t b i c := by
  intro haccepts hpast
  rw [hrow, State.command_of_accepts haccepts hr hb]
  refine congrArg _ (State.ran_congr ?_)
  have hpast' : ((s.node.at t).fetched b (posted c)).tickPast (posted c).bytes = false := by
    simp only [Node.fetched, Node.tickPast_modBox]
    exact hpast
  have hstart (ref : CmdRef) : ((s.node.at t).fetched b (posted c)).startCmd ref (posted c) =
      ((s.node.at t).fetched b (posted c)).awaitBoundary ref (posted c) := by
    rw [Node.startCmd, if_pos hop, hpast', if_neg Bool.false_ne_true]
  simp only [hstart]
  refine Node.pump_of_none (Node.pumpOne_of_empty ?_ ?_) 3 <;> rw [Node.awaitBoundary_box, Node.fetched_box]
  exact haccepts.idle.fence

/-- A row whose OPCODE acts at fetch. -/
theorem State.runsAtOnce_of_immediate (hrow : exec i s = s.command t b c)
    (hop : opAtBoundary (cmdOp (posted c).bytes) = false) (hr : s.node.hostReach = true) (hb : hasBox b = true) :
    s.RunsAtOnce t b i c := by
  intro haccepts
  rw [hrow, State.command_of_accepts haccepts hr hb]
  refine congrArg _ (State.ran_congr ?_)
  have hstart (ref : CmdRef) : ((s.node.at t).fetched b (posted c)).startCmd ref (posted c) =
      Node.ended ref (((s.node.at t).fetched b (posted c)).runNow ((s.node.at t).boxOwner ref.box) ref (posted c).bytes
        (posted c).data) := by
    rw [Node.startCmd, hop, if_neg Bool.false_ne_true, Node.fetched_boxOwner]
  simp only [hstart, Node.nextRef]

end

/-- Settles O34: every row fixes the OPCODE of its command, one of those applied at a boundary. -/
theorem boundaryCommandsAreQueued : Obligations.BoundaryCommandsAreQueued := by
  intro s t box c hr hb
  and_intros
  all_goals exact State.queues_of_boundary rfl rfl hr hb

/-- Settles O35: every row fixes the OPCODE of its command, one of those applied at fetch. -/
theorem immediateCommandsRun : Obligations.ImmediateCommandsRun := by
  intro s t box c hr hb
  and_intros
  all_goals exact State.runsAtOnce_of_immediate rfl rfl hr hb

/-! ## HDM holes (R302) -/

/-- Bit 4 of HP_ERR_STATUS is HDM_HOLE. -/
theorem Node.rd_hpErr_hdmHole (n : Node) (addr : Nat) : (n.hpErr 4 addr).rd R.HP_ERR_STATUS_HDM_HOLE 0 = 1 := by
  have hcapture : ∀ w ∈ n.capTick R.HP_ERR_INFO_TICK R.HP_ERR_INFO_KIND 4 ++ [(R.HP_ERR_ADDR_ADDR, addr)],
      R.HP_ERR_STATUS_HDM_HOLE.key 0 ≠ w.1.key 0 := by
    simp only [Node.capTick, List.cons_append, List.nil_append, List.forall_mem_cons]
    exact ⟨by decide, by decide, by decide⟩
  have hflag := Node.rd_flag_same (n := n) (by decide) hcapture
  simp only [Node.hpErr, List.getD_cons_succ, List.getD_cons_zero]
  split
  · exact (Node.rd_raiseVector ..).trans hflag
  · exact hflag

/-- What a read of a hole leaves: the error is reported and the answer is poison. -/
def Node.hdmPoisonAnswer (n : Node) (addr : Nat) : Node :=
  (n.hpErr 4 addr).modHost fun h => { h with lastRead := some (addr / 64 * 64, [], true) }

theorem Node.hdmRead_of_hole {n : Node} {addr : Nat} (excl : Bool) (h : hdmHole (addr / 64 * 64) = true) :
    n.hdmRead addr excl = n.hdmPoisonAnswer addr := if_pos h

theorem Node.hdmPoisonAnswer_eq (n : Node) (addr : Nat) :
    n.hdmPoisonAnswer addr =
      { n with regs := (n.hpErr 4 addr).regs,
               host := { n.host with msi := (n.hpErr 4 addr).host.msi, lastRead := some (addr / 64 * 64, [], true) } } := by
  rw [Node.hdmPoisonAnswer, Node.hpErr_eq]
  rfl

theorem Node.Quiet.hdmPoisonAnswer {n : Node} (h : n.Quiet) (addr : Nat) : (n.hdmPoisonAnswer addr).Quiet := by
  rw [Node.hdmPoisonAnswer_eq]
  exact h.regs_host rfl rfl

/-- Settles O17. -/
theorem hdmHoleReadsPoison : Obligations.HdmHoleReadsPoison := by
  intro s t addr excl hq hr hhole
  have hread : exec (.hdmRead t addr excl) s = .next ⟨(s.node.at t).hdmPoisonAnswer addr, s.pending⟩ := by
    have hrun : exec (.hdmRead t addr excl) s = .next (s.ran t fun n => n.hdmRead addr excl) := State.fromHost_ran t hr
    rw [hrun, State.ran_congr (g := fun n => n.hdmPoisonAnswer addr) (Node.hdmRead_of_hole excl hhole),
      State.ran_of_quiet ((hq.at t).hdmPoisonAnswer addr), State.did_eq (by rw [Node.hdmPoisonAnswer_eq]; rfl)]
  refine ⟨_, hread, rfl, Node.rd_hpErr_hdmHole (s.node.at t) addr, ?_⟩
  rw [Node.hdmPoisonAnswer_eq]
  exact ⟨rfl, rfl, rfl, rfl⟩

/-! ## The heartbeat (R322, R326) -/

section

variable {n : Node}

theorem Node.heartbeat_host_of_waiting (h : n.host.st = .waiting) :
    n.heartbeat.host = { n.host with st := .active, monitoring := true, beat := true, misses := 0 } := if_pos h

theorem Node.heartbeat_host_of_not_waiting (h : n.host.st ≠ .waiting) : n.heartbeat.host = { n.host with beat := true } :=
  if_neg h

theorem Node.heartbeat_boxes_link (n : Node) :
    n.heartbeat.host.boxes = n.host.boxes ∧ n.heartbeat.host.link = n.host.link := by
  by_cases h : n.host.st = .waiting
  · rw [Node.heartbeat_host_of_waiting h]
    exact ⟨rfl, rfl⟩
  · rw [Node.heartbeat_host_of_not_waiting h]
    exact ⟨rfl, rfl⟩

theorem Node.Quiet.heartbeat (h : n.Quiet) : n.heartbeat.Quiet :=
  h.regs_host n.heartbeat_boxes_link.1 n.heartbeat_boxes_link.2

end

/-- A node that waits for its host. -/
theorem witness_waiting : Tests.fix.Quiet ∧ Tests.fix.hostReach = true ∧ Tests.fix.host.st = .waiting :=
  ⟨Tests.fix_quiet, by decide +kernel⟩

/-- Settles O33. -/
theorem heartbeatMakesTheHostActive : Obligations.HeartbeatMakesTheHostActive := by
  intro s t v hq hr
  have hbeat : exec (.hpHeartbeat t v) s = .next (s.did t Node.heartbeat) :=
    (State.hostReg_ran t _ hr).trans (congrArg _ (State.ran_of_quiet (hq.at t).heartbeat))
  obtain ⟨hboxes, -⟩ := (s.node.at t).heartbeat_boxes_link
  by_cases hst : s.node.host.st = .waiting
  · have hhost := Node.heartbeat_host_of_waiting (n := s.node.at t) hst
    have hactive : (s.node.at t).heartbeat.host.st = .active ∧ (s.node.at t).heartbeat.host.monitoring = true ∧
        (s.node.at t).heartbeat.host.misses = 0 := by
      rw [hhost]
      exact ⟨rfl, rfl, rfl⟩
    exact ⟨_, hbeat, (congrArg HostSt.beat hhost :), fun _ => hactive, fun h => absurd hst h, rfl, hboxes, rfl⟩
  · have hhost := Node.heartbeat_host_of_not_waiting (n := s.node.at t) hst
    exact ⟨_, hbeat, (congrArg HostSt.beat hhost :), fun h => absurd h hst, fun _ => hhost, rfl, hboxes, rfl⟩

end Sys2Proof.Machine

/-!
PROOFS of the shared pool and chart families: a lease stands until its expiry (O38), CHART_CTL.LOAD begins verifying (O41), and
every chart, security and SPDM command completes (O57).
-/

namespace Sys2Proof.Machine

/-! ## Events that set nothing off -/

section

variable {s : State} {f : Node → Node}

theorem State.live_did (t : Nat) (ha : s.node.awake = true) (hf : (f (s.node.at t)).Quiet) :
    s.live t f = .next (s.did t f) :=
  (State.live_ran t ha).trans (congrArg _ (State.ran_of_quiet hf))

theorem State.liveUnit_did {p : Bool} (t : Nat) (ha : s.node.awake = true) (hp : p = true) (hf : (f (s.node.at t)).Quiet) :
    s.liveUnit t p f = .next (s.did t f) :=
  (State.liveUnit_ran t ha hp).trans (congrArg _ (State.ran_of_quiet hf))

theorem State.hostReg_did (t : Nat) (r : Fld) (hr : s.node.hostReach = true) (hf : (f (s.node.at t)).Quiet) :
    s.hostReg t r f = .next (s.did t f) :=
  (State.hostReg_ran t r hr).trans (congrArg _ (State.ran_of_quiet hf))

end

/-! ## Leases (R335) -/

theorem Node.leaseExpiry_of_stands {n : Node} {i : Nat} (h : (n.ext i).st ≠ .granted ∨ n.tickStart < (n.ext i).expiry) :
    n.leaseExpiry i = n := if_neg fun ⟨hgranted, hover⟩ => h.elim (· hgranted) (Nat.not_lt.mpr hover)

/-- Settles O38. -/
theorem leaseLastsUntilItsExpiry : Obligations.LeaseLastsUntilItsExpiry := by
  intro s t ext hq ha h
  have hstands : (s.node.at t).leaseExpiry ext = s.node.at t := Node.leaseExpiry_of_stands h
  have hlease : exec (.leaseExpiry t ext) s = .next (s.did t fun n => n.leaseExpiry ext) :=
    State.live_did t ha (hstands.symm ▸ hq.at t)
  exact hlease.trans (congrArg _ (State.did_congr hstands))

/-! ## CHART_CTL.LOAD (R344, R458; log entry 111) -/

/-- A chart that is not in force is no milestone (R450). -/
theorem Node.Quiet.modChart {n : Node} (h : n.Quiet) {f : ChartSt → ChartSt} (hf : (f n.chart).st ≠ .inForce) :
    (n.modChart f).Quiet where
  loop := h.loop
  inbox := h.inbox
  done := h.done
  boxes := h.boxes
  level1 := h.level1
  level2 := h.level2
  level3 := h.level3
  flush := h.flush
  milestones := by
    have hmilestones := h.milestones
    have hchart : ((f n.chart).st != .inForce) = true := bne_iff_ne.mpr hf
    simp only [Node.milestonesSet, Bool.or_eq_true, Bool.and_eq_true] at hmilestones ⊢
    exact hmilestones.imp id fun ⟨⟨hlink, _⟩, hlock⟩ => ⟨⟨hlink, .inl hchart⟩, hlock⟩
  reads := h.reads

theorem Node.Quiet.chartLoad {n : Node} (h : n.Quiet) (image : Bytes) : (n.chartLoad image).Quiet := by
  unfold Node.chartLoad
  extract_lets src len bs
  split
  · exact h.modChart nofun
  · exact h

/-- Settles O41. -/
theorem chartLoadBeginsVerifying : Obligations.ChartLoadBeginsVerifying := by
  intro s t image hq hr
  have hload : exec (.chartLoad t image) s = .next (s.did t fun n => n.chartLoad image) :=
    State.hostReg_did t _ hr ((hq.at t).chartLoad image)
  refine hload.trans (congrArg _ (State.did_congr ?_))
  simp only [Node.chartLoad, Bool.not_eq_true', Bool.and_eq_true]
  rfl

/-! ## Charts, overlays, security commands and SPDM requests (R344 to R385) -/

theorem State.spdm_ran {s : State} {conn : Nat} {f : Node → Node} (t : Nat) (hl : s.node.spdmLink conn = true) :
    s.at t (fun n => n.when (n.spdmLink conn) f) = .next (s.ran t f) := by
  have hlink : (s.node.at t).spdmLink conn = true := hl
  rw [State.at_ran, State.ran_congr (by rw [hlink, Node.when_true])]

/-- Settles O57: host register writes, events of a node that runs firmware, and requests over an SPDM connection, each of
which asks itself whether the responder speaks. -/
theorem chartAndSecurityCommandsRun : Obligations.ChartAndSecurityCommandsRun := by
  intro s t
  refine ⟨?chartLoad, ?chartVerifyDone, ?overlayStaged, ?overlaySwitch, ?redirectRetirement, ?quadClearDone, ?own, ?secReturn,
    ?reprovision, ?debugToken, ?debugLower, ?advance, ?tokenExpiry, ?getVersion, ?getCapabilities, ?negotiateAlgorithms,
    ?getDigests, ?getCertificate, ?challenge, ?getMeasurements, ?keyExchange, ?spdmFinish, ?spdmHeartbeat, ?keyUpdate,
    ?endSession, ?vendorDefinedRequest, ?lowerTreeGenerated⟩
  case chartLoad | own | secReturn | reprovision | debugToken | debugLower | advance => exact fun _ => State.hostReg_ran t _
  case chartVerifyDone | overlaySwitch | redirectRetirement | tokenExpiry | lowerTreeGenerated => exact State.live_ran t
  case overlayStaged => exact fun _ => State.live_ran t
  case quadClearDone => exact fun _ => State.liveUnit_ran t
  case getVersion => exact fun _ hl _ => State.spdm_ran t hl
  case getCapabilities | negotiateAlgorithms | getDigests => exact fun _ _ hl _ => State.spdm_ran t hl
  case spdmHeartbeat | endSession => exact fun _ _ _ hl _ => State.spdm_ran t hl
  case challenge | keyExchange | spdmFinish => exact fun _ _ _ _ hl _ => State.spdm_ran t hl
  case getCertificate | getMeasurements | keyUpdate | vendorDefinedRequest => exact fun _ _ _ _ _ hl _ => State.spdm_ran t hl

end Sys2Proof.Machine

/-!
PROOFS of the security and power states family: the end of a debug token (O42), power requests and settled rails (O43, O44),
and the start of an SPDM connection (O49).
-/

namespace Sys2Proof.Machine

/-! ## The end of a debug token (R380, R385) -/

section

variable {n : Node} {k : Token}

/-- Setting the level changes the debug port and the level. -/
theorem Node.setLevel_eq (n : Node) (level : Nat) :
    n.setLevel level = { n with dbg := (n.setLevel level).dbg, sec := { n.sec with level := level } } := by
  unfold Node.setLevel Node.endDebug
  dsimp only
  split <;> split <;> rfl

/-- What the end of a token leaves. -/
def Node.tokenEnds (n : Node) : Node :=
  ((n.modSec fun s => { s with token := none }).setLevel n.freeLevel).wr R.SEC_ERR_STATUS_TOKEN_EXPIRED 0 1

theorem Node.tokenExpiry_of_ended (hk : n.sec.token = some k) (h : k.notAfter ≤ n.tickStart) : n.tokenExpiry = n.tokenEnds := by
  simp only [Node.tokenExpiry, hk, h, if_true, Node.tokenEnds]

theorem Node.tokenExpiry_of_lives (hk : n.sec.token = some k) (h : n.tickStart < k.notAfter) : n.tokenExpiry = n := by
  simp only [Node.tokenExpiry, hk, Nat.not_le.mpr h, if_false]

theorem Node.tokenEnds_eq (n : Node) :
    n.tokenEnds = { n with regs := n.tokenEnds.regs, dbg := n.tokenEnds.dbg,
                           sec := { n.sec with token := none, level := n.freeLevel } } := by
  rw [Node.tokenEnds, Node.setLevel_eq]
  rfl

theorem Node.Quiet.tokenEnds (h : n.Quiet) : n.tokenEnds.Quiet := by
  rw [Node.tokenEnds_eq]
  exact h.inert

end

/-- Settles O42. -/
theorem tokenEndsAtNotAfter : Obligations.TokenEndsAtNotAfter := by
  intro s t hq ha
  refine ⟨fun k hk hlives => ?lives, fun k hk hended => ?ended⟩
  case lives =>
    have hstays : (s.node.at t).tokenExpiry = s.node.at t := Node.tokenExpiry_of_lives hk hlives
    have htoken : exec (.tokenExpiry t) s = .next (s.did t fun n => n.tokenExpiry) :=
      State.live_did t ha (hstays.symm ▸ hq.at t)
    exact htoken.trans (congrArg _ (State.did_congr hstays))
  case ended =>
    have hends : (s.node.at t).tokenExpiry = (s.node.at t).tokenEnds := Node.tokenExpiry_of_ended hk hended
    have htoken : exec (.tokenExpiry t) s = .next (s.did t fun n => n.tokenExpiry) :=
      State.live_did t ha (hends.symm ▸ (hq.at t).tokenEnds)
    have hident : (s.node.at t).tokenEnds.ident = s.node.ident := by rw [Node.tokenEnds_eq]; rfl
    rw [htoken, State.did_congr (g := Node.tokenEnds) hends, State.did_eq hident]
    refine ⟨_, rfl, ?_, ?_, Node.rd_wr_same ..⟩ <;> rw [Node.tokenEnds_eq]
    rfl

/-! ## Park, Standby and the operating point (R388, R389, R391, R395, R448) -/

/-- No part has more than eight sheets (R1). -/
theorem Node.nSheets_le (n : Node) : n.nSheets ≤ 8 := by
  unfold Node.nSheets
  cases n.ident.part <;> decide

theorem Node.sheetMask_lt (n : Node) : n.sheetMask < 2 ^ 8 :=
  Nat.lt_of_lt_of_le (Nat.sub_lt (Nat.two_pow_pos _) Nat.one_pos) (Nat.pow_le_pow_right Nat.two_pos n.nSheets_le)

theorem b2n_lt_two (on : Bool) : b2n on < 2 := by cases on <;> decide

/-- Settles O43: each write leaves a quiet node quiet, and the value written fits its field. -/
theorem powerRequestsReadBack : Obligations.PowerRequestsReadBack := by
  intro s t hq hr
  refine ⟨fun mask => ?park, fun on => ?standby, fun point hpoint => ?opLimit⟩
  case park =>
    refine ⟨_, State.hostReg_did t _ hr (hq.at t).inert, rfl, ?_, fun f b h => Node.rd_wr_other h⟩
    exact (Node.rd_wr_same ..).trans (Nat.mod_eq_of_lt (Nat.and_lt_two_pow mask s.node.sheetMask_lt))
  case standby =>
    refine ⟨_, State.hostReg_did t _ hr (hq.at t).inert, rfl, ?_, fun f b h => Node.rd_wr_other h⟩
    exact (Node.rd_wr_same (s.node.at t) R.PWR_CTL_STANDBY 0 (b2n on)).trans (Nat.mod_eq_of_lt (b2n_lt_two on))
  case opLimit =>
    refine ⟨_, State.hostReg_did t _ hr (hq.at t).inert, rfl, ?_, fun f b h => Node.rd_wr_other h⟩
    exact (Node.rd_wr_same ..).trans (Nat.mod_eq_of_lt hpoint)

/-! ## Rails (R24, R391) -/

theorem Node.Quiet.railSettled {n : Node} (h : n.Quiet) : n.railSettled.Quiet := by
  unfold Node.railSettled
  split
  · exact h.inert
  · exact h

/-- Settles O44. -/
theorem settledRailsAreNoted : Obligations.SettledRailsAreNoted := fun _ t hq ha => State.live_did t ha (hq.at t).railSettled

/-! ## GET_VERSION (R372; log entry 40) -/

theorem Node.conn_modConn_other {n : Node} {c d : Nat} {f : SpdmConn → SpdmConn} (h : c ≠ d) :
    (n.modConn d f).conn c = n.conn c := mapGet_mod_other h

@[simp] theorem Node.conn_modConn_same (n : Node) (c : Nat) (f : SpdmConn → SpdmConn) :
    (n.modConn c f).conn c = f (n.conn c) := mapGet_mod_same ..

/-- The connection GET_VERSION leaves: the version answer and nothing negotiated. -/
def Node.versionGiven (n : Node) (c : Nat) : Node :=
  (n.modConn c fun x => { (default : SpdmConn) with stage := 1, nextSess := x.nextSess }).spdmAnswer c 0x04 [] [0x12, 0x13]

theorem Node.getVersion_of_ready {n : Node} (c : Nat) (h : n.spdmReady = true) : n.getVersion c = n.versionGiven c := by
  rw [Node.getVersion, h, Node.when_true, Node.versionGiven]

theorem Node.versionGiven_conn_same (n : Node) (c : Nat) :
    ((n.versionGiven c).conn c).stage = 1 ∧ ((n.versionGiven c).conn c).sessions = [] ∧
      ((n.versionGiven c).conn c).last.code = 0x04 := by
  rw [Node.versionGiven, Node.spdmAnswer, Node.conn_modConn_same, Node.conn_modConn_same]
  exact ⟨rfl, rfl, rfl⟩

theorem Node.versionGiven_conn_other {n : Node} {c d : Nat} (h : c ≠ d) : (n.versionGiven d).conn c = n.conn c :=
  (Node.conn_modConn_other h).trans (Node.conn_modConn_other h)

/-- Settles O49. -/
theorem getVersionBeginsAnew : Obligations.GetVersionBeginsAnew := by
  intro s t conn hq hl hready
  have hgiven : (s.node.at t).getVersion conn = (s.node.at t).versionGiven conn := Node.getVersion_of_ready conn hready
  have hrun : exec (.getVersion t conn) s = .next (s.ran t fun n => n.getVersion conn) := State.spdm_ran t hl
  have hversion : s.ran t (fun n => n.getVersion conn) = ⟨(s.node.at t).versionGiven conn, s.pending⟩ := by
    rw [State.ran_congr (f := fun n => n.getVersion conn) (g := fun n => n.versionGiven conn) hgiven,
      State.ran_of_quiet (hq.at t).inert, State.did_eq rfl]
  obtain ⟨hstage, hsessions, hcode⟩ := (s.node.at t).versionGiven_conn_same conn
  exact ⟨_, hrun.trans (congrArg _ hversion), hstage, hsessions, hcode, rfl, fun c => Node.versionGiven_conn_other⟩

end Sys2Proof.Machine

/-!
PROOFS of the debug port family: the IDCODE word (O45), the level DBG_ACCESS needs (O46), and every debug and reset command
completes (O59).
-/

namespace Sys2Proof.Machine

/-! ## TAP instructions (R397, R398, R399) -/

section

variable {n : Node} {code outputs dr : Nat}

theorem Node.loadIr_of_power (ok : Bool) (hp : n.pins.pwrGood = true) :
    n.loadIr code ok outputs dr = n.modDebug fun d =>
      if ok then { d with ir := code, refused := false, outputs := outputs, dr := dr }
      else { d with ir := irBypass, refused := true, outputs := 0, dr := 0 } := by
  cases ok <;> simp [Node.loadIr, hp]

/-- The node with the identification word in its data register. -/
def Node.idcodeLoaded (n : Node) : Node :=
  n.modDebug fun d => { d with ir := irIdcode, refused := false, outputs := 0, dr := n.idcodeOf }

theorem Node.idcode_of_power (hp : n.pins.pwrGood = true) : n.idcode = n.idcodeLoaded := Node.loadIr_of_power true hp

/-- Every part code fills at most its 16 bits. -/
theorem Part.code_lt (p : Part) : p.code < 2 ^ 16 := by cases p <;> decide

/-- The fields of the IDCODE word (R398). -/
theorem Node.bits_idcodeOf (n : Node) :
    bits n.idcodeOf 28 4 = n.ident.stepping % 16 ∧ bits n.idcodeOf 12 16 = n.ident.part.code ∧
      bits n.idcodeOf 1 11 = 0x2E3 ∧ bits n.idcodeOf 0 1 = 1 := by
  have hcode : n.ident.part.code < 2 ^ 16 := Part.code_lt _
  have hstepping : n.ident.stepping % 16 < 16 := Nat.mod_lt _ (by decide)
  simp only [bits, Node.idcodeOf]
  omega

end

/-- Settles O45. -/
theorem idcodeWordIsRight : Obligations.IdcodeWordIsRight := by
  intro s t hq hp
  have hidcode : exec (.idcode t) s = .next ⟨(s.node.at t).idcodeLoaded, s.pending⟩ := by
    have hrun : exec (.idcode t) s = .next (s.ran t fun n => n.idcode) := State.at_ran s t _
    rw [hrun, State.ran_congr (g := Node.idcodeLoaded) (Node.idcode_of_power (n := s.node.at t) hp),
      State.ran_of_quiet (hq.at t).inert, State.did_eq rfl]
  obtain ⟨hstepping, hcode, hmaker, hone⟩ := (s.node.at t).bits_idcodeOf
  exact ⟨_, hidcode, hstepping, hcode, hmaker, hone, rfl, rfl⟩

/-- Settles O46. -/
theorem debugAccessNeedsALevel : Obligations.DebugAccessNeedsALevel := by
  intro s t hq hp
  have haccess : (s.node.at t).dbgAccess = _ := Node.loadIr_of_power (n := s.node.at t) _ hp
  have hrun : exec (.dbgAccess t) s = .next (s.ran t fun n => n.dbgAccess) := State.at_ran s t _
  have hquiet : (s.node.at t).dbgAccess.Quiet := haccess.symm ▸ (hq.at t).inert
  rw [hrun, State.ran_of_quiet hquiet]
  refine congrArg _ (State.did_congr (haccess.trans ?_))
  simp only [Bool.and_eq_true, decide_eq_true_eq, Bool.not_eq_true']
  rfl

/-! ## Every debug and reset command (R396 to R432) -/

/-- Settles O59: pins and TAP instructions act on any node, host register writes need the host's link, events of firmware a
node that runs it. -/
theorem debugAndResetRun : Obligations.DebugAndResetRun := by
  intro s t
  refine ⟨?extest, ?samplePreload, ?idcode, ?clamp, ?highz, ?dbgAccess, ?bypass, ?dbgRead, ?dbgWrite, ?readInc, ?writeInc, ?halt,
    ?resume, ?stepTick, ?holdTick, ?breakpointTime, ?rstCtlGo, ?nodeReset, ?fatalError, ?fatalResetDelay, ?sheetHang,
    ?hubWatchdog, ?resetEscalation, ?warmRestartDone, ?abortSend, ?abortWindowEnd, ?releaseAll, ?releaseOne⟩
  case extest | samplePreload | idcode | clamp | highz | dbgAccess | bypass | halt | resume | stepTick =>
    exact State.at_ran s t _
  case readInc | nodeReset => exact fun _ => State.at_ran s t _
  case dbgRead | writeInc => exact fun _ _ => State.at_ran s t _
  case dbgWrite => exact fun _ _ _ => State.at_ran s t _
  case holdTick | breakpointTime | fatalResetDelay | hubWatchdog | resetEscalation | abortWindowEnd => exact State.live_ran t
  case warmRestartDone => exact fun _ => State.live_ran t
  case sheetHang => exact fun _ => State.liveUnit_ran t
  case fatalError => exact fun _ _ _ => State.liveUnit_ran t
  case abortSend | releaseAll | releaseOne => exact State.hostReg_ran t _
  case rstCtlGo => exact fun _ => State.hostReg_ran t _

end Sys2Proof.Machine

/-!
PROOFS of the errors and reset family: what NODE_RESET_N low loses (O12), and a core that is not ready after its reset (O25).
-/

namespace Sys2Proof.Machine

/-! ## NODE_RESET_N (R423, R432, R445) -/

section

variable {n : Node}

/-- What a node with power records in MRAM before NODE_RESET_N takes the rest. -/
def Node.resetRecorded (n : Node) : Node :=
  if n.pins.pwrGood then
    (if n.boot.rom then n.resetCount 5 6 else (n.flushNow.resetCount 5 6).summary 5 6)
  else n

theorem Node.resetRecorded_eq (n : Node) : ∃ regs mram, n.resetRecorded = { n with regs := regs, mram := mram } := by
  unfold Node.resetRecorded
  split
  · split
    · exact ⟨_, _, rfl⟩
    · exact ⟨_, _, rfl⟩
  · exact ⟨_, _, rfl⟩

/-- The node while NODE_RESET_N is low. -/
def Node.heldInReset (n : Node) : Node :=
  (n.resetRecorded.modPins fun p => { p with resetLow := true, pwrcycLow := false }).bare

theorem Node.nodeReset_low (h : n.pins.resetLow = false) : n.nodeReset true = n.heldInReset := by
  rw [Node.nodeReset, h, if_neg Bool.false_ne_true, if_pos rfl]
  rfl

theorem Node.heldInReset_kept (n : Node) :
    n.heldInReset.ident = n.ident ∧ n.heldInReset.pins.pwrGood = n.pins.pwrGood ∧ n.heldInReset.time.now = n.time.now := by
  obtain ⟨regs, mram, hrecorded⟩ := n.resetRecorded_eq
  rw [Node.heldInReset, hrecorded]
  exact ⟨rfl, rfl, rfl⟩

end

/-- Settles O12. -/
theorem nodeResetLosesVolatileState : Obligations.NodeResetLosesVolatileState := by
  intro s t hlow
  obtain ⟨hident, hpower, hnow⟩ := (s.node.at t).heldInReset_kept
  have hreset : exec (.nodeReset t true) s = .next ⟨(s.node.at t).heldInReset, s.pending⟩ := by
    have hrun : exec (.nodeReset t true) s = .next (s.ran t fun n => n.nodeReset true) := State.at_ran s t _
    rw [hrun, State.ran_congr (g := Node.heldInReset) (Node.nodeReset_low (n := s.node.at t) hlow),
      State.ran_of_quiet (f := Node.heldInReset) (Node.bare_quiet _), State.did_eq hident]
  exact ⟨_, hreset, rfl, hpower, rfl, rfl, rfl, rfl, rfl, rfl, rfl, hnow⟩

/-! ## A core that is not ready (R413; log entries 45 and 47) -/

theorem Node.Quiet.coreResetTimeout {n : Node} (h : n.Quiet) (core : Nat) : (n.coreResetTimeout core).Quiet := by
  unfold Node.coreResetTimeout
  split
  · exact h.inert
  · exact h

/-- Settles O25. -/
theorem coreResetTimesOut : Obligations.CoreResetTimesOut := by
  intro s t core hq ha hcore
  have htimeout : exec (.coreResetTimeout t core) s = .next (s.did t fun n => n.coreResetTimeout core) :=
    State.liveUnit_did t ha hcore ((hq.at t).coreResetTimeout core)
  exact htimeout.trans (congrArg _ (State.did_congr rfl))

end Sys2Proof.Machine

/-!
PROOFS of the survey family: the log ring's READ index and ALERT (O47), and the answer to GET_TID (O48).
-/

namespace Sys2Proof.Machine

theorem Node.Quiet.ringReadAdvance {n : Node} (h : n.Quiet) (v : Nat) : (n.ringReadAdvance v).Quiet := by
  unfold Node.ringReadAdvance
  extract_lets r w
  split
  · exact h.inert
  · exact h

/-- Settles O47. -/
theorem surveyRegistersFollowTheHost : Obligations.SurveyRegistersFollowTheHost := by
  intro s t hq hr
  refine ⟨fun v => ?ringRead, ?alert⟩
  case ringRead => exact State.hostReg_did t _ hr ((hq.at t).ringReadAdvance v)
  case alert =>
    have halert : exec (.alertClear t) s = .next ⟨(s.node.at t).wr R.SVY_STATUS_ALERT 0 0, s.pending⟩ :=
      (State.hostReg_did t _ hr (hq.at t).inert).trans (congrArg _ (State.did_eq rfl))
    exact ⟨_, halert, rfl, Node.rd_wr_same .., fun f b h => Node.rd_wr_other h⟩

/-- Settles O48. -/
theorem getTidAnswersTheTid : Obligations.GetTidAnswersTheTid := fun _ t hq ha => State.live_did t ha (hq.at t).inert

end Sys2Proof.Machine

/-!
PROOFS of the start-up and electrical families: the state right after reset (O7), the start of the ROM (O11), and the thermal
trip (O13).
-/

namespace Sys2Proof.Machine

/-! ## Start-up (R450, R453) -/

section

variable {n : Node}

theorem Node.awake_of_rom (h : n.boot.rom = true) : n.awake = false := by
  rw [Node.awake, h]
  exact Bool.and_false _

/-- While the ROM runs no milestone is due. -/
theorem Node.Quiet.modBoot_of_rom (h : n.Quiet) {f : BootSt → BootSt} (hrom : (f n.boot).rom = true) : (n.modBoot f).Quiet where
  loop := h.loop
  inbox := h.inbox
  done := h.done
  boxes := h.boxes
  level1 := h.level1
  level2 := h.level2
  level3 := h.level3
  flush := h.flush
  milestones := Node.milestonesSet_of_not_awake (Node.awake_of_rom hrom)
  reads := h.reads

theorem Node.coldStart_quiet (n : Node) : n.coldStart.Quiet := n.bare_quiet.modBoot_of_rom rfl

/-- The node the rise of PWR_GOOD leaves. -/
def Node.poweredOn (n : Node) : Node :=
  (n.modPins fun p => { p with pwrGood := true }).coldStart.modDebug fun d => { d with ir := irIdcode }

theorem Node.poweredOn_quiet (n : Node) : n.poweredOn.Quiet := (Node.coldStart_quiet _).inert

end

/-- Settles O7. -/
theorem resetMeetsTheInvariants : Obligations.ResetMeetsTheInvariants := by
  obtain ⟨-, -, hrise, -, -⟩ := resetIsPowerComingOn
  rw [Node.powerGoodRise_of_off rfl rfl] at hrise
  have hquiet : State.reset.node.Quiet := hrise ▸ Node.poweredOn_quiet _
  exact ⟨nofun, ⟨rfl, rfl⟩, .nil, hquiet⟩

/-- Settles O11. -/
theorem powerGoodStartsTheRom : Obligations.PowerGoodStartsTheRom := by
  intro s t hoff htherm _
  have hrise : exec (.powerGoodRise t) s = .next ⟨(s.node.at t).poweredOn, s.pending⟩ := by
    have hrun : exec (.powerGoodRise t) s = .next (s.ran t fun n => n.powerGoodRise) := State.at_ran s t _
    have hon : (s.node.at t).powerGoodRise = (s.node.at t).poweredOn := Node.powerGoodRise_of_off hoff.power htherm
    rw [hrun, State.ran_congr (g := Node.poweredOn) hon, State.ran_of_quiet (Node.poweredOn_quiet _), State.did_eq rfl]
  exact ⟨_, hrise, rfl, rfl, rfl, rfl, rfl, rfl, Node.poweredOn_quiet _⟩

/-! ## THERMTRIP (R476) -/

/-- THERMTRIP_N is no reset and takes no power. -/
theorem Node.Quiet.tripped {n : Node} (h : n.Quiet) (held : Option (Nat × Nat)) :
    (n.modPins fun p => { p with thermLow := true, tripHeld := held }).Quiet where
  loop := h.loop
  inbox := h.inbox
  done := h.done
  boxes := h.boxes
  level1 := h.level1
  level2 := h.level2
  level3 := h.level3
  flush := h.flush
  milestones := h.milestones
  reads := h.reads

theorem Node.Quiet.thermtrip {n : Node} (h : n.Quiet) (sensor celsius : Nat) : (n.thermtrip sensor celsius).Quiet := by
  unfold Node.thermtrip
  extract_lets limit
  split
  · exact h.tripped _
  · exact h

theorem Node.hasQuad_iff {n : Node} {q : Nat} : n.hasQuad q = true ↔ q < 4 * n.nSheets := decide_eq_true_iff

/-- Quads are the sensors below 32, the hub is 32, stacks begin at 64. -/
theorem Node.sensorTrips_iff (n : Node) (sensor celsius : Nat) :
    n.hasSensor sensor = true ∧ (if 64 ≤ sensor then 105 else 115) ≤ celsius ↔
      (sensor < 32 ∧ n.hasQuad sensor = true ∨ sensor = 32) ∧ 115 ≤ celsius ∨
        64 ≤ sensor ∧ n.hasQuad (sensor - 64) = true ∧ 105 ≤ celsius := by
  have hsheets := n.nSheets_le
  simp only [Node.hasSensor, Node.hasQuad_iff, Bool.or_eq_true, beq_iff_eq]
  split <;> omega

/-- Settles O13. -/
theorem thermtripHoldsTheSensor : Obligations.ThermtripHoldsTheSensor := by
  intro s t sensor celsius hq htherm
  have htrip : exec (.thermtrip t sensor celsius) s = .next (s.did t fun n => n.thermtrip sensor celsius) :=
    (State.at_ran s t _).trans (congrArg _ (State.ran_of_quiet ((hq.at t).thermtrip sensor celsius)))
  have htherm' : (s.node.at t).pins.thermLow = false := htherm
  refine htrip.trans (congrArg _ (State.did_congr ?_))
  simp only [Node.thermtrip, htherm', Bool.not_false, and_true, Node.sensorTrips_iff]
  rfl

end Sys2Proof.Machine
